-- ==== Sys2Proof/Word.lean ====
section
/-! DEFINITION. The byte and the plainest arithmetic every file shares. Everything that a rule of the spec decides
stands in the files under Machine/. -/

namespace Sys2Proof

/-- One byte of a store, of a message or of a descriptor (00 R7: every multi-byte field is little-endian). -/
abbrev Byte := BitVec 8

/-- The value of an unset 16-bit name ("0xFFFF means none", as many rules write it). -/
abbrev none16 : Nat := 0xFFFF

/-- The value of an unset 8-bit name. -/
abbrev none8 : Nat := 0xFF

end Sys2Proof
end

