-- ==== Sys2Proof/Syntax.lean ====
section
/-! DEFINITION. The commands the block takes: one constructor for each row of spec/opcode_table.json. A row gives no
bits; its operands are what the row's rule lets the world outside choose: the unit, the register, the bytes, the moment,
or what an analogue sensor or a comparator reports. -/

namespace Sys2Proof


/-- What a Crino frame carries beside its type and payload (12 R313): the link (0 USB, 1 UDP), the Ethernet port of a
UDP datagram and the sender's address and port (18 bytes), the version, FLAGS, the reserved bytes 3, 18 and 19 taken
together, TAG, OFFSET. -/
structure Hdr where
  link : Nat
  port : Nat
  peer : List Byte
  version : Nat
  flags : Nat
  reserved : Nat
  tag : Nat
  offset : Nat
  deriving DecidableEq, Repr

/-- A unicast USDO service (12 R308), whatever its frames: a read, a write in one transfer, the start of a segmented
write with its size, one segment of it with whether it is the last, and a command specifier that is not valid. -/
inductive UsdoReq where
  | read (idx sub : Nat)
  | write (idx sub : Nat) (data : List Byte)
  | start (idx sub size : Nat)
  | segment (last : Bool) (data : List Byte)
  | invalid
  deriving DecidableEq, Repr
/-- What a run of bursts meets: `low` a request at Elastic rank, which is an Elastic context's, a demoted one or the host's (07
R170, 14 R363); `silent` a missing preamble (07 R168). -/
structure RunMet where
  low : Bool
  silent : Bool
  deriving DecidableEq, Repr

/-- A read of a memory die that asks for no burst: the channel, and whether the die stays silent (07 R166, R168). -/
structure DieRead where
  chan : Nat
  silent : Bool
  deriving DecidableEq, Repr

/-- SET_REFRESH: ticks per beat, and the clock of the beat at which its CS_N is asserted (07 R166). -/
structure RefreshSet where
  rate : Nat
  clock : Nat
  deriving DecidableEq, Repr

/-- What slot 40 meets: whether a calibration's pattern matches, whether the die stays silent (07 R168), and whether a
foreground request for the burst that scrub reads is queued (07 R183). -/
structure SlotReport where
  agrees : Bool
  silent : Bool
  queued : Bool
  deriving DecidableEq, Repr

/-- What a pass meets while it runs: nothing, an upset that changes its i-th accumulator by `delta` (15 R386), one that
changes what its duplicate computes (15 R387), or, of a pass that was stalled, an uncorrectable word among the operands that
it still had to read (07 R179). -/
inductive Upset where
  | clean
  | acc (i : Nat) (delta : Int)
  | dup
  | word (a : Nat)
  deriving DecidableEq, Repr

/-- What a beat boundary meets: whether the monitor finds the SAFE_OK pins at their driven levels (15 R400), the output
streams whose payload the hub reads with an uncorrectable word, each with its address in hub control SRAM (07 R179), and the
page-map entries that an access at the boundary finds uncorrectable, by slot and logical page (08 R207). -/
structure BeatMet where
  pins : Bool
  payloads : List (Nat × Nat)
  maps : List (Nat × Nat)
  deriving DecidableEq, Repr

/-- What a management flit brings: whether its CRC is right, and whether its sender has left ADAPT by itself, which the pairs of
two members tell each other so that the master can commit CONFIG (17 R441). -/
structure MgmtFlit where
  good : Bool
  leftAdapt : Bool
  deriving DecidableEq, Repr

/-- The slice of a context, with the page-map entries that are found uncorrectable meanwhile, by slot and logical page (08
R207). -/
structure SliceMet where
  ctx : Nat
  maps : List (Nat × Nat)
  deriving DecidableEq, Repr

/-- A temporal slot, with the logical page whose map entry is found uncorrectable (08 R207). -/
structure SlotMet where
  slot : Nat
  ue : Option Nat
  deriving DecidableEq, Repr

/-- The head of a short packet on a camera receiver (09 R218): its virtual channel, and whether the header's ECC corrected a
bit or failed. -/
structure ShortHead where
  vc : Nat
  fixed : Bool
  bad : Bool
  deriving DecidableEq, Repr

/-- What the pipeline finds of a record on its way: the address of an uncorrectable word of a row store, the record table or
a decoder's memory (09 R237), a payload whose CRC_32C the unit that reads it finds wrong, and one whose CRC_32C the writer
finds wrong (09 R212). -/
structure PipeMet where
  ue : Option Nat
  crc : Bool
  writer : Bool
  deriving DecidableEq, Repr

/-- A received Ethernet frame: whether its FCS is right (09 R220), and what the pipeline finds of the record it brings. -/
structure FrameMet where
  fcs : Bool
  met : PipeMet
  deriving DecidableEq, Repr

/-- A replayed record: the device time at which it arrives, and what the pipeline finds of it. -/
structure Arrival where
  time : Nat
  met : PipeMet
  deriving DecidableEq, Repr

/-- The header of a JPEG XS codestream as its decoder reads it (09 R226): the entry of JXS_PROFILE that it belongs to (0 for
none), the image, bit depth and slice height, whether it asks for anything else outside the subset; and what the decoder
finds of the slice before it reads it. -/
structure JxsHead where
  profile : Nat
  width : Nat
  height : Nat
  depth : Nat
  tall : Nat
  other : Bool
  met : PipeMet
  deriving DecidableEq, Repr

/-- The commands: one constructor per row of the opcode table. -/
inductive Instr where
  /-- PORST_N_RELEASE: PORST_N is released with the straps NODE_ID and CASC_ROLE (01 R21, 18 R467). -/
  | porstNRelease (node : Nat) (casc : Nat)
  /-- PORST_N_ASSERT: PORST_N is asserted (18 R469). -/
  | porstNAssert
  /-- LULL_READY: the fuses are read and the inputs conditioned (18 R470). -/
  | lullReady
  /-- WAKE: WAKE is accepted in LULL (01 R21, 14 R355). -/
  | wake
  /-- REFCLK_STOP: REFCLK stops (18 R471). -/
  | refclkStop
  /-- WARM_RST_N_ASSERT: WARM_RST_N is asserted (01 R28). -/
  | warmRstNAssert
  /-- WARM_RST_N_RELEASE: WARM_RST_N is released (01 R28). -/
  | warmRstNRelease
  /-- RETAINED_FIRMWARE_CHECK: the boot ROM checks the retained image, which is or is not intact (01 R26). -/
  | retainedFirmwareCheck (intact : Bool)
  /-- USB_ENUMERATE: the USB device enumerates (13 R331). -/
  | usbEnumerate (speed : Nat)
  /-- FIRMWARE_START: every pair has reported its first heartbeat (13 R331). -/
  | firmwareStart
  /-- REQUEST_CONFIG: the committed request for CONFIG (01 R21, R22). -/
  | requestConfig
  /-- REQUEST_RUN: the committed request for RUN (01 R21). -/
  | requestRun
  /-- REQUEST_ADAPT: the committed request for ADAPT (01 R21, R25). -/
  | requestAdapt
  /-- REQUEST_LULL: the committed request for LULL (01 R21, R26). -/
  | requestLull
  /-- DRAIN_COMPLETE: the drain of RUN or SQUALL ends in CONFIG (01 R22). -/
  | drainComplete
  /-- STATIONARY_LOST: the stationary indication is lost in ADAPT (01 R25). -/
  | stationaryLost
  /-- WEIGHT_WRITE_BACK: the adaptation step of context n ends with the write-back of weights (01 R25, 10 R252). -/
  | weightWriteBack (n : Nat) (m : List Byte)
  /-- SQUALL_ENTRY: an emergency begins in RUN (14 R372). -/
  | squallEntry
  /-- SQUALL_EXIT: every emergency has cleared (14 R372). -/
  | squallExit
  /-- ESCALATION: the escalation to SAFE (16 R425). -/
  | escalation
  /-- BEAT_BOUNDARY: a beat boundary (02 R33). -/
  | beatBoundary (readback : BeatMet)
  /-- SLICE_RELEASE: the slice of context n is released (02 R32). -/
  | sliceRelease (n : SliceMet)
  /-- SLICE_RESPONSE_END: the response time of context n's slice ends (02 R33). -/
  | sliceResponseEnd (n : SliceMet)
  /-- DEADLINE_MISSED: context n's slice is not complete at its deadline (02 R37). -/
  | deadlineMissed (n : Nat)
  /-- ADMIT_REQUEST: a committed request for admission (02 R44). -/
  | admitRequest (n : Nat)
  /-- WITHDRAW_REQUEST: a committed withdrawal (02 R44). -/
  | withdrawRequest (n : Nat)
  /-- ADMISSION_DECISION: pair 2 decides a commit's requests; the schedule commits `delay` beats later (02 R44, 17 R442). -/
  | admissionDecision (delay : Nat) (others : List (Nat × Nat × Nat)) (remote : Bool)
  /-- SCHEDULE_COMMIT: a decided schedule replaces the old one (02 R44). -/
  | scheduleCommit
  /-- WITHDRAWAL_EFFECT: a withdrawal takes effect (02 R44). -/
  | withdrawalEffect (n : Nat)
  /-- ADMISSION_RECOMPUTE: pair 2 recomputes admission, to commit `delay` beats later (02 R52, R53). -/
  | admissionRecompute (delay : Nat)
  /-- GUST: the sequencer opens quad q's clock (02 R47). -/
  | gust (q : Nat) (t : Nat) (opened : Bool)
  /-- QUAD_CLOCK_GATE: quad q's clock is gated (02 R47). -/
  | quadClockGate (q : Nat) (t : Nat)
  /-- PASS_PLAIN: engine e issues a PASS of OP_KIND 0 (04 R82, 03 R65). -/
  | passPlain (e : Nat)
  /-- PASS_DIAGONAL: engine e issues a PASS of OP_KIND 1 (05 R121). -/
  | passDiagonal (e : Nat)
  /-- PASS_TRANSPOSED: engine e issues a PASS of OP_KIND 2 (05 R123). -/
  | passTransposed (e : Nat)
  /-- PASS_AVERAGE_POOL: engine e issues a PASS of OP_KIND 3 (05 R124). -/
  | passAveragePool (e : Nat)
  /-- PASS_MAX_POOL: engine e issues a PASS of OP_KIND 4 (05 R125). -/
  | passMaxPool (e : Nat)
  /-- PASS_START: a pass starts on a half of engine e's array (04 R92); ue names an uncorrectable word that it reads, ce the engines of the stores whose words were corrected. -/
  | passStart (e : Nat) (half : Bool) (ue : Option Nat) (ce : List Nat)
  /-- PASS_COMPLETE: the pass of a half ends (03 R77); flag is what has struck it meanwhile. -/
  | passComplete (e : Nat) (half : Bool) (flag : Upset)
  /-- PASS_RERUN: an abandoned chain is rerun (03 R79), ce the engines of the stores whose words were corrected. -/
  | passRerun (e : Nat) (half : Bool) (ue : Option Nat) (ce : List Nat)
  /-- PASSQ: engine e issues a PASSQ (04 R101). -/
  | passq (e : Nat)
  /-- TILE_TAKE: engine e takes an entry of quad q's tile queue (04 R102). -/
  | tileTake (e : Nat) (q : Nat)
  /-- NOP: engine e issues a NOP (04 R82). -/
  | nop (e : Nat)
  /-- END: engine e issues an END (04 R82). -/
  | endOp (e : Nat)
  /-- SLICE_END: the slice of context n ends on engine e (04 R82). -/
  | sliceEnd (e : Nat) (n : Nat)
  /-- SETDP: engine e issues a SETDP (04 R82). -/
  | setdp (e : Nat)
  /-- VCHAIN: engine e issues a VCHAIN (06 R138). -/
  | vchain (e : Nat)
  /-- DMA_COPY: engine e issues a DMA of KIND 0 (04 R99); ue names an uncorrectable word of its source, ce the engines of the stores whose words were corrected. -/
  | dmaCopy (e : Nat) (ue : Option Nat) (ce : List Nat)
  /-- DMA_BROADCAST: engine e issues a DMA of KIND 1 (04 R100), ce the engines of the stores whose words were corrected. -/
  | dmaBroadcast (e : Nat) (ue : Option Nat) (ce : List Nat)
  /-- DMA_FILL: engine e issues a DMA of KIND 2 (04 R98). -/
  | dmaFill (e : Nat)
  /-- DMA_COMPLETE: the j-th issued transfer of engine e completes (04 R99). -/
  | dmaComplete (e : Nat) (j : Nat)
  /-- LB_HELD_WRITE_RESUME: the held writes of engine e's j-th transfer go on (05 R110). -/
  | lbHeldWriteResume (e : Nat) (j : Nat)
  /-- LOOP: engine e issues a LOOP (04 R84). -/
  | loop (e : Nat)
  /-- WAIT: engine e issues a WAIT (04 R96). -/
  | wait (e : Nat)
  /-- WAIT_RETURN: the WAIT of context n on engine e returns (04 R96). -/
  | waitReturn (e : Nat) (n : Nat)
  /-- SIGNAL: engine e issues a SIGNAL (04 R96). -/
  | signal (e : Nat)
  /-- BARRIER: engine e issues a BARRIER (04 R97). -/
  | barrier (e : Nat)
  /-- BARRIER_RELEASE: a barrier whose participants have arrived releases them (04 R97); o is die × 4,096 + index. -/
  | barrierRelease (o : Nat)
  /-- FENCE: engine e issues a FENCE (04 R82). -/
  | fence (e : Nat)
  /-- FENCE_RETURN: the FENCE of context n on engine e returns (04 R82). -/
  | fenceReturn (e : Nat) (n : Nat)
  /-- BRS: engine e issues a BRS (04 R85). -/
  | brs (e : Nat)
  /-- MARK: engine e issues a MARK (04 R82). -/
  | mark (e : Nat)
  /-- RESERVED_OPCODE: engine e fetches an opcode that is not listed (04 R82). -/
  | reservedOpcode (e : Nat)
  /-- CHAIN_START: a chain starts on engine e's vector engine (06 R149). -/
  | chainStart (e : Nat)
  /-- CHAIN_COMPLETE: the chain of engine e completes (06 R152); ue names an uncorrectable word that it read, ce the engines of the stores whose words were corrected. -/
  | chainComplete (e : Nat) (ue : Option Nat) (ce : List Nat)
  /-- LOAD_FIRMWARE: a frame of a LOAD with a firmware image (12 R318, 13 R331). -/
  | loadFirmware (hd : Hdr) (payload : List Byte)
  /-- FIRMWARE_VERIFIED: the crypto unit's verdict on the image at its head; `bad` lists the pairs whose start fails (13 R330, R331). -/
  | firmwareVerified (bad : List Nat)
  /-- LOAD_PROGRAM_IMAGE: a frame of a LOAD with a program image (04 R104, 12 R318). -/
  | loadProgramImage (hd : Hdr) (payload : List Byte)
  /-- LOAD_WEIGHTS: a frame of a LOAD with weights (12 R318). -/
  | loadWeights (hd : Hdr) (payload : List Byte)
  /-- READ_RUN: channel c reads n bursts from a, offered at bus clock start; held marks the bursts whose DQS the die holds back, met the rank of its request and whether a preamble is missing, errs the bits in error (07 R166). -/
  | readRun (c : Nat) (a : Nat) (n : Nat) (start : Nat) (held : Nat) (met : RunMet) (errs : List (Nat × Nat × Nat))
  /-- WRITE_RUN: channel c writes whole bursts from a (07 R166). -/
  | writeRun (c : Nat) (a : Nat) (start : Nat) (held : Nat) (met : RunMet) (data : List Byte)
  /-- READ_TRAINING: channel c's die returns its training pattern (07 R166). -/
  | readTraining (c : DieRead)
  /-- SET_REFRESH: channel c's tick rate becomes one or two per beat (07 R166). -/
  | setRefresh (c : Nat) (rate : RefreshSet)
  /-- READ_STATUS: channel c's die returns its status word (07 R166). -/
  | readStatus (c : DieRead)
  /-- REFRESH_TICK: a refresh tick of channel c (07 R167). -/
  | refreshTick (c : Nat)
  /-- REFRESH_RATE_SWITCH: channel c changes its refresh rate when its quad's temperature asks (07 R167). -/
  | refreshRateSwitch (c : Nat)
  /-- BACKGROUND_SLOT: slot 40 of channel c: whether a calibration's pattern matches, the delay step it asks for, the bits in error of a scrub (07 R181). -/
  | backgroundSlot (c : Nat) (good : SlotReport) (step : Int) (errs : List (Nat × Nat))
  /-- SCRUB_STARVED: a scrub pass of channel c that takes too long is reported (07 R182). -/
  | scrubStarved (c : Nat)
  /-- MEM_READ: a MEM_READ frame; ue names an uncorrectable word of the range (07 R175). -/
  | memRead (hd : Hdr) (payload : List Byte) (ue : Option Nat)
  /-- MEM_WRITE: a MEM_WRITE frame (07 R175). -/
  | memWrite (hd : Hdr) (payload : List Byte)
  /-- PIN_PAGE: a committed PIN_PAGE pins (08 R193). -/
  | pinPage
  /-- UNPIN_PAGE: a committed PIN_PAGE unpins (08 R193). -/
  | unpinPage
  /-- TM_RESET: a committed TM_RESET (08 R209). -/
  | tmReset
  /-- WALK_PHASE1: slot t's walk begins after a release of its forward or backward context; ue names a logical page whose map entry is uncorrectable (08 R198). -/
  | walkPhase1 (t : Nat) (back : Bool) (ue : Option Nat)
  /-- WALK_PHASE2: slot t's walk goes on at the first trigger (08 R198). -/
  | walkPhase2 (t : Nat) (back : Bool) (ue : Option Nat)
  /-- MASS_READ: slot t's masses are read at the second trigger (08 R198). -/
  | massRead (t : Nat)
  /-- PAIR4_LIST_BUILD: pair 4 stages slot t's next list (08 R201). -/
  | pair4ListBuild (t : SlotMet)
  /-- CSI2_LONG_PACKET: a long packet on receiver n, its last byte at device time t: header ECC corrected or failed, payload CRC-16 held, an uncorrectable word of the pipeline's stores (09 R219). -/
  | csi2LongPacket (n : Nat) (vc : Nat) (dt : Nat) (t : Nat) (fixed : Bool) (bad : Bool) (crcOk : Bool) (ue : PipeMet) (payload : List Byte)
  /-- CSI2_FRAME_START: Frame Start on receiver n (09 R219). -/
  | csi2FrameStart (n : Nat) (vc : ShortHead) (t : Nat)
  /-- CSI2_FRAME_END: Frame End on receiver n (09 R219). -/
  | csi2FrameEnd (n : Nat) (vc : ShortHead) (t : Nat)
  /-- CSI2_LINE_SHORT_PACKET: Line Start or Line End on receiver n (09 R218). -/
  | csi2LineShortPacket (n : Nat) (vc : ShortHead)
  /-- ETHERNET_FRAME_RECEIVED: a frame on port p, its start stamped t0 and its last byte at t, without its FCS (09 R220). -/
  | ethernetFrameReceived (p : Nat) (t0 : Nat) (t : Nat) (fcsOk : FrameMet) (m : List Byte)
  /-- JXS_DECODE_START: stream n's decoder starts its next slice; outside: its codestream is not in the subset (09 R227). -/
  | jxsDecodeStart (n : Nat) (t : Nat) (outside : JxsHead)
  /-- JXS_DECODE_COMPLETE: stream n's slice is decoded: its rows by channel (09 R227). -/
  | jxsDecodeComplete (n : Nat) (t : Nat) (depth : Nat) (ue : PipeMet) (rows : List (List (List Nat)))
  /-- JXS_DECODE_BUDGET_EXPIRED: stream n's decode has used its budget, at a payload byte (09 R227). -/
  | jxsDecodeBudgetExpired (n : Nat) (t : Nat) (off : Nat)
  /-- SENSOR_SILENT: no first record of stream n's next frame by device time t (09 R213). -/
  | sensorSilent (n : Nat) (t : Nat)
  /-- POSITION_DEADLINE: deadlines of stream n's open positions at device time t (09 R215). -/
  | positionDeadline (n : Nat) (t : Nat)
  /-- REPLAY_RECORD: a REPLAY_RECORD frame at device time t (09 R235). -/
  | replayRecord (hd : Hdr) (t : Arrival) (payload : List Byte)
  /-- GPTP_SYNC: a Sync on an Ethernet port, stamped at device time t (11 R277). -/
  | gptpSync (port : Nat) (domain : Nat) (seq : Nat) (t : Nat)
  /-- GPTP_FOLLOW_UP: a Follow_Up: its origin time and correction in nanoseconds (11 R275). -/
  | gptpFollowUp (port : Nat) (domain : Nat) (seq : Nat) (origin : Int) (corr : Int)
  /-- GPTP_PDELAY: a completed peer delay exchange: request sent, received, response sent, received (11 R277). -/
  | gptpPdelay (port : Nat) (t1 : Int) (t2 : Int) (t3 : Int) (t4 : Int)
  /-- GPTP_ANNOUNCE: an Announce is received and ignored (11 R277). -/
  | gptpAnnounce (port : Nat)
  /-- GPTP_SYNC_SEND: a master port's sync interval ends at device time t (11 R277). -/
  | gptpSyncSend (port : Nat) (t : Nat)
  /-- MAP_UPDATE: the map that a sample asked for takes effect at a boundary (11 R273). -/
  | mapUpdate
  /-- SYNC_TIMEOUT: no accepted sample for three intervals (11 R276). -/
  | syncTimeout
  /-- HOLDOVER_EXPIRE: the holdover limit has passed (11 R276). -/
  | holdoverExpire
  /-- MAP_RESET: a committed MAP_RESET (11 R275). -/
  | mapReset
  /-- PPS_SECONDS: committed PPS_SECONDS (11 R277). -/
  | ppsSeconds
  /-- TRIGGER_START: trigger k, 32 for PPS_OUT, finds its first edge (11 R281). -/
  | triggerStart (k : Nat)
  /-- TRIGGER_SCHEDULE: two beats before an edge of trigger k (11 R280). -/
  | triggerSchedule (k : Nat)
  /-- TRIGGER_EDGE: trigger k's scheduled edge (11 R280). -/
  | triggerEdge (k : Nat)
  /-- TRIGGER_PULSE_END: trigger k's width has passed at device time t (11 R280). -/
  | triggerPulseEnd (k : Nat) (t : Nat)
  /-- PPS_OUT_EDGE: PPS_OUT's scheduled edge (11 R281). -/
  | ppsOutEdge
  /-- INPUT_CHANGE_ACCEPTED: input k changes level at device time t and stays there for so many samples (11 R283). -/
  | inputChangeAccepted (k : Nat) (lv : Bool) (t : Nat) (samples : Nat)
  /-- MIN_INTERVAL_EXPIRE: input k's minimum interval ends (11 R284). -/
  | minIntervalExpire (k : Nat) (t : Nat)
  /-- INPUT_STUCK: input k has been active for long at device time t (11 R285). -/
  | inputStuck (k : Nat) (t : Nat)
  /-- CAP_FIFO_POP: an OD_READ of CAP_FIFO_POP of input c (11 R286). -/
  | capFifoPop (c : Nat) (hd : Hdr)
  /-- ADC_CONVERSION: input c of the ADC gives a code (11 R288). -/
  | adcConversion (c : Nat) (code : Nat)
  /-- NET_LOW_EVENT: four low codes of AIN0 in a row (11 R290). -/
  | netLowEvent (t : Nat)
  /-- POWER_HOLD_EXPIRE: a power hold has stood for 500 beats (14 R374). -/
  | powerHoldExpire
  /-- PWM_PERIOD: a period of PWM output p begins (11 R292). -/
  | pwmPeriod (p : Nat)
  /-- OD_READ: an OD_READ frame (12 R297). -/
  | odRead (hd : Hdr) (payload : List Byte)
  /-- OD_WRITE: an OD_WRITE frame (12 R297). -/
  | odWrite (hd : Hdr) (payload : List Byte)
  /-- COMMIT: an OD_WRITE of 0x01 to COMMIT (12 R299). -/
  | commit (hd : Hdr)
  /-- STAGE_DISCARD: an OD_WRITE of 0x00 to COMMIT (12 R299). -/
  | stageDiscard (hd : Hdr)
  /-- COMMIT_APPLY: the commit of a link's stage at its boundary (12 R299). -/
  | commitApply (link : Nat)
  /-- USDO_REQUEST: a USDO service of a client on controller c (12 R308). -/
  | usdoRequest (c : Nat) (client : Nat) (q : UsdoReq)
  /-- USDO_TIMEOUT: an open transfer of controller c at device time t (12 R308). -/
  | usdoTimeout (c : Nat) (t : Nat)
  /-- NMT_COMMAND: an NMT command on controller c (12 R308). -/
  | nmtCommand (c : Nat)
  /-- HEARTBEAT: controller c's heartbeat time at device time t (12 R309). -/
  | heartbeat (c : Nat) (t : Nat)
  /-- SAFETY_STATUS_FRAME: a boundary of the safety-status frame's period (12 R310). -/
  | safetyStatusFrame
  /-- CAN_BUS_OFF: controller c goes bus-off (12 R307). -/
  | canBusOff (c : Nat)
  /-- CAN_BUS_OFF_RECOVERY: controller c has seen 128 × 11 recessive bits (12 R307). -/
  | canBusOffRecovery (c : Nat)
  /-- HELLO: a HELLO frame (12 R314). -/
  | hello (hd : Hdr) (payload : List Byte)
  /-- KEEPALIVE: a KEEPALIVE frame (12 R315). -/
  | keepalive (hd : Hdr)
  /-- UNKNOWN_FRAME_TYPE: a frame of a reserved type (12 R315). -/
  | unknownFrameType (ftype : Nat) (hd : Hdr)
  /-- CRINO_FRAME_CRC_FAIL: a frame whose CRC fails (12 R313). -/
  | crinoFrameCrcFail (hd : Hdr)
  /-- REG_READ: a REG_READ frame (12 R320). -/
  | regRead (hd : Hdr) (payload : List Byte)
  /-- REG_WRITE: a REG_WRITE frame (12 R320). -/
  | regWrite (hd : Hdr) (payload : List Byte)
  /-- HOST_KEEPALIVE: a write of HOST_KEEPALIVE (12 R320). -/
  | hostKeepalive (hd : Hdr) (v : Nat)
  /-- IRQ_STATUS_CLEAR: a write of IRQ_STATUS (12 R320). -/
  | irqStatusClear (hd : Hdr) (v : Nat)
  /-- RING_DOORBELL: a doorbell of ring r (12 R321). -/
  | ringDoorbell (hd : Hdr) (r : Nat) (v : Nat)
  /-- CMD_COMMIT: the next command entry, a COMMIT (12 R321). -/
  | cmdCommit
  /-- HEAVY_PHASE_HINT: the next command entry, a hint (14 R368). -/
  | heavyPhaseHint
  /-- REPLAY_FRAME_END: the next command entry, a REPLAY_FRAME_END (12 R321). -/
  | replayFrameEnd
  /-- CMD_NOP: the next command entry, a NOP (12 R321). -/
  | cmdNop
  /-- CMD_RESERVED: the next command entry, reserved or malformed (12 R321). -/
  | cmdReserved
  /-- HOST_SILENT: no frame has come on a session for HOST_SILENCE_MS (12 R322). -/
  | hostSilent (link : Nat) (t : Nat)
  /-- USB_DETACH: the USB port detaches (12 R322). -/
  | usbDetach
  /-- ARP_REQUEST: an ARP request for an address on port p (12 R317). -/
  | arpRequest (p : Nat) (target : List Byte)
  /-- NEIGHBOUR_SOLICITATION: a neighbour solicitation for an address on port p (12 R317). -/
  | neighbourSolicitation (p : Nat) (target : List Byte)
  /-- ETH_LINK_CHANGE: port p's link comes up or goes down (12 R319). -/
  | ethLinkChange (p : Nat) (up : Bool)
  /-- ATTEST_REQUEST: a frame of an attestation request (13 R343). -/
  | attestRequest (hd : Hdr) (payload : List Byte)
  /-- ATTEST_REPORT_SEND: the report of the request at the crypto unit's head (13 R344, R345). -/
  | attestReportSend
  /-- LOG_POP: an OD_READ of LOG_POP (13 R347). -/
  | logPop (hd : Hdr)
  /-- LOG_DRAIN_TRANSFER: a bulk transfer of n log entries completes on EP3 (13 R347). -/
  | logDrainTransfer (n : Nat)
  /-- COMPARATOR_MISMATCH: the comparator of pair k sees a mismatch (13 R325). -/
  | comparatorMismatch (k : Nat)
  /-- PAIR_RESTART: a restart of pair k for a cause, with the outcome of its test and of its section's digest (13 R332). -/
  | pairRestart (k : Nat) (cause : Nat) (pc : Nat) (testOk : Bool) (digestOk : Bool)
  /-- PAIR_HEARTBEAT: pair k writes its heartbeat (16 R418). -/
  | pairHeartbeat (k : Nat)
  /-- HEARTBEAT_MISSED: pair k's heartbeat is late (16 R418). -/
  | heartbeatMissed (k : Nat)
  /-- PAIR_SPLIT: pair k reaches its sync point and splits (13 R336). -/
  | pairSplit (k : Nat)
  /-- PAIR_REJOIN: pair k rejoins (13 R337). -/
  | pairRejoin (k : Nat)
  /-- DEBUG_HALT: the debugger halts pair k (13 R339). -/
  | debugHalt (k : Nat)
  /-- DEBUG_ACCESS: the debugger reads or writes in halted pair k (13 R339). -/
  | debugAccess (k : Nat) (write : Bool)
  /-- FW_ACTIVATE_REQUEST: committed FW_ACTIVATE_REQUEST asks for activation (13 R341). -/
  | fwActivateRequest
  /-- FW_ACTIVATE_WITHDRAW: committed FW_ACTIVATE_REQUEST withdraws (13 R341). -/
  | fwActivateWithdraw
  /-- ACTIVATION_BEGIN: the activation begins (13 R342). -/
  | activationBegin
  /-- ACTIVATION_COMPLETE: every restarted pair has reported (13 R342). -/
  | activationComplete
  /-- GARNET_PLAN_WRITE: pair 2 writes the plan of a half cycle (13 R335). -/
  | garnetPlanWrite (half : Nat) (starts : List (Nat × Nat))
  /-- SCHEDULE_PLAN_EXHAUSTED: the plan ends with pair 2 absent (13 R335). -/
  | schedulePlanExhausted
  /-- POWER_ESTIMATE: the estimate of an even boundary: P_est in milliwatts and the sensors' quarter degrees (14 R361). -/
  | powerEstimate (mw : Nat) (temps : List (Nat × Int))
  /-- FW_LEVEL_WRITE: pair 1 writes FW_LEVEL (14 R365). -/
  | fwLevelWrite (l : Nat)
  /-- CLOCK_STEP: quad q takes one step of clock, LDO or rail code (14 R352). -/
  | clockStep (q : Nat)
  /-- DROOP_DETECT: quad q droops and stretches k eighths of a cycle (14 R358). -/
  | droopDetect (q : Nat) (k : Nat)
  /-- DROOP_CLEAR: quad q's stretch has returned to 0 (14 R358). -/
  | droopClear (q : Nat)
  /-- PLL_LOCK_LOST: PLL p loses lock: 2 × die the main one, 2 × die + 1 the channel one, 4 the hub's (14 R353). -/
  | pllLockLost (p : Nat)
  /-- PLL_RELOCK: PLL p locks (14 R353). -/
  | pllRelock (p : Nat)
  /-- COOLING_UPDATE: the duties of pump and valve (14 R371). -/
  | coolingUpdate
  /-- HEAVY_PHASE_RAISE: two beats before a hinted phase (14 R368). -/
  | heavyPhaseRaise
  /-- HEAVY_PHASE_END: the boundary after a hinted phase (14 R368). -/
  | heavyPhaseEnd
  /-- GARNET_WINDOW_EXPIRE: the Garnet slice of quad q has not completed in its window (15 R383). -/
  | garnetWindowExpire (q : Nat)
  /-- DIAGNOSTIC_CYCLE_END: a diagnostic cycle ends; the hub's checkers that failed and those not exercised (15 R390, R391). -/
  | diagnosticCycleEnd (failed : List (Nat × Nat)) (missed : List Nat)
  /-- TEST_STEP: a test step on quad q and its verdict (15 R391). -/
  | testStep (q : Nat) (item : Nat) (t : Nat) (ok : Bool)
  /-- STARTUP_CHECKS: the start-up checks with what failed (15 R389). -/
  | startupChecks (fails : List (Nat × Nat × Bool))
  /-- GUARD_PATH_MISMATCH: a lockstep mismatch of the guard path (15 R392). -/
  | guardPathMismatch (prog : Nat)
  /-- PLAUSIBILITY_COMPARE: pair 0 compares a result with the guard output (15 R396). -/
  | plausibilityCompare
  /-- SUSPECT_REMEDY: the remedy of a suspect quad (15 R398). -/
  | suspectRemedy (q : Nat)
  /-- RETEST: the retest of a suspect quad (15 R398). -/
  | retest (q : Nat) (beats : Nat) (pass : Bool)
  /-- EXT_WDG_PULSE: EXT_WDG at a multiple of its period (15 R402). -/
  | extWdgPulse
  /-- FAULT_MESSAGE: a fault message reaches the collector, whose queue may be full (16 R407 to R413). -/
  | faultMessage (msg : Nat) (master : Nat) (access : Nat) (full : Bool)
  /-- FAULT_ACK: an OD_READ of FAULT_ACK (16 R414). -/
  | faultAck (hd : Hdr)
  /-- FE_RELEASE: an OD_READ of FE_RELEASE (16 R415). -/
  | feRelease (hd : Hdr)
  /-- STOP_ACK_TIMEOUT: engine e has not acknowledged a stop (16 R416). -/
  | stopAckTimeout (e : Nat) (n : Nat) (units : Nat)
  /-- PROGRESS_STALLED: a slot of engine e makes no progress (16 R417). -/
  | progressStalled (e : Nat) (n : Nat)
  /-- COMPUTE_RESET_BEGIN: step 1 of a compute-part reset (16 R420). -/
  | computeResetBegin
  /-- COMPUTE_RESET_DUMP: step 2: the dump, with the entries that are taken and those that time out (16 R421). -/
  | computeResetDump (taken : Nat) (lost : List Nat)
  /-- COMPUTE_RESET_ASSERT: step 3 (16 R422). -/
  | computeResetAssert
  /-- COMPUTE_RESET_RELEASE: step 4: the release and its tests, with the quads that fail (16 R422). -/
  | computeResetRelease (fails : List (Nat × Nat)) (beats : Nat)
  /-- RESUMPTION: step 5 (16 R423). -/
  | resumption
  /-- TRAIN_FLIT: a TRAIN flit of port p with the measured delay (17 R435). -/
  | trainFlit (p : Nat) (straps : Nat) (serial : Nat) (low : Nat) (high : Nat) (delay : Nat)
  /-- FORM: the formation boundary is named, by this member's count and by the master's (17 R435). -/
  | form (own : Nat) (master : Nat)
  /-- FORMATION: the formation boundary (17 R435, R436). -/
  | formation
  /-- TRAINING_TIMEOUT: training has not completed in 20,000 beats (17 R435). -/
  | trainingTimeout (step : Nat)
  /-- CONTROL_FLIT_RECEIVED: a control flit arrives on port p (17 R440). -/
  | controlFlitReceived (p : Nat) (ack : Nat) (m : List Byte) (good : Bool)
  /-- RECORD_FLIT: a record flit arrives on port p (17 R438, R446). -/
  | recordFlit (p : Nat) (seq : Nat) (ack : Nat) (stream : Nat) (flags : Nat) (index : Nat) (payload : List Byte) (good : Bool)
  /-- MANAGEMENT_FLIT: a management flit arrives on port p (17 R438, R439). -/
  | managementFlit (p : Nat) (seq : Nat) (ack : Nat) (good : MgmtFlit)
  /-- FLIT_RESEND: flits are sent again on port p (17 R439). -/
  | flitResend (p : Nat) (n : Nat)
  /-- JOINT_STATE_CHANGE: a joint state change (17 R441). -/
  | jointStateChange
  /-- ARRIVAL_SET_COMPLETE: the arrival set of collective k, with the members' output streams (17 R447). -/
  | arrivalSetComplete (k : Nat) (outs : List (Nat × Nat))
  /-- JOB_ABORT: the aborts of the boundary (17 R448). -/
  | jobAbort
  /-- JOB_STRETCH: this member sets or clears STRETCH (17 R449). -/
  | jobStretch (on : Bool)
  /-- PARTNER_LOST: member j is declared lost (17 R450). -/
  | partnerLost (j : Nat)
  /-- MEMBER_EXPEL: the master expels a member (17 R450). -/
  | memberExpel
  /-- JTAG_TEST_LOGIC_RESET: Test-Logic-Reset (18 R468). -/
  | jtagTestLogicReset
  /-- JTAG_BYPASS: BYPASS (18 R468). -/
  | jtagBypass
  /-- JTAG_SAMPLE: SAMPLE with the levels on the board (18 R468). -/
  | jtagSample (pins : Nat)
  /-- JTAG_PRELOAD: PRELOAD (18 R468). -/
  | jtagPreload (cells : Nat)
  /-- JTAG_EXTEST: EXTEST with the levels on the board (18 R468). -/
  | jtagExtest (pins : Nat)
  /-- USB_ATTACH: the USB port trains at a speed code of USB_SPEED (12 R312). -/
  | usbAttach (speed : Nat)
  /-- DEBUGGER_CONNECT: a debugger connects (13 R339). -/
  | debuggerConnect
  /-- DEBUG_RESUME: the debugger lets pair k go on (13 R339). -/
  | debugResume (k : Nat)
  /-- GPTP_ANNOUNCE_SEND: a master port's announce interval ends at device time t (11 R277). -/
  | gptpAnnounceSend (port : Nat) (t : Nat)
  deriving DecidableEq, Repr

end Sys2Proof
end

