-- ==== Sys2Proof/WellFormed.lean ====
section
/-! DEFINITION. Which operands a command can carry at all: the ranges that the spec's encodings and numberings give
them. A command outside them is refused as malformed. -/

namespace Sys2Proof

/-- A Crino frame header holds its fields' widths (12 R313); the CRC and PAYLOAD_BYTES are the frame's own. -/
def Hdr.wf (h : Hdr) : Bool :=
  decide (h.link < 2) && decide (h.port < 5) && decide (h.peer.length = 18) && decide (h.version < 2 ^ 8) &&
  decide (h.flags < 2 ^ 8) && decide (h.reserved < 2 ^ 24) && decide (h.tag < 2 ^ 32) && decide (h.offset < 2 ^ 32)

/-- A USDO service's index, sub-index and data (12 R308). -/
def UsdoReq.wf : UsdoReq → Bool
  | .read idx sub => decide (idx < 2 ^ 16) && decide (sub < 256)
  | .write idx sub data => decide (idx < 2 ^ 16) && decide (sub < 256) && decide (data.length ≤ 2 ^ 16)
  | .start idx sub size => decide (idx < 2 ^ 16) && decide (sub < 256) && decide (size < 2 ^ 32)
  | .segment _ data => decide (data.length ≤ 2 ^ 16)
  | .invalid => true

/-- An array has 1,024 accumulators; a word lies in a scratchpad or, from 2²⁰ on, in a line buffer (07 R156). -/
def Upset.wf : Upset → Bool
  | .clean => true
  | .acc i _ => decide (i < 1024)
  | .dup => true
  | .word a => decide (a < 0x120000)

/-- A page-map entry: one of 32 slots, a logical page of 42 bits (08 R187, R209). -/
def mapsWf (l : List (Nat × Nat)) : Bool := l.all (fun p => decide (p.1 < 32) && decide (p.2 < 2 ^ 42))

/-- Hub control SRAM holds 16 MiB (01 R11). -/
def BeatMet.wf (m : BeatMet) : Bool := m.payloads.all (fun p => decide (p.1 < 64) && decide (p.2 < 2 ^ 24)) && mapsWf m.maps

/-- The operands lie inside their encodings. -/
def Instr.wf : Instr → Bool
  | .porstNRelease node casc => decide (node < 128) && decide (casc < 16)
  | .porstNAssert => true
  | .lullReady => true
  | .wake => true
  | .refclkStop => true
  | .warmRstNAssert => true
  | .warmRstNRelease => true
  | .retainedFirmwareCheck _ => true
  | .usbEnumerate speed => decide (speed ≤ 3)
  | .firmwareStart => true
  | .requestConfig => true
  | .requestRun => true
  | .requestAdapt => true
  | .requestLull => true
  | .drainComplete => true
  | .stationaryLost => true
  | .weightWriteBack n m => decide (n < 1024) && decide (m.length ≤ 2 ^ 31)
  | .squallEntry => true
  | .squallExit => true
  | .escalation => true
  | .beatBoundary met => met.wf
  | .sliceRelease n => decide (n.ctx < 1024) && mapsWf n.maps
  | .sliceResponseEnd n => decide (n.ctx < 1024) && mapsWf n.maps
  | .deadlineMissed n => decide (n < 1024)
  | .admitRequest n => decide (n < 1024)
  | .withdrawRequest n => decide (n < 1024)
  | .admissionDecision delay _ _ => decide (8 ≤ delay) && decide (delay ≤ 2500)
  | .scheduleCommit => true
  | .withdrawalEffect n => decide (n < 1024)
  | .admissionRecompute delay => decide (delay ≤ 2500)
  | .gust q t _ => decide (q < 64) && decide (t < 2 ^ 64)
  | .quadClockGate q t => decide (q < 64) && decide (t < 2 ^ 64)
  | .passPlain e => decide (e < 256)
  | .passDiagonal e => decide (e < 256)
  | .passTransposed e => decide (e < 256)
  | .passAveragePool e => decide (e < 256)
  | .passMaxPool e => decide (e < 256)
  | .passStart e _ _ ce => decide (e < 256) && ce.all (fun x => decide (x < 256))
  | .passComplete e _ flag => decide (e < 256) && flag.wf
  | .passRerun e _ _ ce => decide (e < 256) && ce.all (fun x => decide (x < 256))
  | .passq e => decide (e < 256)
  | .tileTake e q => decide (e < 256) && decide (q < 64)
  | .nop e => decide (e < 256)
  | .endOp e => decide (e < 256)
  | .sliceEnd e n => decide (e < 256) && decide (n < 1024)
  | .setdp e => decide (e < 256)
  | .vchain e => decide (e < 256)
  | .dmaCopy e _ ce => decide (e < 256) && ce.all (fun x => decide (x < 256))
  | .dmaBroadcast e _ ce => decide (e < 256) && ce.all (fun x => decide (x < 256))
  | .dmaFill e => decide (e < 256)
  | .dmaComplete e _ => decide (e < 256)
  | .lbHeldWriteResume e _ => decide (e < 256)
  | .loop e => decide (e < 256)
  | .wait e => decide (e < 256)
  | .waitReturn e n => decide (e < 256) && decide (n < 1024)
  | .signal e => decide (e < 256)
  | .barrier e => decide (e < 256)
  | .barrierRelease o => decide (o < 8192)
  | .fence e => decide (e < 256)
  | .fenceReturn e n => decide (e < 256) && decide (n < 1024)
  | .brs e => decide (e < 256)
  | .mark e => decide (e < 256)
  | .reservedOpcode e => decide (e < 256)
  | .chainStart e => decide (e < 256)
  | .chainComplete e _ ce => decide (e < 256) && ce.all (fun x => decide (x < 256))
  | .loadFirmware hd payload => hd.wf && decide (payload.length ≤ 2 ^ 31)
  | .firmwareVerified _ => true
  | .loadProgramImage hd payload => hd.wf && decide (payload.length ≤ 2 ^ 31)
  | .loadWeights hd payload => hd.wf && decide (payload.length ≤ 2 ^ 31)
  | .readRun c a n start held _ _ => decide (c < 192) && decide (a < 2097152) && decide (1 ≤ n) && decide (a % 16 + n ≤ 16) && decide (start < 2000) && decide (held < 65536)
  | .writeRun c a start held _ data => decide (c < 192) && decide (a < 2097152) && decide (64 ≤ data.length) && decide (data.length % 64 = 0) && decide (a % 16 + data.length / 64 ≤ 16) && decide (start < 2000) && decide (held < 65536)
  | .readTraining c => decide (c.chan < 192)
  | .setRefresh c rate => decide (c < 192) && decide (1 ≤ rate.rate) && decide (rate.rate ≤ 2) && decide (rate.clock < 1800)
  | .readStatus c => decide (c.chan < 192)
  | .refreshTick c => decide (c < 192)
  | .refreshRateSwitch c => decide (c < 192)
  | .backgroundSlot c _ _ _ => decide (c < 192)
  | .scrubStarved c => decide (c < 192)
  | .memRead hd _ _ => hd.wf
  | .memWrite hd _ => hd.wf
  | .pinPage => true
  | .unpinPage => true
  | .tmReset => true
  | .walkPhase1 t _ _ => decide (t < 32)
  | .walkPhase2 t _ _ => decide (t < 32)
  | .massRead t => decide (t < 32)
  | .pair4ListBuild t => decide (t.slot < 32)
  | .csi2LongPacket n vc dt _ _ _ _ _ _ => decide (n < 16) && decide (vc < 16) && decide (dt < 64)
  | .csi2FrameStart n vc _ => decide (n < 16) && decide (vc.vc < 16)
  | .csi2FrameEnd n vc _ => decide (n < 16) && decide (vc.vc < 16)
  | .csi2LineShortPacket n vc => decide (n < 16) && decide (vc.vc < 16)
  | .ethernetFrameReceived p _ _ _ _ => decide (p < 4)
  | .jxsDecodeStart n _ _ => decide (16 ≤ n) && decide (n < 32)
  | .jxsDecodeComplete n _ depth _ _ => decide (16 ≤ n) && decide (n < 32) && decide (8 ≤ depth) && decide (depth ≤ 12)
  | .jxsDecodeBudgetExpired n _ off => decide (16 ≤ n) && decide (n < 32) && decide (off < 2 ^ 24)
  | .sensorSilent n _ => decide (n < 32)
  | .positionDeadline n _ => decide (n < 32)
  | .replayRecord hd _ _ => hd.wf
  | .gptpSync port domain seq _ => decide (port < 5) && decide (domain < 256) && decide (seq < 65536)
  | .gptpFollowUp port domain seq _ _ => decide (port < 5) && decide (domain < 256) && decide (seq < 65536)
  | .gptpPdelay port _ _ _ _ => decide (port < 5)
  | .gptpAnnounce port => decide (port < 5)
  | .gptpSyncSend port _ => decide (port < 5)
  | .mapUpdate => true
  | .syncTimeout => true
  | .holdoverExpire => true
  | .mapReset => true
  | .ppsSeconds => true
  | .triggerStart k => decide (k < 33)
  | .triggerSchedule k => decide (k < 33)
  | .triggerEdge k => decide (k < 32)
  | .triggerPulseEnd k _ => decide (k < 33)
  | .ppsOutEdge => true
  | .inputChangeAccepted k _ _ samples => decide (k < 20) && decide (samples ≤ 255)
  | .minIntervalExpire k _ => decide (k < 20)
  | .inputStuck k _ => decide (k < 20)
  | .capFifoPop c hd => decide (c < 20) && hd.wf
  | .adcConversion c code => decide (c < 8) && decide (code < 4096)
  | .netLowEvent t => decide (0 ≤ t)
  | .powerHoldExpire => true
  | .pwmPeriod p => decide (p < 2)
  | .odRead hd _ => hd.wf
  | .odWrite hd _ => hd.wf
  | .commit hd => hd.wf
  | .stageDiscard hd => hd.wf
  | .commitApply link => decide (link < 4)
  | .usdoRequest c client q => decide (c < 2) && decide (client < 128) && q.wf
  | .usdoTimeout c _ => decide (c < 2)
  | .nmtCommand c => decide (c < 2)
  | .heartbeat c _ => decide (c < 2)
  | .safetyStatusFrame => true
  | .canBusOff c => decide (c < 2)
  | .canBusOffRecovery c => decide (c < 2)
  | .hello hd _ => hd.wf
  | .keepalive hd => hd.wf
  | .unknownFrameType ftype hd => hd.wf && decide (ftype < 256)
  | .crinoFrameCrcFail hd => hd.wf
  | .regRead hd _ => hd.wf
  | .regWrite hd _ => hd.wf
  | .hostKeepalive hd v => hd.wf && decide (v < 2 ^ 32)
  | .irqStatusClear hd v => hd.wf && decide (v < 2 ^ 32)
  | .ringDoorbell hd r v => hd.wf && decide (r < 4) && decide (v < 2 ^ 32)
  | .cmdCommit => true
  | .heavyPhaseHint => true
  | .replayFrameEnd => true
  | .cmdNop => true
  | .cmdReserved => true
  | .hostSilent link t => decide (link < 2) && decide (t < 2 ^ 64)
  | .usbDetach => true
  | .arpRequest p target => decide (p < 5) && decide (target.length = 4)
  | .neighbourSolicitation p target => decide (p < 5) && decide (target.length = 16)
  | .ethLinkChange p _ => decide (p < 5)
  | .attestRequest hd payload => hd.wf && decide (payload.length ≤ 2 ^ 31)
  | .attestReportSend => true
  | .logPop hd => hd.wf
  | .logDrainTransfer n => decide (1 ≤ n) && decide (n ≤ 512)
  | .comparatorMismatch k => decide (k < 6)
  | .pairRestart k cause pc _ _ => decide (k < 6) && decide (1 ≤ cause) && decide (cause ≤ 6) && decide (pc < 2 ^ 64)
  | .pairHeartbeat k => decide (k < 6)
  | .heartbeatMissed k => decide (k < 6)
  | .pairSplit k => decide (2 ≤ k) && decide (k < 6)
  | .pairRejoin k => decide (2 ≤ k) && decide (k < 6)
  | .debugHalt k => decide (k < 6)
  | .debugAccess k _ => decide (k < 6)
  | .fwActivateRequest => true
  | .fwActivateWithdraw => true
  | .activationBegin => true
  | .activationComplete => true
  | .garnetPlanWrite _ starts => starts.all (fun p => decide (p.2 < 64))
  | .schedulePlanExhausted => true
  | .powerEstimate mw _ => decide (mw < 2 ^ 32)
  | .fwLevelWrite l => decide (l ≤ 10)
  | .clockStep q => decide (q < 64)
  | .droopDetect q k => decide (q < 64) && decide (k < 65536)
  | .droopClear q => decide (q < 64)
  | .pllLockLost p => decide (p < 5)
  | .pllRelock p => decide (p < 5)
  | .coolingUpdate => true
  | .heavyPhaseRaise => true
  | .heavyPhaseEnd => true
  | .garnetWindowExpire q => decide (q < 64)
  | .diagnosticCycleEnd failed missed => failed.all (fun f => decide (f.1 < 8192) && decide (f.2 < 512)) && missed.all (fun m => decide (m < 512))
  | .testStep q item t _ => decide (q < 64) && decide (item < 29) && decide (t < 2 ^ 64)
  | .startupChecks fails => fails.all (fun f => decide (f.1 < 16) && decide (f.2.1 < 4096))
  | .guardPathMismatch prog => decide (prog < 2)
  | .plausibilityCompare => true
  | .suspectRemedy q => decide (q < 64)
  | .retest q beats _ => decide (q < 64) && decide (beats ≤ 40)
  | .extWdgPulse => true
  | .faultMessage msg master access _ => decide (msg < 2 ^ 64) && decide (master < 2 ^ 16) && decide (access < 2 ^ 64)
  | .faultAck hd => hd.wf
  | .feRelease hd => hd.wf
  | .stopAckTimeout e n units => decide (e < 256) && decide (n < 1024) && decide (units < 2 ^ 32)
  | .progressStalled e n => decide (e < 256) && decide (n < 1024)
  | .computeResetBegin => true
  | .computeResetDump _ _ => true
  | .computeResetAssert => true
  | .computeResetRelease fails beats => decide (beats ≤ 40) && fails.all (fun f => decide (f.1 < 64) && decide (f.2 < 2 ^ 32))
  | .resumption => true
  | .trainFlit p straps serial low high delay => decide (p < 3) && decide (straps < 16) && decide (serial < 2 ^ 32) && decide (low < 256) && decide (high < 256) && decide (delay < 2 ^ 16)
  | .form own master => decide (own < 2 ^ 64) && decide (master < 2 ^ 64)
  | .formation => true
  | .trainingTimeout step => decide (1 ≤ step) && decide (step ≤ 4)
  | .controlFlitReceived p ack m _ => decide (p < 3) && decide (ack < 2 ^ 16) && decide (m.length = 256)
  | .recordFlit p seq ack stream flags index payload _ => decide (p < 3) && decide (seq < 2 ^ 16) && decide (ack < 2 ^ 16) && decide (stream < 64) && decide (flags < 256) && decide (index < 2 ^ 16) && decide (payload.length = 256)
  | .managementFlit p seq ack _ => decide (p < 3) && decide (seq < 2 ^ 16) && decide (ack < 2 ^ 16)
  | .flitResend p n => decide (p < 3) && decide (n ≤ 8)
  | .jointStateChange => true
  | .arrivalSetComplete k outs => decide (k < 32) && outs.all (fun o => decide (o.1 < 4) && decide (o.2 < 64))
  | .jobAbort => true
  | .jobStretch _ => true
  | .partnerLost j => decide (j < 4)
  | .memberExpel => true
  | .jtagTestLogicReset => true
  | .jtagBypass => true
  | .jtagSample pins => decide (pins < 2 ^ 88)
  | .jtagPreload cells => decide (cells < 2 ^ 88)
  | .jtagExtest pins => decide (pins < 2 ^ 88)
  | .usbAttach speed => decide (1 ≤ speed) && decide (speed ≤ 4)
  | .debuggerConnect => true
  | .debugResume k => decide (k < 6)
  | .gptpAnnounceSend port _ => decide (port < 5)

end Sys2Proof
end

