-- ==== Sys2Proof/Config.lean ====
section
/-! DEFINITION. What the spec leaves open and an implementation fixes: opaque constants, so that no proof can see a value
of them. -/

namespace Sys2Proof.Config

/-- A value the spec leaves open, by the counter of State that the command advances (log 5). -/
opaque freeValue : Nat → Nat

/-- The expected CRC-32C of a Garnet result block, by set (0 to 15 the rotating kernels) and engine position, as section
0 of the firmware image holds it (15 R383, log 9). -/
opaque garnetCrc : Nat → Nat → Nat

/-- The digest in each fused key slot (13 R329): the spec gives no value of a module's fuses (log 2). -/
opaque fusedKey : Nat → Nat

/-- The public identity key that the boot ROM derives from the fused seed (13 R343), as a little-endian number (log 10). -/
opaque identityKey : Nat

/-- Whether ML-DSA-87 accepts a signature: public key, message, context string, signature (13 R328, FIPS 204; log 10). -/
opaque mldsaOk : List Byte → List Byte → List Byte → List Byte → Bool

/-- The signature of the device's attestation key over a report (13 R345, log 10). -/
opaque attestSign : List Byte → List Byte

end Sys2Proof.Config
end

