-- ==== Sys2Proof/Machine/Bits.lean ====
section
/-! DEFINITION. Bit fields, byte order, two's complement, rounding up and saturating counts: the helpers the meanings
use to read the spec's field maps (00 R7: bit 0 is least significant, multi-byte fields are little-endian). -/

namespace Sys2Proof.Machine

/-- Bits hi:lo of a number, as the spec's field maps write them. -/
def fld (n hi lo : Nat) : Nat := n / 2 ^ lo % 2 ^ (hi + 1 - lo)

/-- One bit of a number, as a Bool. -/
def bit (n i : Nat) : Bool := n.testBit i

/-- `n` with bits hi:lo replaced by `v`. -/
def setFld (n hi lo v : Nat) : Nat :=
  n / 2 ^ (hi + 1) * 2 ^ (hi + 1) + v % 2 ^ (hi + 1 - lo) * 2 ^ lo + n % 2 ^ lo

/-- A number whose bit `i` is set to `b`. -/
def setBit (n i : Nat) (b : Bool) : Nat :=
  if b then (if n.testBit i then n else n + 2 ^ i) else (if n.testBit i then n - 2 ^ i else n)

/-- The value of bytes held little-endian (00 R7). -/
def leNat : List Byte → Nat
  | [] => 0
  | b :: bs => b.toNat + 256 * leNat bs

/-- A number in `k` bytes, little-endian, its higher bits dropped. -/
def leBytes : Nat → Nat → List Byte
  | 0, _ => []
  | k + 1, n => BitVec.ofNat 8 n :: leBytes k (n / 256)

/-- The number held in `k` bytes at byte `off` of a message. -/
def leAt (bs : List Byte) (off k : Nat) : Nat := leNat ((bs.drop off).take k)

/-- The two's-complement reading of a `w`-bit number. -/
def sgn (w n : Nat) : Int :=
  let m := n % 2 ^ w
  if 2 ^ (w - 1) ≤ m then (m : Int) - 2 ^ w else m

/-- The `w`-bit two's-complement number of an integer. -/
def twos (w : Nat) (i : Int) : Nat := (i % (2 ^ w : Int)).toNat

/-- ⌈a / b⌉ (02 R38: "⌈x⌉ rounds x up to a whole number"). -/
def ceilDiv (a b : Nat) : Nat := (a + b - 1) / b

/-- A count that saturates at the top of its `w` bits. -/
def satAdd (w n k : Nat) : Nat := min (n + k) (2 ^ w - 1)

/-- Whether a number is a power of two. -/
def isPow2 (n : Nat) : Bool := n != 0 && 2 ^ Nat.log2 n == n

/-- The numbers whose bits are set in a mask of `w` bits, ascending. -/
def maskList (w m : Nat) : List Nat := (List.range w).filter (m.testBit ·)

/-- How many bits of a `w`-bit mask are set. -/
def popCount (w m : Nat) : Nat := (maskList w m).length

/-- An integer clamped to lo … hi. -/
def clampInt (lo hi x : Int) : Int := if x < lo then lo else if hi < x then hi else x

/-- A number as a Bool field reads it. -/
def b2n (b : Bool) : Nat := if b then 1 else 0

/-- The bytes of an ASCII text, padded to `k` bytes with spaces (CiA 1301 VISIBLE_STRING as 12 R294 gives it). -/
def textBytes (k : Nat) (t : List Nat) : List Byte :=
  ((t ++ List.replicate k 32).take k).map (BitVec.ofNat 8)

/-- The element of a list at a place, or a default beyond its end. -/
def nth {α : Type} (d : α) (l : List α) (i : Nat) : α := (l[i]?).getD d

/-- A list with the element at a place replaced. -/
def setNth {α : Type} (l : List α) (i : Nat) (v : α) : List α := l.set i v

end Sys2Proof.Machine
end

