-- ==== Sys2Proof/Machine/FaultTable.lean ====
section
/-! DEFINITION. The fault sources of 16 R411 and 17 R455: code, KIND, default SEVERITY, default LASTING_SEVERITY and
the minimum. Every code not listed is reserved. -/

namespace Sys2Proof.Machine

/-- 16 R411, 17 R455: source code, KIND, SEVERITY, LASTING_SEVERITY, MIN_SEVERITY. -/
def faultRows : List (Nat × Nat × Nat × Nat × Nat) := [
  (0x001, 0x7, 0, 0, 0),  -- Collector test message (R390); Source under test; 0
  (0x010, 0x2, 2, 2, 2),  -- Garnet kernel mismatch; Quad; rotating kernel
  (0x011, 0x2, 3, 3, 3),  -- Garnet checker fault; Quad; 0
  (0x012, 0x2, 0, 2, 0),  -- Array checksum mismatch; Engine; bit 0 the half
  (0x013, 0x2, 0, 2, 0),  -- Duplicate mismatch; Engine; partner engine
  (0x014, 0x2, 3, 3, 3),  -- Checker self-test failed; Guarded unit; the guarded source
  (0x015, 0x6, 2, 2, 2),  -- Diagnostic starved; 0; the checker's source
  (0x016, 0x0, 2, 2, 2),  -- Quad removed; Quad; the causing source
  (0x018, 0x5, 0, 1, 0),  -- Engine program refused; Engine; 31:8 context, 7:0 refusal code
  (0x019, 0x6, 1, 2, 0),  -- Slice budget overrun (R48); Context; engine
  (0x01A, 0x6, 1, 2, 0),  -- Deadline missed; Context; beats late
  (0x01B, 0x6, 1, 2, 0),  -- Slice overran period (R416); Context; 0
  (0x01C, 0x4, 1, 2, 0),  -- Engine progress stalled (R417); Engine; context
  (0x01D, 0x4, 4, 4, 4),  -- Engine hung (R417); Engine; bit 0 sequencer, 1 array, 2 vector engine, 3 DMA unit
  (0x01E, 0x6, 1, 1, 0),  -- Semaphore overflow; Die x 4,096 + index; engine
  (0x01F, 0x4, 2, 2, 2),  -- Quad clock did not open (R47); Quad; 0
  (0x020, 0x6, 1, 2, 0),  -- Droop beyond allowance; Quad; eighths stretched in the beat
  (0x021, 0x6, 0, 1, 0),  -- Line-buffer ring overrun; Engine; stream
  (0x022, 0x5, 1, 1, 0),  -- Compressed block malformed; Engine; scratchpad byte address
  (0x023, 0x4, 4, 4, 4),  -- Data network stalled; Die; router 0 to 31
  (0x024, 0x2, 4, 4, 4),  -- Synchronisation network fault; Die; object index
  (0x025, 0x3, 4, 4, 4),  -- Die-to-die link fault; Die; lane
  (0x026, 0x4, 4, 4, 4),  -- Clock lost lock (R353); Die; 0 main PLL, 1 channel PLL
  (0x030, 0x3, 1, 2, 0),  -- SRAM uncorrectable; Store; byte address of the 64-bit word within the store, a multiple of 8
  (0x040, 0x1, 0, 1, 0),  -- Memory correctable; Channel; offset o of R163
  (0x041, 0x3, 1, 2, 0),  -- Memory uncorrectable; Channel; offset o
  (0x042, 0x5, 1, 2, 0),  -- Memory channel protocol; Channel; burst address
  (0x043, 0x2, 2, 2, 2),  -- Memory calibration failed; Channel; 0
  (0x044, 0x6, 1, 1, 0),  -- Memory scrub starved; Channel; SCRUB_PTR
  (0x050, 0x6, 0, 1, 0),  -- Temporal list late; Slot; context
  (0x060, 0x4, 1, 1, 0),  -- Sensor silent; Stream; FRAME_COUNTER
  (0x061, 0x0, 0, 1, 0),  -- Ingest record concealed; Stream; 31:16 record number, 7:0 reason
  (0x062, 0x5, 1, 1, 0),  -- Codestream outside subset; Stream; FRAME_COUNTER
  (0x063, 0x5, 1, 1, 0),  -- Ingest target mismatch; Stream; target k
  (0x070, 0x5, 1, 1, 0),  -- Result source unresolved; Output stream; SEQ
  (0x071, 0x6, 1, 2, 0),  -- Output age exceeded; Output stream; SEQ
  (0x072, 0x4, 1, 2, 0),  -- Output stale; Output stream; SEQ
  (0x073, 0x0, 3, 3, 3),  -- Safety context shed (R54); Context; 0
  (0x074, 0x2, 3, 3, 3),  -- Guard plausibility; Output stream; SEQ
  (0x080, 0x2, 2, 3, 2),  -- Guard path mismatch; 0 corridor, 1 camera program; beat bits 31:0
  (0x081, 0x2, 2, 3, 2),  -- Hub path mismatch; Hub unit; lane
  (0x082, 0x4, 5, 5, 5),  -- Hub unit hung; Hub unit; 0
  (0x083, 0x4, 5, 5, 5),  -- Hub PLL lost lock; 0; 0
  (0x090, 0x6, 1, 1, 0),  -- Network time step refused; Port; 0
  (0x091, 0x4, 1, 1, 0),  -- Network time lost; Port; 0
  (0x092, 0x6, 0, 1, 0),  -- Input event rate exceeded; Input; 0
  (0x093, 0x4, 1, 1, 0),  -- Input stuck active; Input; 0
  (0x094, 0x6, 1, 1, 0),  -- Monitor input out of range; AIN number; code
  (0x095, 0x0, 2, 2, 2),  -- Partner error (ERR_IN_N); 0; 0
  (0x0A0, 0x6, 2, 2, 2),  -- Coolant inlet over limit; 0; code
  (0x0A1, 0x6, 2, 2, 2),  -- Coolant flow low; 0; code
  (0x0A2, 0x6, 5, 5, 5),  -- Junction trip; Sensor; 0
  (0x0A3, 0x4, 5, 5, 5),  -- Power hold expired; 0; 0
  (0x0B0, 0x5, 1, 1, 0),  -- CAN FD bus off; Controller; 0
  (0x0B1, 0x5, 2, 2, 2),  -- Node-ID strap invalid; 0; strap value
  (0x0B2, 0x4, 0, 1, 0),  -- Host silent; 0 USB, 1 UDP; 0
  (0x0C0, 0x4, 1, 2, 0),  -- Control pair heartbeat missed (R418); Pair; 0
  (0x0C1, 0x2, 1, 2, 0),  -- Control pair comparator mismatch; Pair; 0
  (0x0C2, 0x5, 1, 2, 0),  -- Control pair fatal trap; Pair; PC bits 31:0
  (0x0C3, 0x3, 1, 2, 0),  -- Control pair uncorrectable; Pair; byte address of the 64-bit word, a multiple of 8
  (0x0C4, 0x6, 3, 3, 3),  -- Control pair held in reset; Pair; 0
  (0x0C5, 0x0, 2, 2, 2),  -- Control core halted by debug; Pair; 0
  (0x0E0, 0x6, 5, 5, 5),  -- Compute reset limit (R424); 0; the causing source
  (0x0E1, 0x6, 5, 5, 5),  -- Schedule plan exhausted (R335); 0; 0
  (0x0F0, 0x5, 2, 2, 2),  -- Cascade strap invalid; 0; strap value
  (0x0F1, 0x4, 2, 2, 2),  -- Cascade training failed; Port; training step
  (0x0F2, 0x1, 0, 1, 0),  -- Cascade link retry; Port; flits resent
  (0x0F3, 0x6, 1, 2, 0),  -- Cascade record late; Port; sender's stream
  (0x0F4, 0x4, 2, 2, 2),  -- Cascade member lost; Member; 0 silence, 1 expelled, 2 left in SAFE
  (0x0F5, 0x4, 3, 3, 3),  -- Cascade master lost; 0; 0 silence, 1 expelled, 2 SAFE, 3 time mismatch
  (0x0F6, 0x2, 3, 3, 3)  -- Cascade time mismatch; Member; beat difference
  ]

/-- Whether a source code is listed. -/
def faultListed (s : Nat) : Bool := faultRows.any (fun r => r.1 == s)

/-- The KIND of a source. -/
def faultKind (s : Nat) : Nat := ((faultRows.find? (fun r => r.1 == s)).map (fun r => r.2.1)).getD 0

/-- The 512 bytes of a severity table as a number: byte s for source s. -/
def sevTable (col : Nat × Nat × Nat × Nat × Nat → Nat) : Nat :=
  faultRows.foldl (fun n r => n + col r * 2 ^ (8 * r.1)) 0

/-- Default SEVERITY (0x2401:01). -/
def sevDefault : Nat := sevTable (fun r => r.2.2.1)

/-- Default LASTING_SEVERITY (0x2401:02). -/
def lastingDefault : Nat := sevTable (fun r => r.2.2.2.1)

/-- MIN_SEVERITY (0x2401:03). -/
def sevMinimum : Nat := sevTable (fun r => r.2.2.2.2)

end Sys2Proof.Machine
end

