-- ==== Sys2Proof/Machine/ObjTable.lean ====
section
/-! DEFINITION. The object dictionary's tables (one row per row of the spec's object tables): index range, sub-index
range, bytes, access right, default. A row reads: first index, how many indices, first sub-index, how many
sub-indices, bytes, access (0 RO, 1 RW, 2 RW in CONFIG, 3 WO, 4 WO in CONFIG, 5 CONST), default kind (0 the literal,
else a value that ObjDict.lean computes from the grade, the fuses or another rule), literal, BOOLEAN. -/

namespace Sys2Proof.Machine

/-- One row of an object table. -/
abbrev ObjRow := Nat × Nat × Nat × Nat × Nat × Nat × Nat × Nat × Bool

/-- R306. -/
def obj1000 : List ObjRow := [
  (0x1000, 1, 0x0, 1, 4, 5, 0, 0x0, false)  -- DEVICE_TYPE
  ]

/-- R306. -/
def obj1001 : List ObjRow := [
  (0x1001, 1, 0x0, 1, 1, 0, 0, 0x0, false)  -- ERROR_REGISTER
  ]

/-- R306. -/
def obj1008 : List ObjRow := [
  (0x1008, 1, 0x0, 1, 17, 5, 11, 0x0, false)  -- DEVICE_NAME
  ]

/-- R306. -/
def obj1009 : List ObjRow := [
  (0x1009, 1, 0x0, 1, 2, 5, 0, 0x3041, false)  -- HW_VERSION
  ]

/-- R306. -/
def obj100A : List ObjRow := [
  (0x100a, 1, 0x0, 1, 16, 0, 12, 0x0, false)  -- SW_VERSION
  ]

/-- R306. -/
def obj1017 : List ObjRow := [
  (0x1017, 1, 0x0, 1, 2, 1, 0, 0x14, false)  -- PRODUCER_HEARTBEAT_TIME
  ]

/-- R5. -/
def obj1018 : List ObjRow := [
  (0x1018, 1, 0x0, 1, 1, 5, 0, 0x4, false),  -- Highest sub-index
  (0x1018, 1, 0x1, 1, 4, 5, 0, 0xb7d, false),  -- Vendor identifier
  (0x1018, 1, 0x2, 1, 4, 5, 7, 0x0, false),  -- Product code
  (0x1018, 1, 0x3, 1, 4, 5, 0, 0x10000, false),  -- Revision number
  (0x1018, 1, 0x4, 1, 4, 5, 8, 0x0, false)  -- Serial number
  ]

/-- R19. -/
def obj2000 : List ObjRow := [
  (0x2000, 1, 0x0, 1, 1, 5, 0, 0x4, false),  -- Highest sub-index
  (0x2000, 1, 0x1, 1, 1, 0, 0, 0x1, false),  -- DEVICE_STATE
  (0x2000, 1, 0x2, 1, 1, 1, 0, 0x2, false),  -- REQUESTED_STATE
  (0x2000, 1, 0x3, 1, 1, 0, 0, 0x0, false),  -- PREVIOUS_STATE
  (0x2000, 1, 0x4, 1, 2, 0, 0, 0x1, false)  -- LAST_CAUSE
  ]

/-- R300. -/
def obj2001 : List ObjRow := [
  (0x2001, 1, 0x0, 1, 1, 5, 0, 0x5, false),  -- Highest sub-index
  (0x2001, 1, 0x1, 1, 1, 3, 0, 0x0, false),  -- COMMIT
  (0x2001, 1, 0x2, 1, 2, 0, 0, 0x0, false),  -- STAGE_WRITES
  (0x2001, 1, 0x3, 1, 4, 0, 0, 0x0, false),  -- STAGE_BYTES
  (0x2001, 1, 0x4, 1, 8, 0, 0, 0x0, false),  -- LAST_COMMIT_BEAT
  (0x2001, 1, 0x5, 1, 4, 0, 0, 0x0, false)  -- COMMITS_REFUSED
  ]

/-- R304. -/
def obj2002 : List ObjRow := [
  (0x2002, 1, 0x0, 1, 1, 5, 0, 0x3, false),  -- Highest sub-index
  (0x2002, 1, 0x1, 1, 4, 0, 0, 0x0, false),  -- CONFIG_GENERATION
  (0x2002, 1, 0x2, 1, 16, 0, 0, 0x0, false),  -- CONFIG_DIGEST
  (0x2002, 1, 0x3, 1, 1, 5, 0, 0x1, false)  -- DIGEST_VERSION
  ]

/-- R19. -/
def obj2003 : List ObjRow := [
  (0x2003, 1, 0x0, 1, 1, 5, 0, 0x1, false),  -- Highest sub-index
  (0x2003, 1, 0x1, 1, 1, 1, 0, 0x0, true)  -- VEHICLE_STATIONARY
  ]

/-- R55. -/
def obj2010 : List ObjRow := [
  (0x2010, 1, 0x0, 1, 1, 5, 0, 0x4, false),  -- Highest sub-index
  (0x2010, 1, 0x1, 1, 4, 0, 0, 0x0, false),  -- ADMISSION_GENERATION
  (0x2010, 1, 0x2, 1, 1, 0, 0, 0x0, true),  -- ADMISSION_BUSY
  (0x2010, 1, 0x3, 1, 1, 0, 0, 0x0, false),  -- LAST_RECOMPUTE_CAUSE
  (0x2010, 1, 0x4, 1, 4, 0, 0, 0x0, false)  -- SHED_COUNT
  ]

/-- R279. -/
def obj2100 : List ObjRow := [
  (0x2100, 1, 0x0, 1, 1, 5, 0, 0xd, false),  -- Highest sub-index
  (0x2100, 1, 0x1, 1, 8, 0, 0, 0x0, false),  -- DEVICE_TIME_NS
  (0x2100, 1, 0x2, 1, 8, 0, 0, 0x0, false),  -- BEAT
  (0x2100, 1, 0x3, 1, 1, 0, 0, 0x0, false),  -- SYNC_STATE
  (0x2100, 1, 0x4, 1, 4, 0, 0, 0x0, false),  -- MAP_GENERATION
  (0x2100, 1, 0x5, 1, 8, 0, 0, 0x0, false),  -- MAP_DEVICE_TIME
  (0x2100, 1, 0x6, 1, 8, 0, 0, 0x0, false),  -- MAP_NET_TIME
  (0x2100, 1, 0x7, 1, 4, 0, 0, 0x0, false),  -- MAP_RATE
  (0x2100, 1, 0x8, 1, 4, 0, 0, 0x0, false),  -- LAST_OFFSET_NS
  (0x2100, 1, 0x9, 1, 1, 4, 0, 0x0, true),  -- MAP_RESET
  (0x2100, 1, 0xa, 1, 4, 2, 0, 0x5f5e100, false),  -- SENSOR_TIME_WINDOW_NS
  (0x2100, 1, 0xb, 1, 4, 0, 0, 0x0, false),  -- TIME_REJECTED
  (0x2100, 1, 0xc, 1, 4, 0, 0, 0x0, false),  -- PPS_OFFSET_NS
  (0x2100, 1, 0xd, 1, 2, 2, 0, 0x3c, false)  -- HOLDOVER_LIMIT_S
  ]

/-- R279. -/
def obj2101 : List ObjRow := [
  (0x2101, 1, 0x0, 1, 1, 5, 0, 0xa, false),  -- Highest sub-index
  (0x2101, 1, 0x1, 1, 1, 2, 0, 0x1, false),  -- GPTP_VERSION
  (0x2101, 1, 0x2, 1, 1, 2, 0, 0x0, false),  -- PTP_ROLE
  (0x2101, 1, 0x3, 1, 1, 2, 0, 0x0, false),  -- SLAVE_PORT
  (0x2101, 1, 0x4, 1, 1, 2, 0, 0x0, false),  -- MASTER_PORTS
  (0x2101, 1, 0x5, 1, 1, 2, 0, 0xfd, false),  -- LOG_SYNC_INTERVAL
  (0x2101, 1, 0x6, 1, 1, 2, 0, 0x0, false),  -- PDELAY_MODE
  (0x2101, 1, 0x7, 1, 4, 2, 0, 0x0, false),  -- NEIGHBOR_DELAY_NS
  (0x2101, 1, 0x8, 1, 8, 2, 0, 0x0, false),  -- GM_OFFSET_NS
  (0x2101, 1, 0x9, 1, 4, 0, 0, 0x0, false),  -- SYNCS_ACCEPTED
  (0x2101, 1, 0xa, 1, 4, 0, 0, 0x0, false)  -- SYNCS_REJECTED
  ]

/-- R279. -/
def obj2102 : List ObjRow := [
  (0x2102, 1, 0x0, 1, 1, 5, 0, 0x4, false),  -- Highest sub-index
  (0x2102, 1, 0x1, 1, 1, 2, 0, 0x0, true),  -- PPS_IN_USE
  (0x2102, 1, 0x2, 1, 8, 3, 0, 0x0, false),  -- PPS_SECONDS
  (0x2102, 1, 0x3, 1, 1, 2, 0, 0x0, true),  -- PPS_OUT_ENABLE
  (0x2102, 1, 0x4, 1, 4, 2, 0, 0x5f5e100, false)  -- PPS_OUT_WIDTH_NS
  ]

/-- R282. -/
def obj2120 : List ObjRow := [
  (0x2120, 32, 0x0, 1, 1, 5, 0, 0xa, false),  -- Highest sub-index
  (0x2120, 32, 0x1, 1, 1, 2, 0, 0x1, false),  -- TRIG_VERSION
  (0x2120, 32, 0x2, 1, 1, 2, 0, 0x0, true),  -- ENABLE
  (0x2120, 32, 0x3, 1, 1, 2, 0, 0x0, false),  -- TIMEBASE
  (0x2120, 32, 0x4, 1, 4, 2, 0, 0x1fca055, false),  -- PERIOD_NS
  (0x2120, 32, 0x5, 1, 2, 2, 0, 0x5555, false),  -- PERIOD_FRAC
  (0x2120, 32, 0x6, 1, 8, 2, 0, 0x0, false),  -- PHASE_NS
  (0x2120, 32, 0x7, 1, 4, 2, 0, 0x2710, false),  -- WIDTH_NS
  (0x2120, 32, 0x8, 1, 1, 2, 0, 0x0, false),  -- POLARITY
  (0x2120, 32, 0x9, 1, 8, 0, 0, 0x0, false),  -- EDGES
  (0x2120, 32, 0xa, 1, 8, 0, 0, 0x0, false)  -- LAST_EDGE_TIME
  ]

/-- R287. -/
def obj2140 : List ObjRow := [
  (0x2140, 20, 0x0, 1, 1, 5, 0, 0x16, false),  -- Highest sub-index
  (0x2140, 20, 0x1, 1, 1, 2, 0, 0x1, false),  -- IN_VERSION
  (0x2140, 20, 0x2, 1, 1, 2, 0, 0x0, true),  -- ENABLE
  (0x2140, 20, 0x3, 1, 1, 2, 5, 0x0, true),  -- ACTIVE_LOW
  (0x2140, 20, 0x4, 1, 1, 2, 5, 0x0, false),  -- FILTER_SAMPLES
  (0x2140, 20, 0x5, 1, 4, 2, 5, 0x0, false),  -- MIN_INTERVAL_NS
  (0x2140, 20, 0x6, 1, 4, 2, 5, 0x0, false),  -- STUCK_MS
  (0x2140, 20, 0x7, 1, 1, 2, 0, 0x0, false),  -- EDGE
  (0x2140, 20, 0x8, 1, 1, 2, 0, 0x0, false),  -- ROLE
  (0x2140, 20, 0x10, 1, 4, 0, 0, 0x0, false),  -- EVENTS
  (0x2140, 20, 0x11, 1, 4, 0, 0, 0x0, false),  -- DROPPED
  (0x2140, 20, 0x12, 1, 4, 0, 0, 0x0, false),  -- GLITCHES
  (0x2140, 20, 0x13, 1, 4, 0, 0, 0x0, false),  -- STUCK_FAULTS
  (0x2140, 20, 0x14, 1, 1, 0, 0, 0x0, true),  -- LEVEL
  (0x2140, 20, 0x15, 1, 8, 0, 0, 0x0, false),  -- LAST_TIME
  (0x2140, 20, 0x16, 1, 8, 0, 0, 0x0, false)  -- CAP_FIFO_POP
  ]

/-- R376. -/
def obj2200 : List ObjRow := [
  (0x2200, 1, 0x0, 1, 1, 5, 0, 0xe, false),  -- Highest sub-index
  (0x2200, 1, 0x1, 1, 1, 5, 0, 0x1, false),  -- PWR_VERSION
  (0x2200, 1, 0x2, 1, 2, 1, 19, 0x0, false),  -- POWER_CAP_W
  (0x2200, 1, 0x3, 1, 2, 5, 20, 0x0, false),  -- MAX_SUSTAINED_W
  (0x2200, 1, 0x4, 1, 1, 2, 0, 0x24, false),  -- PROTECT_ORDER
  (0x2200, 1, 0x5, 1, 4, 0, 0, 0x0, false),  -- P_EST_MW
  (0x2200, 1, 0x6, 1, 4, 0, 21, 0x0, false),  -- BUDGET_UJ
  (0x2200, 1, 0x7, 1, 4, 0, 21, 0x0, false),  -- BUDGET_MAX_UJ
  (0x2200, 1, 0x8, 1, 1, 0, 0, 0x0, false),  -- LEVEL
  (0x2200, 1, 0x9, 1, 1, 0, 0, 0x0, false),  -- HW_LEVEL
  (0x2200, 1, 0xa, 1, 1, 0, 0, 0x0, false),  -- FW_LEVEL
  (0x2200, 1, 0xb, 1, 8, 0, 0, 0x0, false),  -- ENERGY_MJ
  (0x2200, 1, 0xc, 1, 4, 0, 0, 0x0, false),  -- POWER_EMERGENCIES
  (0x2200, 1, 0xd, 1, 4, 0, 0, 0x0, false),  -- HINTS_ACCEPTED
  (0x2200, 1, 0xe, 1, 4, 0, 0, 0x0, false)  -- HINTS_DISCARDED
  ]

/-- R376. -/
def obj2202 : List ObjRow := [
  (0x2202, 1, 0x0, 1, 1, 5, 0, 0x5, false),  -- Highest sub-index
  (0x2202, 1, 0x1, 1, 1, 5, 0, 0x1, false),  -- CLK_VERSION
  (0x2202, 1, 0x2, 1, 1, 2, 0, 0x1e, false),  -- DROOP_MARGIN_MV
  (0x2202, 1, 0x3, 1, 1, 5, 0, 0x40, false),  -- STRETCH_CREDIT_MAX
  (0x2202, 1, 0x4, 1, 4, 0, 0, 0x0, false),  -- PLL_RELOCKS
  (0x2202, 1, 0x5, 1, 4, 0, 0, 0x0, false)  -- PLL_LOCK_LOSSES
  ]

/-- R376. -/
def obj2210 : List ObjRow := [
  (0x2210, 1, 0x0, 1, 1, 5, 0, 0xb, false),  -- Highest sub-index
  (0x2210, 1, 0x1, 1, 1, 5, 0, 0x1, false),  -- THERM_VERSION
  (0x2210, 1, 0x2, 1, 1, 2, 0, 0x64, false),  -- T_THROTTLE_C
  (0x2210, 1, 0x3, 1, 1, 2, 0, 0x6e, false),  -- T_EMERGENCY_C
  (0x2210, 1, 0x4, 1, 1, 5, 0, 0x73, false),  -- T_TRIP_C
  (0x2210, 1, 0x5, 1, 4, 0, 0, 0x0, false),  -- T_HOTTEST_C
  (0x2210, 1, 0x6, 1, 1, 0, 0, 0xff, false),  -- HOTTEST_SENSOR
  (0x2210, 1, 0x7, 1, 1, 0, 0, 0x0, false),  -- THERMAL_LEVEL
  (0x2210, 1, 0x8, 1, 4, 0, 0, 0x0, false),  -- THERMAL_EMERGENCIES
  (0x2210, 1, 0x9, 1, 4, 5, 0, 0x428c0000, false),  -- INLET_LIMIT_C
  (0x2210, 1, 0xa, 1, 4, 2, 0, 0x0, false),  -- FLOW_MIN
  (0x2210, 1, 0xb, 1, 1, 0, 0, 0x0, false)  -- EMERGENCY_CAUSE
  ]

/-- R376. -/
def obj2220 : List ObjRow := [
  (0x2220, 1, 0x0, 1, 1, 5, 0, 0xa, false),  -- Highest sub-index
  (0x2220, 1, 0x1, 1, 1, 2, 0, 0x1, false),  -- COOL_VERSION
  (0x2220, 1, 0x2, 1, 1, 2, 0, 0x0, true),  -- COOL_ENABLE
  (0x2220, 1, 0x3, 1, 2, 2, 0, 0x100, false),  -- PUMP_MIN_DUTY
  (0x2220, 1, 0x4, 1, 1, 2, 0, 0x28, false),  -- PUMP_T0_C
  (0x2220, 1, 0x5, 1, 2, 2, 0, 0x10, false),  -- PUMP_SLOPE
  (0x2220, 1, 0x6, 1, 2, 2, 0, 0x0, false),  -- VALVE_MIN_DUTY
  (0x2220, 1, 0x7, 1, 1, 2, 0, 0x1e, false),  -- VALVE_T0_C
  (0x2220, 1, 0x8, 1, 2, 2, 0, 0x20, false),  -- VALVE_SLOPE
  (0x2220, 1, 0x9, 1, 2, 2, 0, 0x0, false),  -- LULL_PUMP_DUTY
  (0x2220, 1, 0xa, 1, 1, 0, 0, 0x1, true)  -- COOL_FORCED
  ]

/-- R376. -/
def obj2230 : List ObjRow := [
  (0x2230, 1, 0x0, 1, 1, 5, 0, 0x4, false),  -- Highest sub-index
  (0x2230, 1, 0x1, 1, 1, 5, 0, 0x1, false),  -- HOLD_VERSION
  (0x2230, 1, 0x2, 1, 1, 0, 0, 0x0, true),  -- HOLD_ACTIVE
  (0x2230, 1, 0x3, 1, 4, 0, 0, 0x0, false),  -- HOLD_EVENTS
  (0x2230, 1, 0x4, 1, 8, 0, 0, 0x0, false)  -- LAST_HOLD_TIME
  ]

/-- R291. -/
def obj2280 : List ObjRow := [
  (0x2280, 8, 0x0, 1, 1, 5, 0, 0xc, false),  -- Highest sub-index
  (0x2280, 8, 0x1, 1, 1, 2, 0, 0x1, false),  -- ADC_VERSION
  (0x2280, 8, 0x2, 1, 1, 2, 0, 0xff, false),  -- KIND
  (0x2280, 8, 0x3, 1, 4, 2, 0, 0x0, false),  -- GAIN
  (0x2280, 8, 0x4, 1, 4, 2, 0, 0x0, false),  -- OFFSET
  (0x2280, 8, 0x5, 1, 128, 2, 0, 0x0, false),  -- TABLE
  (0x2280, 8, 0x6, 1, 2, 2, 0, 0x10, false),  -- CODE_MIN
  (0x2280, 8, 0x7, 1, 2, 2, 0, 0xfef, false),  -- CODE_MAX
  (0x2280, 8, 0x8, 1, 2, 0, 0, 0x0, false),  -- RAW_CODE
  (0x2280, 8, 0x9, 1, 2, 0, 0, 0x0, false),  -- MEAN_CODE
  (0x2280, 8, 0xa, 1, 4, 0, 0, 0x7fc00000, false),  -- VALUE
  (0x2280, 8, 0xb, 1, 4, 0, 0, 0x0, false),  -- OUT_OF_RANGE
  (0x2280, 8, 0xc, 1, 2, 2, 0, 0x0, false)  -- NET_LOW_CODE
  ]

/-- R293. -/
def obj2290 : List ObjRow := [
  (0x2290, 2, 0x0, 1, 1, 5, 0, 0x4, false),  -- Highest sub-index
  (0x2290, 2, 0x1, 1, 1, 2, 0, 0x1, false),  -- PWM_VERSION
  (0x2290, 2, 0x2, 1, 2, 2, 0, 0x3e8, false),  -- FREQ_HZ
  (0x2290, 2, 0x3, 1, 2, 0, 0, 0x400, false),  -- DUTY
  (0x2290, 2, 0x4, 1, 8, 0, 0, 0x0, false)  -- PERIODS
  ]

/-- R404. -/
def obj2300 : List ObjRow := [
  (0x2300, 1, 0x0, 1, 1, 5, 0, 0xb, false),  -- Highest sub-index
  (0x2300, 1, 0x1, 1, 1, 5, 0, 0x1, false),  -- DIAG_VERSION
  (0x2300, 1, 0x2, 1, 8, 0, 0, 0x0, false),  -- DIAG_CYCLE
  (0x2300, 1, 0x3, 1, 1, 0, 0, 0x0, true),  -- LAST_CYCLE_COVERED
  (0x2300, 1, 0x4, 1, 4, 0, 0, 0x0, false),  -- STARVED_CYCLES
  (0x2300, 1, 0x5, 1, 1, 0, 0, 0x0, false),  -- STARTUP_STATUS
  (0x2300, 1, 0x6, 1, 2, 0, 0, 0x0, false),  -- STARTUP_FAILED_CHECK
  (0x2300, 1, 0x7, 1, 1, 0, 0, 0x0, false),  -- SAFE_OK_STATE
  (0x2300, 1, 0x8, 1, 2, 0, 0, 0x1, false),  -- SAFE_OK_STOP_CAUSE
  (0x2300, 1, 0x9, 1, 2, 2, 0, 0x1388, false),  -- EXT_WDG_PERIOD_BEATS
  (0x2300, 1, 0xa, 1, 4, 0, 0, 0x0, false),  -- EXT_WDG_MISSED
  (0x2300, 1, 0xb, 1, 256, 2, 0, 0x0, false)  -- MIN_CHECK_LEVEL
  ]

/-- R405. -/
def obj2320 : List ObjRow := [
  (0x2320, 1, 0x0, 1, 1, 5, 0, 0xa, false),  -- Highest sub-index
  (0x2320, 1, 0x1, 1, 1, 2, 0, 0x1, false),  -- GUARD_VERSION
  (0x2320, 1, 0x2, 1, 4, 2, 0, 0x0, false),  -- GUARD_STREAMS
  (0x2320, 1, 0x3, 1, 2, 2, 0, 0x14, false),  -- Z_MIN_CM
  (0x2320, 1, 0x4, 1, 2, 2, 0, 0x15e, false),  -- Z_MAX_CM
  (0x2320, 1, 0x5, 1, 4, 2, 0, 0xc350, false),  -- GUARD_WINDOW_BEATS
  (0x2320, 1, 0x6, 1, 1, 2, 0, 0x4, false),  -- CAM_DARK_LIMIT
  (0x2320, 1, 0x7, 1, 1, 2, 0, 0xfb, false),  -- CAM_BRIGHT_LIMIT
  (0x2320, 1, 0x8, 1, 1, 2, 0, 0x3, false),  -- CAM_STALE_FRAMES
  (0x2320, 1, 0x9, 1, 4, 0, 0, 0x0, false),  -- POINTS_DROPPED
  (0x2320, 1, 0xa, 1, 4, 0, 0, 0x0, false)  -- GUARD_MISMATCHES
  ]

/-- R405. -/
def obj2330 : List ObjRow := [
  (0x2330, 1, 0x0, 1, 1, 5, 0, 0xc, false),  -- Highest sub-index
  (0x2330, 1, 0x1, 1, 1, 2, 0, 0x0, true),  -- PLAUS_ENABLE
  (0x2330, 1, 0x2, 1, 1, 2, 0, 0xff, false),  -- PLAUS_STREAM
  (0x2330, 1, 0x3, 1, 4, 2, 0, 0x0, false),  -- CORRIDOR_OFFSET
  (0x2330, 1, 0x4, 1, 2, 2, 0, 0x32, false),  -- TOL_CM
  (0x2330, 1, 0x5, 1, 2, 2, 0, 0x64, false),  -- TOL_PERMILLE
  (0x2330, 1, 0x6, 1, 1, 2, 0, 0x2, false),  -- MAX_BINS
  (0x2330, 1, 0x7, 1, 1, 2, 0, 0x3, false),  -- CONSEC
  (0x2330, 1, 0x8, 1, 4, 2, 0, 0x5f5e100, false),  -- PAIR_WINDOW_NS
  (0x2330, 1, 0x9, 1, 8, 0, 0, 0x0, false),  -- COMPARISONS
  (0x2330, 1, 0xa, 1, 4, 0, 0, 0x0, false),  -- DISAGREEMENTS
  (0x2330, 1, 0xb, 1, 4, 0, 0, 0x0, false),  -- UNPAIRED
  (0x2330, 1, 0xc, 1, 8, 0, 0, 0x0, false)  -- CONSERVATIVE_BINS
  ]

/-- R405. -/
def obj2340 : List ObjRow := [
  (0x2340, 16, 0x0, 1, 1, 5, 0, 0x2, false),  -- Highest sub-index
  (0x2340, 16, 0x1, 1, 36, 2, 4, 0x0, false),  -- ROT
  (0x2340, 16, 0x2, 1, 12, 2, 0, 0x0, false)  -- TRANS
  ]

/-- R310. -/
def obj2390 : List ObjRow := [
  (0x2390, 1, 0x0, 1, 1, 5, 0, 0x4, false),  -- Highest sub-index
  (0x2390, 1, 0x1, 1, 1, 2, 0, 0x1, true),  -- SSF_ENABLE
  (0x2390, 1, 0x2, 1, 2, 2, 13, 0x0, false),  -- SSF_COBID
  (0x2390, 1, 0x3, 1, 2, 2, 0, 0x9c4, false),  -- SSF_PERIOD_BEATS
  (0x2390, 1, 0x4, 1, 4, 0, 0, 0x0, false)  -- SSF_SENT
  ]

/-- R427. -/
def obj2400 : List ObjRow := [
  (0x2400, 1, 0x0, 1, 1, 5, 0, 0xa, false),  -- Highest sub-index
  (0x2400, 1, 0x1, 1, 1, 5, 0, 0x1, false),  -- FAULT_VERSION
  (0x2400, 1, 0x2, 1, 1, 2, 0, 0x4, false),  -- TRANSIENT_COUNT
  (0x2400, 1, 0x3, 1, 4, 2, 0, 0x400, false),  -- TRANSIENT_WINDOW_BEATS
  (0x2400, 1, 0x4, 1, 8, 0, 0, 0x0, false),  -- FAULTS_RAISED
  (0x2400, 1, 0x5, 1, 4, 0, 0, 0x0, false),  -- MESSAGES_LOST
  (0x2400, 1, 0x6, 1, 4, 0, 0, 0x0, false),  -- WINDOW_OVERFLOWS
  (0x2400, 1, 0x7, 1, 2, 0, 0, 0x0, false),  -- LATCHED_COUNT
  (0x2400, 1, 0x8, 1, 2, 0, 0, 0xffff, false),  -- FAULT_ACK
  (0x2400, 1, 0x9, 1, 1, 0, 0, 0x0, false),  -- HIGHEST_LATCHED
  (0x2400, 1, 0xa, 1, 1, 2, 0, 0x1, false)  -- FE_MIN_SEVERITY
  ]

/-- R427. -/
def obj2401 : List ObjRow := [
  (0x2401, 1, 0x0, 1, 1, 5, 0, 0x5, false),  -- Highest sub-index
  (0x2401, 1, 0x1, 1, 512, 2, 6, 0x0, false),  -- SEVERITY
  (0x2401, 1, 0x2, 1, 512, 2, 6, 0x0, false),  -- LASTING_SEVERITY
  (0x2401, 1, 0x3, 1, 512, 5, 6, 0x0, false),  -- MIN_SEVERITY
  (0x2401, 1, 0x4, 1, 64, 0, 0, 0x0, false),  -- LATCHED
  (0x2401, 1, 0x5, 1, 2048, 0, 0, 0x0, false)  -- EVENT_COUNTS
  ]

/-- R428. -/
def obj2410 : List ObjRow := [
  (0x2410, 1, 0x0, 1, 1, 5, 0, 0x7, false),  -- Highest sub-index
  (0x2410, 1, 0x1, 1, 1, 0, 0, 0x0, true),  -- FE_VALID
  (0x2410, 1, 0x2, 1, 8, 0, 0, 0x0, false),  -- FE_CODE
  (0x2410, 1, 0x3, 1, 2, 0, 0, 0xffff, false),  -- FE_MASTER
  (0x2410, 1, 0x4, 1, 1, 0, 0, 0x0, false),  -- FE_ACCESS
  (0x2410, 1, 0x5, 1, 8, 0, 0, 0x0, false),  -- FE_TIME
  (0x2410, 1, 0x6, 1, 4, 0, 0, 0x0, false),  -- FE_FOLLOWING
  (0x2410, 1, 0x7, 1, 8, 0, 0, 0x0, false)  -- FE_RELEASE
  ]

/-- R429. -/
def obj2420 : List ObjRow := [
  (0x2420, 1, 0x0, 1, 1, 5, 0, 0x6, false),  -- Highest sub-index
  (0x2420, 1, 0x1, 1, 2, 2, 0, 0x400, false),  -- PROGRESS_LIMIT_BEATS
  (0x2420, 1, 0x2, 1, 4, 5, 0, 0x7d0, false),  -- STOP_ACK_NS
  (0x2420, 1, 0x3, 1, 2, 5, 0, 0xfa, false),  -- HEARTBEAT_LIMIT_BEATS
  (0x2420, 1, 0x4, 1, 4, 0, 0, 0x0, false),  -- STALLS
  (0x2420, 1, 0x5, 1, 4, 0, 0, 0x0, false),  -- HANGS
  (0x2420, 1, 0x6, 1, 4, 0, 0, 0x0, false)  -- OVERRUNS
  ]

/-- R430. -/
def obj2430 : List ObjRow := [
  (0x2430, 1, 0x0, 1, 1, 5, 0, 0xa, false),  -- Highest sub-index
  (0x2430, 1, 0x1, 1, 1, 2, 0, 0x3, false),  -- RESET_LIMIT
  (0x2430, 1, 0x2, 1, 4, 2, 0, 0x1c9c380, false),  -- RESET_WINDOW_BEATS
  (0x2430, 1, 0x3, 1, 1, 0, 0, 0x0, false),  -- RESET_STEP
  (0x2430, 1, 0x4, 1, 4, 0, 0, 0x0, false),  -- COMPUTE_RESETS
  (0x2430, 1, 0x5, 1, 1, 0, 0, 0x0, false),  -- RESETS_IN_WINDOW
  (0x2430, 1, 0x6, 1, 8, 0, 0, 0x0, false),  -- LAST_RESET_CAUSE
  (0x2430, 1, 0x7, 1, 8, 0, 0, 0x0, false),  -- LAST_RESET_BEAT
  (0x2430, 1, 0x8, 1, 8, 0, 0, 0x0, false),  -- LAST_RESUME_BEAT
  (0x2430, 1, 0x9, 1, 2, 0, 0, 0xffff, false),  -- ESCALATION_CAUSE
  (0x2430, 1, 0xa, 1, 8, 0, 0, 0x0, false)  -- ESCALATION_BEAT
  ]

/-- R431. -/
def obj2450 : List ObjRow := [
  (0x2450, 1, 0x0, 1, 1, 5, 0, 0x5, false),  -- Highest sub-index
  (0x2450, 1, 0x1, 1, 1, 5, 0, 0x1, false),  -- DUMP_VERSION
  (0x2450, 1, 0x2, 1, 1, 0, 0, 0x0, true),  -- DUMP_VALID
  (0x2450, 1, 0x3, 1, 4, 0, 0, 0x0, false),  -- DUMP_ENTRIES
  (0x2450, 1, 0x4, 1, 4, 0, 0, 0x0, false),  -- DUMP_UNREADABLE
  (0x2450, 1, 0x5, 1, 262144, 0, 0, 0x0, false)  -- DUMP_DATA
  ]

/-- R348. -/
def obj2500 : List ObjRow := [
  (0x2500, 1, 0x0, 1, 1, 5, 0, 0x7, false),  -- Highest sub-index
  (0x2500, 1, 0x1, 1, 1, 0, 0, 0x0, false),  -- FW_STATE
  (0x2500, 1, 0x2, 1, 64, 0, 0, 0x0, false),  -- FW_DIGEST
  (0x2500, 1, 0x3, 1, 16, 0, 12, 0x0, false),  -- FW_VERSION_RUNNING
  (0x2500, 1, 0x4, 1, 1, 0, 0, 0xff, false),  -- FW_KEY_SLOT
  (0x2500, 1, 0x5, 1, 64, 0, 0, 0x0, false),  -- PENDING_DIGEST
  (0x2500, 1, 0x6, 1, 16, 0, 15, 0x0, false),  -- PENDING_VERSION
  (0x2500, 1, 0x7, 1, 4, 1, 0, 0x0, false)  -- FW_ACTIVATE_REQUEST
  ]

/-- R349. -/
def obj2510 : List ObjRow := [
  (0x2510, 6, 0x0, 1, 1, 5, 0, 0x9, false),  -- Highest sub-index
  (0x2510, 6, 0x1, 1, 1, 0, 0, 0x0, false),  -- PAIR_STATE
  (0x2510, 6, 0x2, 1, 1, 1, 0, 0x0, true),  -- SPLIT_REQUEST
  (0x2510, 6, 0x3, 1, 4, 0, 0, 0x0, false),  -- RESTARTS
  (0x2510, 6, 0x4, 1, 1, 0, 0, 0x0, false),  -- LAST_RESTART_CAUSE
  (0x2510, 6, 0x5, 1, 8, 0, 0, 0x0, false),  -- LAST_RESTART_BEAT
  (0x2510, 6, 0x6, 1, 4, 0, 0, 0x0, false),  -- HEARTBEATS
  (0x2510, 6, 0x7, 1, 4, 0, 0, 0x0, false),  -- DEBUG_HALTS
  (0x2510, 6, 0x8, 1, 64, 0, 0, 0x0, false),  -- SECTION_DIGEST
  (0x2510, 6, 0x9, 1, 8, 0, 0, 0x0, false)  -- LAST_FATAL_PC
  ]

/-- R350. -/
def obj2530 : List ObjRow := [
  (0x2530, 1, 0x0, 1, 1, 5, 0, 0x6, false),  -- Highest sub-index
  (0x2530, 1, 0x1, 1, 1, 5, 0, 0x1, false),  -- ATTEST_VERSION
  (0x2530, 1, 0x2, 1, 2592, 0, 16, 0x0, false),  -- IDENTITY_PUBKEY
  (0x2530, 1, 0x3, 1, 1, 5, 17, 0x0, true),  -- DEBUG_LOCK
  (0x2530, 1, 0x4, 1, 1, 0, 0, 0x0, true),  -- DEBUG_ATTACHED
  (0x2530, 1, 0x5, 1, 1, 5, 18, 0x0, false),  -- KEY_SLOTS_REVOKED
  (0x2530, 1, 0x6, 1, 4, 0, 0, 0x0, false)  -- ATTEST_REPORTS
  ]

/-- R350. -/
def obj2540 : List ObjRow := [
  (0x2540, 1, 0x0, 1, 1, 5, 0, 0x8, false),  -- Highest sub-index
  (0x2540, 1, 0x1, 1, 1, 5, 0, 0x1, false),  -- LOG_VERSION
  (0x2540, 1, 0x2, 1, 2, 5, 0, 0x800, false),  -- LOG_ENTRIES
  (0x2540, 1, 0x3, 1, 2, 0, 0, 0x0, false),  -- LOG_HELD
  (0x2540, 1, 0x4, 1, 4, 0, 0, 0x0, false),  -- LOG_LOST
  (0x2540, 1, 0x5, 1, 4, 0, 0, 0x0, false),  -- LOG_NEXT_SEQ
  (0x2540, 1, 0x6, 1, 1, 1, 0, 0x1, false),  -- LOG_LEVEL
  (0x2540, 1, 0x7, 1, 1, 1, 0, 0x1, true),  -- LOG_DRAIN_ENABLE
  (0x2540, 1, 0x8, 1, 32, 0, 0, 0x0, false)  -- LOG_POP
  ]

/-- R184. -/
def obj2600 : List ObjRow := [
  (0x2600, 1, 0x0, 1, 1, 5, 0, 0x5, false),  -- Highest sub-index
  (0x2600, 1, 0x1, 1, 1, 5, 0, 0x1, false),  -- MEM_MAP_VERSION
  (0x2600, 1, 0x2, 1, 1, 0, 9, 0x0, false),  -- CHANNELS_IN_SERVICE
  (0x2600, 1, 0x3, 1, 8, 5, 10, 0x0, false),  -- MEM_TOP
  (0x2600, 1, 0x4, 1, 2, 5, 0, 0x40, false),  -- CAL_PERIOD_BEATS
  (0x2600, 1, 0x5, 1, 4, 5, 0, 0x208209, false)  -- SCRUB_PASS_BEATS
  ]

/-- R159. -/
def obj2610 : List ObjRow := [
  (0x2610, 1, 0x0, 1, 1, 5, 0, 0x10, false),  -- Highest sub-index
  (0x2610, 1, 0x1, 16, 8, 1, 0, 0x0, false)  -- ACCESS_SCOPE_w
  ]

/-- R172. -/
def obj2640 : List ObjRow := [
  (0x2640, 128, 0x0, 1, 1, 5, 0, 0x6, false),  -- Highest sub-index
  (0x2640, 128, 0x1, 1, 1, 2, 0, 0x1, false),  -- POOL_VERSION
  (0x2640, 128, 0x2, 1, 8, 2, 0, 0x0, false),  -- POOL_BASE
  (0x2640, 128, 0x3, 1, 4, 2, 0, 0x0, false),  -- POOL_BYTES
  (0x2640, 128, 0x4, 1, 2, 2, 0, 0xffff, false),  -- WRITER
  (0x2640, 128, 0x5, 1, 1, 2, 0, 0xff, false),  -- READER_GROUP
  (0x2640, 128, 0x6, 1, 1, 2, 0, 0x0, true)  -- CACHEABLE
  ]

/-- R208. -/
def obj26C0 : List ObjRow := [
  (0x26c0, 1, 0x0, 1, 1, 5, 0, 0x8, false),  -- Highest sub-index
  (0x26c0, 1, 0x1, 1, 1, 5, 0, 0x1, false),  -- TM_VERSION
  (0x26c0, 1, 0x2, 1, 2, 5, 0, 0x8000, false),  -- MAP_ENTRIES
  (0x26c0, 1, 0x3, 1, 2, 0, 0, 0x0, false),  -- MAP_IN_USE
  (0x26c0, 1, 0x4, 1, 4, 0, 0, 0x0, false),  -- QUOTA_COMMITTED
  (0x26c0, 1, 0x5, 1, 8, 0, 0, 0x0, false),  -- LAB_HITS_DIE0
  (0x26c0, 1, 0x6, 1, 8, 0, 0, 0x0, false),  -- LAB_MISSES_DIE0
  (0x26c0, 1, 0x7, 1, 8, 0, 0, 0x0, false),  -- LAB_HITS_DIE1
  (0x26c0, 1, 0x8, 1, 8, 0, 0, 0x0, false)  -- LAB_MISSES_DIE1
  ]

/-- R209. -/
def obj26E0 : List ObjRow := [
  (0x26e0, 32, 0x0, 1, 1, 5, 0, 0x1c, false),  -- Highest sub-index
  (0x26e0, 32, 0x1, 1, 1, 2, 0, 0x1, false),  -- TM_SLOT_VERSION
  (0x26e0, 32, 0x2, 1, 2, 2, 0, 0xffff, false),  -- CONTEXT
  (0x26e0, 32, 0x3, 1, 2, 2, 0, 0xffff, false),  -- BACKWARD_CONTEXT
  (0x26e0, 32, 0x4, 1, 1, 2, 0, 0xff, false),  -- POOL
  (0x26e0, 32, 0x5, 1, 1, 2, 0, 0x2, false),  -- ELEM_FMT
  (0x26e0, 32, 0x6, 1, 2, 2, 0, 0x40, false),  -- KEY_DIM
  (0x26e0, 32, 0x7, 1, 2, 2, 0, 0x40, false),  -- VALUE_DIM
  (0x26e0, 32, 0x8, 1, 2, 2, 0, 0x0, false),  -- PAGE_QUOTA
  (0x26e0, 32, 0x9, 1, 1, 2, 0, 0x1, false),  -- LOCAL_PAGES
  (0x26e0, 32, 0xa, 1, 1, 2, 0, 0x0, false),  -- GLOBAL_MAX
  (0x26e0, 32, 0xb, 1, 1, 2, 0, 0x0, false),  -- TOP_K
  (0x26e0, 32, 0xc, 1, 1, 2, 0, 0x1, false),  -- APPEND_PER_SLICE
  (0x26e0, 32, 0xd, 1, 4, 2, 0, 0x3f7c0000, false),  -- DECAY
  (0x26e0, 32, 0xe, 1, 1, 2, 0, 0x0, false),  -- TM_ENGINE_INDEX
  (0x26e0, 32, 0xf, 1, 2, 2, 0, 0x0, false),  -- WS_ADDR
  (0x26e0, 32, 0x10, 1, 2, 2, 0, 0xffff, false),  -- SEM_TRIGGER
  (0x26e0, 32, 0x11, 1, 2, 2, 0, 0xffff, false),  -- SEM_DONE
  (0x26e0, 32, 0x12, 1, 1, 0, 0, 0x0, false),  -- MODE
  (0x26e0, 32, 0x13, 1, 1, 0, 0, 0x0, false),  -- TM_STATE
  (0x26e0, 32, 0x14, 1, 1, 4, 0, 0x0, true),  -- TM_RESET
  (0x26e0, 32, 0x15, 1, 8, 0, 0, 0x0, false),  -- POSITION
  (0x26e0, 32, 0x16, 1, 2, 0, 0, 0x0, false),  -- PAGES_RESIDENT
  (0x26e0, 32, 0x17, 1, 8, 3, 0, 0x0, false),  -- PIN_PAGE
  (0x26e0, 32, 0x18, 1, 2, 0, 0, 0x0, false),  -- PINNED_COUNT
  (0x26e0, 32, 0x19, 1, 4, 0, 0, 0x0, false),  -- EVICTIONS
  (0x26e0, 32, 0x1a, 1, 4, 0, 0, 0x0, false),  -- LATE_LISTS
  (0x26e0, 32, 0x1b, 1, 4, 0, 0, 0x0, false),  -- MASSES_REJECTED
  (0x26e0, 32, 0x1c, 1, 4, 0, 0, 0x0, false)  -- MASSES_MISSING
  ]

/-- R456. -/
def obj2700 : List ObjRow := [
  (0x2700, 1, 0x0, 1, 1, 5, 0, 0xb, false),  -- Highest sub-index
  (0x2700, 1, 0x1, 1, 1, 5, 0, 0x1, false),  -- CASC_VERSION_MAX
  (0x2700, 1, 0x2, 1, 1, 0, 0, 0x0, false),  -- CASC_STRAPS
  (0x2700, 1, 0x3, 1, 1, 0, 0, 0x1, false),  -- SIZE
  (0x2700, 1, 0x4, 1, 1, 0, 0, 0x0, false),  -- CASC_STATE
  (0x2700, 1, 0x5, 1, 1, 0, 0, 0x0, false),  -- CASC_VERSION
  (0x2700, 1, 0x6, 1, 1, 0, 0, 0x1, false),  -- MEMBERS_PRESENT
  (0x2700, 1, 0x7, 1, 8, 0, 0, 0x0, false),  -- FORMATION_BEAT
  (0x2700, 1, 0x8, 1, 8, 0, 0, 0x0, false),  -- TIME_STEP_NS
  (0x2700, 1, 0x9, 1, 1, 0, 0, 0x0, false),  -- MEMBERS_LOST
  (0x2700, 1, 0xa, 1, 4, 0, 0, 0x0, false),  -- ABORTS_SENT
  (0x2700, 1, 0xb, 1, 4, 0, 0, 0x0, false)  -- ABORTS_RECEIVED
  ]

/-- R456. -/
def obj2710 : List ObjRow := [
  (0x2710, 3, 0x0, 1, 1, 5, 0, 0x7, false),  -- Highest sub-index
  (0x2710, 3, 0x1, 1, 1, 0, 0, 0xff, false),  -- PEER_MEMBER
  (0x2710, 3, 0x2, 1, 1, 0, 0, 0x0, false),  -- LINK_STATE
  (0x2710, 3, 0x3, 1, 2, 0, 0, 0x0, false),  -- RAW_DELAY_NS
  (0x2710, 3, 0x4, 1, 8, 0, 0, 0x0, false),  -- FLITS_SENT
  (0x2710, 3, 0x5, 1, 4, 0, 0, 0x0, false),  -- FLITS_RESENT
  (0x2710, 3, 0x6, 1, 4, 0, 0, 0x0, false),  -- CRC_ERRORS
  (0x2710, 3, 0x7, 1, 1, 0, 0, 0x0, false)  -- SLOTS_ALLOTTED
  ]

/-- R456. -/
def obj2720 : List ObjRow := [
  (0x2720, 32, 0x0, 1, 1, 5, 0, 0xb, false),  -- Highest sub-index
  (0x2720, 32, 0x1, 1, 1, 2, 0, 0x1, false),  -- COLL_VERSION
  (0x2720, 32, 0x2, 1, 1, 2, 0, 0x0, false),  -- KIND
  (0x2720, 32, 0x3, 1, 1, 2, 0, 0x0, false),  -- MEMBER_MASK
  (0x2720, 32, 0x4, 1, 1, 2, 0, 0x0, false),  -- ROOT
  (0x2720, 32, 0x5, 1, 1, 2, 0, 0xff, false),  -- OUT_STREAM
  (0x2720, 32, 0x6, 1, 2, 2, 0, 0xffff, false),  -- CONSUMER
  (0x2720, 32, 0x7, 1, 8, 2, 0, 0x0, false),  -- DEST_BASE
  (0x2720, 32, 0x8, 1, 2, 2, 0, 0xffff, false),  -- ARRIVAL_SEM
  (0x2720, 32, 0x9, 1, 1, 2, 0, 0x2, false),  -- ARRIVAL_SLOTS
  (0x2720, 32, 0xa, 1, 8, 0, 0, 0x0, false),  -- ARRIVALS
  (0x2720, 32, 0xb, 1, 4, 0, 0, 0x0, false)  -- PARTS_MISSING
  ]

/-- R319. -/
def obj2800 : List ObjRow := [
  (0x2800, 1, 0x0, 1, 1, 5, 0, 0x8, false),  -- Highest sub-index
  (0x2800, 1, 0x1, 1, 1, 5, 0, 0x1, false),  -- CRINO_VERSION_MAX
  (0x2800, 1, 0x2, 1, 1, 0, 0, 0x0, false),  -- USB_SPEED
  (0x2800, 1, 0x3, 1, 4, 1, 0, 0x7d0, false),  -- HOST_SILENCE_MS
  (0x2800, 1, 0x4, 1, 4, 0, 0, 0x0, false),  -- FRAMES_CRC_FAILED
  (0x2800, 1, 0x5, 1, 4, 0, 0, 0x0, false),  -- HOST_SILENT_EVENTS
  (0x2800, 1, 0x6, 1, 1, 0, 0, 0x0, true),  -- USB_SESSION
  (0x2800, 1, 0x7, 1, 1, 0, 0, 0x0, true),  -- UDP_SESSION
  (0x2800, 1, 0x8, 1, 1, 0, 0, 0x0, false)  -- SESSION_VERSION
  ]

/-- R319. -/
def obj2801 : List ObjRow := [
  (0x2801, 1, 0x0, 1, 1, 5, 0, 0x4, false),  -- Highest sub-index
  (0x2801, 1, 0x1, 1, 1, 2, 0, 0x0, true),  -- UDP_ENABLE
  (0x2801, 1, 0x2, 1, 2, 2, 0, 0xc3c8, false),  -- UDP_PORT
  (0x2801, 1, 0x3, 1, 1, 2, 0, 0x10, false),  -- UDP_PORTS
  (0x2801, 1, 0x4, 1, 18, 0, 0, 0x0, false)  -- UDP_PEER
  ]

/-- R307. -/
def obj2810 : List ObjRow := [
  (0x2810, 2, 0x0, 1, 1, 5, 0, 0xb, false),  -- Highest sub-index
  (0x2810, 2, 0x1, 1, 1, 2, 0, 0x1, false),  -- CAN_VERSION
  (0x2810, 2, 0x2, 1, 1, 2, 0, 0x1, true),  -- ENABLE
  (0x2810, 2, 0x3, 1, 2, 2, 0, 0x1f4, false),  -- NOMINAL_KBPS
  (0x2810, 2, 0x4, 1, 2, 2, 0, 0x7d0, false),  -- DATA_KBPS
  (0x2810, 2, 0x5, 1, 2, 2, 0, 0x320, false),  -- NOMINAL_SP_PERMILLE
  (0x2810, 2, 0x6, 1, 2, 2, 0, 0x2ee, false),  -- DATA_SP_PERMILLE
  (0x2810, 2, 0x7, 1, 1, 0, 0, 0x0, false),  -- NODE_ID
  (0x2810, 2, 0x8, 1, 4, 0, 0, 0x0, false),  -- BUS_OFF_COUNT
  (0x2810, 2, 0x9, 1, 1, 0, 0, 0x0, false),  -- TX_ERROR_COUNT
  (0x2810, 2, 0xa, 1, 1, 0, 0, 0x0, false),  -- RX_ERROR_COUNT
  (0x2810, 2, 0xb, 1, 4, 0, 0, 0x0, false)  -- NMT_IGNORED
  ]

/-- R319. -/
def obj2820 : List ObjRow := [
  (0x2820, 5, 0x0, 1, 1, 5, 0, 0xe, false),  -- Highest sub-index
  (0x2820, 5, 0x1, 1, 1, 2, 0, 0x1, false),  -- ETH_VERSION
  (0x2820, 5, 0x2, 1, 8, 0, 14, 0x0, false),  -- MAC_ADDRESS
  (0x2820, 5, 0x3, 1, 16, 2, 0, 0x0, false),  -- IP_ADDRESS
  (0x2820, 5, 0x4, 1, 1, 2, 0, 0x0, false),  -- PREFIX_LEN
  (0x2820, 5, 0x5, 1, 16, 2, 0, 0x0, false),  -- RESULT_DST_IP
  (0x2820, 5, 0x6, 1, 8, 2, 0, 0x0, false),  -- RESULT_DST_MAC
  (0x2820, 5, 0x7, 1, 2, 2, 0, 0x0, false),  -- RESULT_DST_UDP
  (0x2820, 5, 0x8, 1, 2, 2, 0, 0xffff, false),  -- RESULT_VLAN
  (0x2820, 5, 0x9, 1, 1, 2, 0, 0x7, false),  -- RESULT_PCP
  (0x2820, 5, 0xa, 1, 32, 2, 0, 0xff0007d0, false),  -- GCL
  (0x2820, 5, 0xb, 1, 1, 0, 0, 0x0, true),  -- LINK_UP
  (0x2820, 5, 0xc, 1, 4, 0, 0, 0x0, false),  -- UNMATCHED_FRAMES
  (0x2820, 5, 0xd, 1, 4, 0, 0, 0x0, false),  -- TX_DROPPED
  (0x2820, 5, 0xe, 1, 4, 0, 0, 0x0, false)  -- FCS_ERRORS
  ]

/-- R238, R239. -/
def obj3000 : List ObjRow := [
  (0x3000, 16, 0x0, 1, 1, 5, 0, 0x49, false),  -- Highest sub-index
  (0x3000, 16, 0x1, 1, 1, 2, 0, 0x1, false),  -- CH_VERSION
  (0x3000, 16, 0x2, 1, 1, 2, 0, 0x0, true),  -- ENABLE
  (0x3000, 16, 0x3, 1, 2, 2, 0, 0xffff, false),  -- CONTEXT
  (0x3000, 16, 0x4, 1, 1, 2, 0, 0x0, false),  -- SOURCE
  (0x3000, 16, 0x5, 1, 1, 2, 0, 0x4, false),  -- LANES
  (0x3000, 16, 0x6, 1, 2, 2, 0, 0x9c4, false),  -- LANE_RATE_MBPS
  (0x3000, 16, 0x7, 1, 1, 2, 0, 0x0, false),  -- VC
  (0x3000, 16, 0x8, 1, 1, 2, 0, 0x2c, false),  -- DATA_TYPE
  (0x3000, 16, 0x9, 1, 2, 2, 0, 0xf00, false),  -- IMG_W
  (0x3000, 16, 0xa, 1, 2, 2, 0, 0x870, false),  -- IMG_H
  (0x3000, 16, 0xb, 1, 1, 2, 0, 0xff, false),  -- TRIGGER
  (0x3000, 16, 0xc, 1, 4, 2, 0, 0x0, false),  -- EXPOSURE_OFFSET_NS
  (0x3000, 16, 0x10, 1, 2, 2, 0, 0x0, false),  -- RECORDS_PER_FRAME
  (0x3000, 16, 0x11, 1, 4, 2, 0, 0x0, false),  -- FRAME_PERIOD_NS
  (0x3000, 16, 0x12, 1, 4, 2, 0, 0x0, false),  -- FIRST_RECORD_NS
  (0x3000, 16, 0x13, 1, 4, 2, 0, 0x0, false),  -- RECORD_INTERVAL_NS
  (0x3000, 16, 0x14, 1, 4, 2, 0, 0x0, false),  -- LATE_SLACK_NS
  (0x3000, 16, 0x15, 1, 1, 2, 0, 0x1, false),  -- CONCEAL_MODE
  (0x3000, 16, 0x16, 1, 4, 2, 0, 0x0, false),  -- DECODE_BUDGET_NS
  (0x3000, 16, 0x17, 1, 1, 2, 0, 0xff, false),  -- BAYER_PHASE
  (0x3000, 16, 0x18, 1, 30, 2, 1, 0x0, false),  -- CCM
  (0x3000, 16, 0x19, 1, 24576, 4, 2, 0x0, false),  -- LUT
  (0x3000, 16, 0x1a, 1, 1, 2, 0, 0x0, true),  -- LUT_ENABLE
  (0x3000, 16, 0x1b, 1, 8, 2, 0, 0x0, false),  -- CROP
  (0x3000, 16, 0x1c, 1, 1, 2, 0, 0x0, false),  -- GEOM_MODE
  (0x3000, 16, 0x1d, 1, 24, 2, 3, 0x0, false),  -- AFFINE
  (0x3000, 16, 0x1e, 1, 1, 2, 0, 0x2, false),  -- AREA_FACTOR
  (0x3000, 16, 0x1f, 1, 4, 2, 0, 0x0, false),  -- OUT_SIZE
  (0x3000, 16, 0x20, 1, 1, 2, 0, 0x0, false),  -- OUT_FMT
  (0x3000, 16, 0x21, 1, 1, 2, 0, 0x1, false),  -- OUT_CHANNELS
  (0x3000, 16, 0x22, 1, 1, 2, 0, 0x8, false),  -- OUT_SHIFT
  (0x3000, 16, 0x23, 1, 1, 2, 0, 0x0, false),  -- GUARD_DECIM
  (0x3000, 16, 0x24, 1, 1, 2, 0, 0x0, false),  -- TARGET_COUNT
  (0x3000, 16, 0x25, 8, 4, 2, 0, 0x0, false),  -- TARGET_k
  (0x3000, 16, 0x2d, 1, 8, 2, 0, 0x0, false),  -- MASK_BASE
  (0x3000, 16, 0x2e, 1, 1, 2, 0, 0x1, false),  -- MASK_FRAMES
  (0x3000, 16, 0x2f, 1, 2, 2, 0, 0xffff, false),  -- MASK_SEM
  (0x3000, 16, 0x30, 1, 8, 2, 0, 0x0, false),  -- STORE_BASE
  (0x3000, 16, 0x31, 1, 1, 2, 0, 0x2, false),  -- STORE_FRAMES
  (0x3000, 16, 0x32, 1, 2, 2, 0, 0x400, false),  -- MAX_POINTS
  (0x3000, 16, 0x33, 1, 4, 2, 0, 0x0, false),  -- RANGE_MIN_M
  (0x3000, 16, 0x34, 1, 4, 2, 0, 0x7f800000, false),  -- RANGE_MAX_M
  (0x3000, 16, 0x35, 1, 1, 2, 0, 0xff, false),  -- SAMPLE_CACHE_POOL
  (0x3000, 16, 0x40, 1, 8, 0, 0, 0x0, false),  -- RECORDS_ACCEPTED
  (0x3000, 16, 0x41, 1, 4, 0, 0, 0x0, false),  -- RECORDS_CONCEALED
  (0x3000, 16, 0x42, 1, 4, 0, 0, 0x0, false),  -- FRAMES_CONCEALED
  (0x3000, 16, 0x43, 1, 4, 0, 0, 0x0, false),  -- LATE_RECORDS
  (0x3000, 16, 0x44, 1, 4, 0, 0, 0x0, false),  -- LINK_ERRORS
  (0x3000, 16, 0x45, 1, 4, 0, 0, 0x0, false),  -- ECC_CORRECTED
  (0x3000, 16, 0x46, 1, 4, 0, 0, 0x0, false),  -- BUDGET_ABANDONED
  (0x3000, 16, 0x47, 1, 8, 0, 0, 0x0, false),  -- CACHE_HITS
  (0x3000, 16, 0x48, 1, 8, 0, 0, 0x0, false),  -- LAST_ERROR
  (0x3000, 16, 0x49, 1, 2, 0, 0, 0x0, false)  -- FRAME_COUNTER
  ]

/-- R238, R240. -/
def obj3010 : List ObjRow := [
  (0x3010, 16, 0x0, 1, 1, 5, 0, 0x49, false),  -- Highest sub-index
  (0x3010, 16, 0x1, 1, 1, 2, 0, 0x1, false),  -- ES_VERSION
  (0x3010, 16, 0x2, 1, 1, 2, 0, 0x0, true),  -- ENABLE
  (0x3010, 16, 0x3, 1, 2, 2, 0, 0xffff, false),  -- CONTEXT
  (0x3010, 16, 0x4, 1, 1, 2, 0, 0x0, false),  -- SOURCE
  (0x3010, 16, 0x5, 1, 1, 2, 0, 0x0, false),  -- PORT
  (0x3010, 16, 0x6, 1, 8, 2, 0, 0x0, false),  -- MATCH_DST_MAC
  (0x3010, 16, 0x7, 1, 2, 2, 0, 0xffff, false),  -- MATCH_VLAN
  (0x3010, 16, 0x8, 1, 16, 2, 0, 0x0, false),  -- MATCH_SRC_IP
  (0x3010, 16, 0x9, 1, 2, 2, 0, 0x0, false),  -- MATCH_UDP_PORT
  (0x3010, 16, 0xa, 1, 1, 2, 0, 0x2, false),  -- KIND
  (0x3010, 16, 0xb, 1, 1, 2, 0, 0xff, false),  -- LAYOUT
  (0x3010, 16, 0xc, 1, 1, 2, 0, 0xff, false),  -- DECODER
  (0x3010, 16, 0xd, 1, 1, 2, 0, 0xff, false),  -- TRIGGER
  (0x3010, 16, 0xe, 1, 4, 2, 0, 0x0, false),  -- JXS_SIZE
  (0x3010, 16, 0xf, 1, 1, 2, 0, 0x0, false),  -- JXS_PROFILE
  (0x3010, 16, 0x10, 1, 2, 2, 0, 0x0, false),  -- RECORDS_PER_FRAME
  (0x3010, 16, 0x11, 1, 4, 2, 0, 0x0, false),  -- FRAME_PERIOD_NS
  (0x3010, 16, 0x12, 1, 4, 2, 0, 0x0, false),  -- FIRST_RECORD_NS
  (0x3010, 16, 0x13, 1, 4, 2, 0, 0x0, false),  -- RECORD_INTERVAL_NS
  (0x3010, 16, 0x14, 1, 4, 2, 0, 0x0, false),  -- LATE_SLACK_NS
  (0x3010, 16, 0x15, 1, 1, 2, 0, 0x1, false),  -- CONCEAL_MODE
  (0x3010, 16, 0x16, 1, 4, 2, 0, 0x0, false),  -- DECODE_BUDGET_NS
  (0x3010, 16, 0x17, 1, 1, 2, 0, 0xff, false),  -- BAYER_PHASE
  (0x3010, 16, 0x18, 1, 30, 2, 1, 0x0, false),  -- CCM
  (0x3010, 16, 0x19, 1, 24576, 4, 2, 0x0, false),  -- LUT
  (0x3010, 16, 0x1a, 1, 1, 2, 0, 0x0, true),  -- LUT_ENABLE
  (0x3010, 16, 0x1b, 1, 8, 2, 0, 0x0, false),  -- CROP
  (0x3010, 16, 0x1c, 1, 1, 2, 0, 0x0, false),  -- GEOM_MODE
  (0x3010, 16, 0x1d, 1, 24, 2, 3, 0x0, false),  -- AFFINE
  (0x3010, 16, 0x1e, 1, 1, 2, 0, 0x2, false),  -- AREA_FACTOR
  (0x3010, 16, 0x1f, 1, 4, 2, 0, 0x0, false),  -- OUT_SIZE
  (0x3010, 16, 0x20, 1, 1, 2, 0, 0x0, false),  -- OUT_FMT
  (0x3010, 16, 0x21, 1, 1, 2, 0, 0x1, false),  -- OUT_CHANNELS
  (0x3010, 16, 0x22, 1, 1, 2, 0, 0x8, false),  -- OUT_SHIFT
  (0x3010, 16, 0x23, 1, 1, 2, 0, 0x0, false),  -- GUARD_DECIM
  (0x3010, 16, 0x24, 1, 1, 2, 0, 0x0, false),  -- TARGET_COUNT
  (0x3010, 16, 0x25, 8, 4, 2, 0, 0x0, false),  -- TARGET_k
  (0x3010, 16, 0x2d, 1, 8, 2, 0, 0x0, false),  -- MASK_BASE
  (0x3010, 16, 0x2e, 1, 1, 2, 0, 0x1, false),  -- MASK_FRAMES
  (0x3010, 16, 0x2f, 1, 2, 2, 0, 0xffff, false),  -- MASK_SEM
  (0x3010, 16, 0x30, 1, 8, 2, 0, 0x0, false),  -- STORE_BASE
  (0x3010, 16, 0x31, 1, 1, 2, 0, 0x2, false),  -- STORE_FRAMES
  (0x3010, 16, 0x32, 1, 2, 2, 0, 0x400, false),  -- MAX_POINTS
  (0x3010, 16, 0x33, 1, 4, 2, 0, 0x0, false),  -- RANGE_MIN_M
  (0x3010, 16, 0x34, 1, 4, 2, 0, 0x7f800000, false),  -- RANGE_MAX_M
  (0x3010, 16, 0x35, 1, 1, 2, 0, 0xff, false),  -- SAMPLE_CACHE_POOL
  (0x3010, 16, 0x40, 1, 8, 0, 0, 0x0, false),  -- RECORDS_ACCEPTED
  (0x3010, 16, 0x41, 1, 4, 0, 0, 0x0, false),  -- RECORDS_CONCEALED
  (0x3010, 16, 0x42, 1, 4, 0, 0, 0x0, false),  -- FRAMES_CONCEALED
  (0x3010, 16, 0x43, 1, 4, 0, 0, 0x0, false),  -- LATE_RECORDS
  (0x3010, 16, 0x44, 1, 4, 0, 0, 0x0, false),  -- LINK_ERRORS
  (0x3010, 16, 0x45, 1, 4, 0, 0, 0x0, false),  -- ECC_CORRECTED
  (0x3010, 16, 0x46, 1, 4, 0, 0, 0x0, false),  -- BUDGET_ABANDONED
  (0x3010, 16, 0x47, 1, 8, 0, 0, 0x0, false),  -- CACHE_HITS
  (0x3010, 16, 0x48, 1, 8, 0, 0, 0x0, false),  -- LAST_ERROR
  (0x3010, 16, 0x49, 1, 2, 0, 0, 0x0, false)  -- FRAME_COUNTER
  ]

/-- R225. -/
def obj3100 : List ObjRow := [
  (0x3100, 64, 0x0, 1, 1, 5, 0, 0xbf, false),  -- Highest sub-index
  (0x3100, 64, 0x1, 1, 1, 2, 0, 0x1, false),  -- LAYOUT_VERSION
  (0x3100, 64, 0x2, 1, 1, 2, 0, 0x2, false),  -- REC_KIND
  (0x3100, 64, 0x3, 1, 2, 2, 0, 0x0, false),  -- MATCH_OFFSET
  (0x3100, 64, 0x4, 1, 4, 2, 0, 0x0, false),  -- MATCH_MASK
  (0x3100, 64, 0x5, 1, 4, 2, 0, 0x0, false),  -- MATCH_VALUE
  (0x3100, 64, 0x6, 1, 2, 2, 0, 0x0, false),  -- HEADER_BYTES
  (0x3100, 64, 0x7, 1, 2, 2, 0, 0x1, false),  -- COUNT
  (0x3100, 64, 0x8, 1, 4, 2, 0, 0x0, false),  -- COUNT_FIELD
  (0x3100, 64, 0x9, 1, 2, 2, 0, 0x10, false),  -- POINT_STRIDE
  (0x3100, 64, 0xa, 1, 1, 2, 0, 0x0, false),  -- COORD_KIND
  (0x3100, 64, 0xb, 1, 4, 2, 0, 0x0, false),  -- TIME_FIELD
  (0x3100, 64, 0xc, 1, 1, 2, 0, 0x0, false),  -- TIME_FORMAT
  (0x3100, 64, 0xd, 1, 4, 2, 0, 0x0, false),  -- BLOCK_FIELD
  (0x3100, 64, 0xe, 1, 1, 2, 0, 0x0, true),  -- ELEV_TABLE_EN
  (0x3100, 64, 0x10, 8, 4, 2, 0, 0x0, false),  -- FIELD_k
  (0x3100, 64, 0x18, 8, 4, 2, 0, 0x3f800000, false),  -- SCALE_k
  (0x3100, 64, 0x20, 8, 4, 2, 0, 0x0, false),  -- OFFSET_k
  (0x3100, 64, 0x40, 128, 4, 2, 0, 0x0, false)  -- ELEV_n
  ]

/-- R34. -/
def obj4000 : List ObjRow := [
  (0x4000, 1024, 0x0, 1, 1, 5, 0, 0x54, false),  -- Highest sub-index
  (0x4000, 1024, 0x1, 1, 1, 1, 0, 0x1, false),  -- DECL_VERSION
  (0x4000, 1024, 0x2, 1, 1, 1, 0, 0x3, false),  -- CLASS
  (0x4000, 1024, 0x3, 1, 2, 1, 0, 0x1, false),  -- PERIOD_BEATS
  (0x4000, 1024, 0x4, 1, 2, 1, 0, 0x0, false),  -- OFFSET_BEATS
  (0x4000, 1024, 0x5, 1, 2, 1, 0, 0x1, false),  -- DEADLINE_BEATS
  (0x4000, 1024, 0x6, 1, 2, 1, 0, 0x14, false),  -- WAKE_LEAD_NS
  (0x4000, 1024, 0x7, 1, 2, 1, 0, 0xffff, false),  -- CHAIN_PREDECESSOR
  (0x4000, 1024, 0x8, 1, 4, 1, 0, 0x0, false),  -- INGEST_BYTES
  (0x4000, 1024, 0x9, 1, 1, 1, 0, 0x2, false),  -- STEAL_GROUP
  (0x4000, 1024, 0xa, 1, 1, 1, 0, 0x0, false),  -- ADMIT_REQUEST
  (0x4000, 1024, 0xb, 1, 1, 0, 0, 0x0, false),  -- ADMIT_STATUS
  (0x4000, 1024, 0xc, 1, 2, 0, 0, 0x0, false),  -- REFUSAL_REASON
  (0x4000, 1024, 0xd, 1, 2, 0, 0, 0x0, false),  -- RESPONSE_BEATS
  (0x4000, 1024, 0xe, 1, 1, 0, 0, 0xff, false),  -- ACTIVE_PLACEMENT
  (0x4000, 1024, 0xf, 1, 2, 0, 0, 0x0, false),  -- EFFECTIVE_OFFSET
  (0x4000, 1024, 0x10, 1, 8, 1, 0, 0x0, false),  -- QUAD_GROUP, placement p
  (0x4000, 1024, 0x11, 1, 4, 1, 0, 0x0, false),  -- WORK_CYCLES, placement p
  (0x4000, 1024, 0x12, 1, 2, 1, 0, 0x0, false),  -- LONGEST_PASS, placement p
  (0x4000, 1024, 0x13, 1, 4, 1, 0, 0x0, false),  -- MEM_BYTES, placement p
  (0x4000, 1024, 0x14, 1, 4, 1, 0, 0x0, false),  -- LINK_BYTES, placement p
  (0x4000, 1024, 0x15, 1, 1, 1, 0, 0x0, false),  -- LINK_HOPS, placement p
  (0x4000, 1024, 0x16, 10, 4, 1, 0, 0x0, false),  -- reserved placement field
  (0x4000, 1024, 0x20, 1, 8, 1, 0, 0x0, false),  -- QUAD_GROUP, placement p
  (0x4000, 1024, 0x21, 1, 4, 1, 0, 0x0, false),  -- WORK_CYCLES, placement p
  (0x4000, 1024, 0x22, 1, 2, 1, 0, 0x0, false),  -- LONGEST_PASS, placement p
  (0x4000, 1024, 0x23, 1, 4, 1, 0, 0x0, false),  -- MEM_BYTES, placement p
  (0x4000, 1024, 0x24, 1, 4, 1, 0, 0x0, false),  -- LINK_BYTES, placement p
  (0x4000, 1024, 0x25, 1, 1, 1, 0, 0x0, false),  -- LINK_HOPS, placement p
  (0x4000, 1024, 0x26, 10, 4, 1, 0, 0x0, false),  -- reserved placement field
  (0x4000, 1024, 0x30, 1, 8, 1, 0, 0x0, false),  -- QUAD_GROUP, placement p
  (0x4000, 1024, 0x31, 1, 4, 1, 0, 0x0, false),  -- WORK_CYCLES, placement p
  (0x4000, 1024, 0x32, 1, 2, 1, 0, 0x0, false),  -- LONGEST_PASS, placement p
  (0x4000, 1024, 0x33, 1, 4, 1, 0, 0x0, false),  -- MEM_BYTES, placement p
  (0x4000, 1024, 0x34, 1, 4, 1, 0, 0x0, false),  -- LINK_BYTES, placement p
  (0x4000, 1024, 0x35, 1, 1, 1, 0, 0x0, false),  -- LINK_HOPS, placement p
  (0x4000, 1024, 0x36, 10, 4, 1, 0, 0x0, false),  -- reserved placement field
  (0x4000, 1024, 0x40, 1, 8, 1, 0, 0x0, false),  -- QUAD_GROUP, placement p
  (0x4000, 1024, 0x41, 1, 4, 1, 0, 0x0, false),  -- WORK_CYCLES, placement p
  (0x4000, 1024, 0x42, 1, 2, 1, 0, 0x0, false),  -- LONGEST_PASS, placement p
  (0x4000, 1024, 0x43, 1, 4, 1, 0, 0x0, false),  -- MEM_BYTES, placement p
  (0x4000, 1024, 0x44, 1, 4, 1, 0, 0x0, false),  -- LINK_BYTES, placement p
  (0x4000, 1024, 0x45, 1, 1, 1, 0, 0x0, false),  -- LINK_HOPS, placement p
  (0x4000, 1024, 0x46, 10, 4, 1, 0, 0x0, false),  -- reserved placement field
  (0x4000, 1024, 0x50, 1, 8, 0, 0, 0x0, false),  -- REFUSED_INGEST_BYTES
  (0x4000, 1024, 0x51, 1, 4, 0, 0, 0x0, false),  -- REFUSED_RECORDS
  (0x4000, 1024, 0x52, 1, 4, 0, 0, 0x0, false),  -- BUDGET_OVERRUNS
  (0x4000, 1024, 0x53, 1, 4, 0, 0, 0x0, false),  -- DEMOTED_BURSTS
  (0x4000, 1024, 0x54, 1, 4, 0, 0, 0x0, false)  -- DEMOTED_PACKETS
  ]

/-- R302. -/
def obj4800 : List ObjRow := [
  (0x4800, 64, 0x0, 1, 1, 5, 0, 0xe2, false),  -- Highest sub-index
  (0x4800, 64, 0xe0, 1, 1, 2, 0, 0x1, false),  -- GROUP_VERSION
  (0x4800, 64, 0xe1, 1, 128, 2, 0, 0x0, false),  -- MEMBERS
  (0x4800, 64, 0xe2, 1, 2, 0, 0, 0x0, false)  -- MEMBER_COUNT
  ]

/-- R55, R73, R103, R126, R155, R185, R377, R406, R473. -/
def obj5000p0 : List ObjRow := [
  (0x5000, 64, 0x0, 1, 1, 5, 0, 0xa8, false),  -- Highest sub-index
  (0x5000, 64, 0x10, 1, 2, 2, 0, 0x3e8, false),  -- ADMIT_CLOCK_MHZ
  (0x5000, 64, 0x11, 1, 2, 0, 0, 0x0, false),  -- ARRAY_LOAD_PERMILLE
  (0x5000, 64, 0x20, 1, 8, 0, 0, 0x0, false),  -- PASSES_DRAINED
  (0x5000, 64, 0x21, 1, 4, 0, 0, 0x0, false),  -- PASSES_ACC_SAT
  (0x5000, 64, 0x22, 1, 4, 0, 0, 0x0, false),  -- PASSES_OUT_SAT
  (0x5000, 64, 0x23, 1, 4, 0, 0, 0x0, false),  -- PASSES_SPECIAL
  (0x5000, 64, 0x24, 1, 4, 0, 0, 0x0, false),  -- PASSES_ABANDONED
  (0x5000, 64, 0x25, 1, 4, 0, 0, 0x0, false),  -- PASSES_RERUN
  (0x5000, 64, 0x26, 1, 4, 0, 0, 0x0, false),  -- SPLIT_PASSES
  (0x5000, 64, 0x30, 1, 1, 0, 0, 0x0, false),  -- TILEQ_HIGH_WATER
  (0x5000, 64, 0x31, 1, 8, 0, 0, 0x0, false),  -- TILES_TAKEN_IN
  (0x5000, 64, 0x32, 1, 8, 0, 0, 0x0, false),  -- TILES_TAKEN_OUT
  (0x5000, 64, 0x33, 1, 4, 0, 0, 0x0, false),  -- SEQ_REFUSALS
  (0x5000, 64, 0x34, 1, 4, 0, 0, 0x0, false),  -- LAST_REFUSAL
  (0x5000, 64, 0x40, 1, 4, 0, 0, 0x0, false),  -- LB_WRITE_HOLDS
  (0x5000, 64, 0x41, 1, 4, 0, 0, 0x0, false),  -- LB_OVERRUN_ROWS
  (0x5000, 64, 0x42, 1, 4, 0, 0, 0x0, false),  -- CMP_MALFORMED
  (0x5000, 64, 0x50, 1, 8, 0, 0, 0x0, false),  -- CHAINS_RUN
  (0x5000, 64, 0x51, 1, 4, 0, 0, 0x0, false),  -- CHAINS_OUT_SAT
  (0x5000, 64, 0x52, 1, 4, 0, 0, 0x0, false),  -- CHAINS_ABANDONED
  (0x5000, 64, 0x53, 1, 1, 0, 0, 0x0, false),  -- VQ_HIGH_WATER
  (0x5000, 64, 0x54, 1, 4, 0, 0, 0x0, false),  -- VQ_DISCARDED
  (0x5000, 64, 0x60, 1, 2, 2, 0, 0x0, false),  -- CACHE_KIB
  (0x5000, 64, 0x61, 1, 8, 0, 0, 0x0, false),  -- CACHE_HITS
  (0x5000, 64, 0x62, 1, 8, 0, 0, 0x0, false),  -- CACHE_MISSES
  (0x5000, 64, 0x63, 1, 4, 0, 0, 0x0, false),  -- SRAM_CE_COUNT
  (0x5000, 64, 0x64, 1, 4, 0, 0, 0x0, false),  -- SRAM_UE_COUNT
  (0x5000, 64, 0x70, 3, 4, 0, 0, 0x0, false),  -- CH_CE_COUNT
  (0x5000, 64, 0x73, 1, 4, 0, 0, 0x0, false),  -- reserved
  (0x5000, 64, 0x74, 3, 4, 0, 0, 0x0, false),  -- CH_UE_COUNT
  (0x5000, 64, 0x77, 1, 4, 0, 0, 0x0, false),  -- reserved
  (0x5000, 64, 0x78, 3, 8, 0, 0, 0x0, false),  -- CH_COLLISIONS
  (0x5000, 64, 0x7b, 1, 4, 0, 0, 0x0, false),  -- reserved
  (0x5000, 64, 0x7c, 3, 4, 0, 0, 0x0, false),  -- CH_CE_WB_DROPPED
  (0x5000, 64, 0x7f, 1, 4, 0, 0, 0x0, false),  -- reserved
  (0x5000, 64, 0x80, 3, 4, 0, 0, 0x0, false),  -- CH_SCRUB_PASSES
  (0x5000, 64, 0x83, 1, 4, 0, 0, 0x0, false),  -- reserved
  (0x5000, 64, 0x84, 3, 1, 0, 0, 0x0, true),  -- CH_REFRESH_HOT
  (0x5000, 64, 0x87, 1, 4, 0, 0, 0x0, false),  -- reserved
  (0x5000, 64, 0x90, 1, 4, 0, 0, 0x0, false),  -- T_JUNCTION_C
  (0x5000, 64, 0x91, 1, 2, 0, 0, 0x3e8, false),  -- CLOCK_MHZ
  (0x5000, 64, 0x92, 1, 2, 0, 22, 0x0, false),  -- VOLT_MV
  (0x5000, 64, 0x93, 1, 2, 5, 22, 0x0, false),  -- VF_1000_MV
  (0x5000, 64, 0x94, 1, 2, 5, 23, 0x0, false),  -- VF_900_MV
  (0x5000, 64, 0x95, 1, 2, 5, 24, 0x0, false),  -- VF_800_MV
  (0x5000, 64, 0x96, 1, 2, 5, 25, 0x0, false),  -- VF_500_MV
  (0x5000, 64, 0x97, 1, 1, 0, 0, 0x0, false),  -- VOLT_OFFSET_STEPS
  (0x5000, 64, 0x98, 1, 8, 0, 0, 0x0, false),  -- GUSTS
  (0x5000, 64, 0x99, 1, 4, 0, 0, 0x0, false),  -- DROOP_EVENTS
  (0x5000, 64, 0x9a, 1, 8, 0, 0, 0x0, false),  -- STRETCH_EIGHTHS
  (0x5000, 64, 0x9b, 1, 4, 0, 0, 0x0, false),  -- CREDIT_EXHAUSTED
  (0x5000, 64, 0x9c, 1, 4, 0, 0, 0x0, false),  -- STEPS_DEFERRED
  (0x5000, 64, 0x9d, 1, 1, 0, 0, 0x1, true),  -- POWERED
  (0x5000, 64, 0xa0, 1, 1, 0, 0, 0x0, false),  -- QUAD_HEALTH
  (0x5000, 64, 0xa1, 1, 8, 0, 0, 0x0, false),  -- CLEAN_THROUGH_BEAT
  (0x5000, 64, 0xa2, 1, 4, 0, 0, 0x0, false),  -- GARNET_PASSED
  (0x5000, 64, 0xa3, 1, 4, 0, 0, 0x0, false),  -- GARNET_FAILED
  (0x5000, 64, 0xa4, 1, 4, 0, 0, 0x0, false),  -- CHECKSUM_MISMATCHES
  (0x5000, 64, 0xa5, 1, 4, 0, 0, 0x0, false)  -- DUP_MISMATCHES
  ]

/-- R406. -/
def obj5000p1 : List ObjRow := [
  (0x5000, 64, 0xa6, 1, 4, 0, 0, 0x0, false),  -- CHECKS_SKIPPED
  (0x5000, 64, 0xa7, 1, 4, 0, 0, 0x0, false),  -- SUSPECT_EPISODES
  (0x5000, 64, 0xa8, 1, 1, 0, 0, 0x0, false)  -- RETEST_REMEDY
  ]

/-- R270. -/
def obj6000 : List ObjRow := [
  (0x6000, 64, 0x0, 1, 1, 5, 0, 0x4a, false),  -- Highest sub-index
  (0x6000, 64, 0x1, 1, 1, 2, 0, 0x1, false),  -- OUT_VERSION
  (0x6000, 64, 0x2, 1, 1, 2, 0, 0x0, true),  -- ENABLE
  (0x6000, 64, 0x3, 1, 1, 2, 0, 0x0, false),  -- TYPE
  (0x6000, 64, 0x4, 1, 2, 2, 0, 0xffff, false),  -- CONTEXT
  (0x6000, 64, 0x5, 1, 1, 2, 0, 0xff, false),  -- TAP_STREAM
  (0x6000, 64, 0x6, 1, 1, 2, 0, 0x0, false),  -- PORT
  (0x6000, 64, 0x7, 1, 4, 2, 0, 0x0, false),  -- MAX_PAYLOAD_BYTES
  (0x6000, 64, 0x8, 1, 1, 2, 0, 0x0, false),  -- MAX_SOURCES
  (0x6000, 64, 0x9, 1, 1, 2, 0, 0x0, false),  -- CLOSE_MODE
  (0x6000, 64, 0xa, 1, 4, 2, 0, 0x0, false),  -- INPUT_ALLOWANCE_NS
  (0x6000, 64, 0xb, 1, 2, 2, 0, 0x0, false),  -- CONTENT_GAP_BEATS
  (0x6000, 64, 0xc, 52, 4, 2, 0, 0x0, false),  -- reserved
  (0x6000, 64, 0x40, 1, 1, 0, 0, 0x0, false),  -- STREAM_STATE
  (0x6000, 64, 0x41, 1, 4, 0, 0, 0x0, false),  -- SEQ
  (0x6000, 64, 0x42, 1, 4, 0, 0, 0xffffffff, false),  -- WATERMARK
  (0x6000, 64, 0x43, 1, 4, 0, 0, 0x0, false),  -- AGE_BOUND_NS
  (0x6000, 64, 0x44, 1, 8, 0, 0, 0x0, false),  -- RECORDS_CLOSED
  (0x6000, 64, 0x45, 1, 4, 0, 0, 0x0, false),  -- RESULTS_WITHHELD
  (0x6000, 64, 0x46, 1, 4, 0, 0, 0x0, false),  -- RESULTS_RETRACTED
  (0x6000, 64, 0x47, 1, 4, 0, 0, 0x0, false),  -- AGE_EXCEEDED
  (0x6000, 64, 0x48, 1, 4, 0, 0, 0x0, false),  -- RECORDS_DROPPED
  (0x6000, 64, 0x49, 1, 4, 0, 0, 0x0, false),  -- MAX_AGE_NS
  (0x6000, 64, 0x4a, 1, 4, 0, 0, 0x0, false)  -- UNRESOLVED_SOURCES
  ]

/-- R271. -/
def obj6080 : List ObjRow := [
  (0x6080, 1, 0x0, 1, 1, 5, 0, 0x22, false),  -- Highest sub-index
  (0x6080, 1, 0x1, 1, 1, 5, 0, 0x1, false),  -- RESULT_VERSION
  (0x6080, 1, 0x2, 1, 2, 5, 0, 0x8000, false),  -- RT_ENTRIES
  (0x6080, 1, 0x3, 32, 2, 2, 0, 0x400, false)  -- RT_SHARE_n
  ]

/-- R271. -/
def obj6090 : List ObjRow := [
  (0x6090, 1, 0x0, 1, 1, 5, 0, 0x5, false),  -- Highest sub-index
  (0x6090, 1, 0x1, 1, 1, 1, 0, 0x1, false),  -- HANDLE_KIND
  (0x6090, 1, 0x2, 1, 2, 1, 0, 0x1, false),  -- HANDLE_SELECT
  (0x6090, 1, 0x3, 1, 64, 0, 0, 0x0, false),  -- HANDLE_DIGEST
  (0x6090, 1, 0x4, 1, 8, 0, 0, 0x0, false),  -- HANDLE_LOAD_BEAT
  (0x6090, 1, 0x5, 1, 2, 0, 0, 0x1, false)  -- NEXT_HANDLE
  ]

/-- The table that holds an index: its first index, how many indices it spans, and its rows. -/
def objTables : List (Nat × Nat × List ObjRow) :=
  [(0x1000, 1, obj1000),
   (0x1001, 1, obj1001),
   (0x1008, 1, obj1008),
   (0x1009, 1, obj1009),
   (0x100a, 1, obj100A),
   (0x1017, 1, obj1017),
   (0x1018, 1, obj1018),
   (0x2000, 1, obj2000),
   (0x2001, 1, obj2001),
   (0x2002, 1, obj2002),
   (0x2003, 1, obj2003),
   (0x2010, 1, obj2010),
   (0x2100, 1, obj2100),
   (0x2101, 1, obj2101),
   (0x2102, 1, obj2102),
   (0x2120, 32, obj2120),
   (0x2140, 20, obj2140),
   (0x2200, 1, obj2200),
   (0x2202, 1, obj2202),
   (0x2210, 1, obj2210)] ++
  [(0x2220, 1, obj2220),
   (0x2230, 1, obj2230),
   (0x2280, 8, obj2280),
   (0x2290, 2, obj2290),
   (0x2300, 1, obj2300),
   (0x2320, 1, obj2320),
   (0x2330, 1, obj2330),
   (0x2340, 16, obj2340),
   (0x2390, 1, obj2390),
   (0x2400, 1, obj2400),
   (0x2401, 1, obj2401),
   (0x2410, 1, obj2410),
   (0x2420, 1, obj2420),
   (0x2430, 1, obj2430),
   (0x2450, 1, obj2450),
   (0x2500, 1, obj2500),
   (0x2510, 6, obj2510),
   (0x2530, 1, obj2530),
   (0x2540, 1, obj2540),
   (0x2600, 1, obj2600)] ++
  [(0x2610, 1, obj2610),
   (0x2640, 128, obj2640),
   (0x26c0, 1, obj26C0),
   (0x26e0, 32, obj26E0),
   (0x2700, 1, obj2700),
   (0x2710, 3, obj2710),
   (0x2720, 32, obj2720),
   (0x2800, 1, obj2800),
   (0x2801, 1, obj2801),
   (0x2810, 2, obj2810),
   (0x2820, 5, obj2820),
   (0x3000, 16, obj3000),
   (0x3010, 16, obj3010),
   (0x3100, 64, obj3100),
   (0x4000, 1024, obj4000),
   (0x4800, 64, obj4800),
   (0x5000, 64, obj5000p0 ++ obj5000p1),
   (0x6000, 64, obj6000),
   (0x6080, 1, obj6080),
   (0x6090, 1, obj6090)]

end Sys2Proof.Machine
end

