-- ==== Sys2Proof/Machine/Num.lean ====
section
/-! DEFINITION. The number formats of 03 R62 and R88, exact dyadic values, and the roundings of R66 to R68: every
arithmetic unit of the block computes with these. -/

namespace Sys2Proof.Machine

/-! ## Exact values: mantissa and power of two -/

/-- Floor of the base-two logarithm of a positive magnitude m × 2^e. -/
def dyLog (m : Nat) (e : Int) : Int := (Nat.log2 m : Int) + e

/-- m × 2^e rounded to an integer, to nearest with ties to the even value; the sign is the caller's. -/
def rneNat (m : Nat) (e : Int) : Nat :=
  if 0 ≤ e then m * 2 ^ e.toNat
  else
    let k := (-e).toNat
    let q := m / 2 ^ k
    let r := m % 2 ^ k
    let h := 2 ^ (k - 1)
    if r > h ∨ (r = h ∧ q % 2 = 1) then q + 1 else q

/-- a / b rounded to nearest, ties to even. -/
def rneRatio (a b : Nat) : Nat :=
  let q := a / b
  let r := a % b
  if b < 2 * r ∨ (2 * r = b ∧ q % 2 = 1) then q + 1 else q

/-- An integer m × 2^e truncated toward zero, and whether anything was cut off (R65). -/
def truncDy (m : Int) (e : Int) : Int × Bool :=
  if 0 ≤ e then (m * 2 ^ e.toNat, false)
  else
    let k := (-e).toNat
    let a := m.natAbs
    let q : Int := ((a / 2 ^ k : Nat) : Int)
    (if m < 0 then -q else q, a % 2 ^ k != 0)

/-- A sign and magnitude of two's complement integers. -/
def signMul (neg : Bool) (n : Nat) : Int := if neg then -(n : Int) else (n : Int)

/-! ## Floating-point formats -/

/-- The exponent bits, fraction bits, bias and largest finite encoding (without sign) of an output or operand format. -/
structure FpFmt where
  expBits : Nat
  manBits : Nat
  bias : Nat
  maxFinite : Nat
  deriving DecidableEq, Repr

def fp32 : FpFmt := ⟨8, 23, 127, 0x7F7FFFFF⟩
def bf16 : FpFmt := ⟨8, 7, 127, 0x7F7F⟩
def fp16 : FpFmt := ⟨5, 10, 15, 0x7BFF⟩
def e4m3 : FpFmt := ⟨4, 3, 7, 0x7E⟩
def e5m2 : FpFmt := ⟨5, 2, 15, 0x7B⟩
def e2m3 : FpFmt := ⟨2, 3, 1, 0x1F⟩
def e3m2 : FpFmt := ⟨3, 2, 3, 0x1F⟩
def e2m1 : FpFmt := ⟨2, 1, 1, 0x7⟩

/-- Bits of an encoding of the format, its sign included. -/
def fpWidth (f : FpFmt) : Nat := 1 + f.expBits + f.manBits

/-- The sign bit of an encoding. -/
def fpNeg (f : FpFmt) (x : Nat) : Bool := x.testBit (f.expBits + f.manBits)

/-- An encoding without its sign. -/
def fpMag (f : FpFmt) (x : Nat) : Nat := x % 2 ^ (f.expBits + f.manBits)

/-- The exact value of a finite encoding, as a signed mantissa and a power of two, subnormals included. -/
def fpVal (f : FpFmt) (x : Nat) : Int × Int :=
  let mag := fpMag f x
  let ex := mag / 2 ^ f.manBits
  let fr := mag % 2 ^ f.manBits
  let m := if ex = 0 then fr else 2 ^ f.manBits + fr
  let e : Int := (if ex = 0 then (1 : Int) else (ex : Int)) - f.bias - f.manBits
  (signMul (fpNeg f x) m, e)

/-- The encoding, without its sign, of a magnitude m × 2^e rounded to nearest even, before any limit: an encoding
above `maxFinite` has overflowed. -/
def fpRoundMag (f : FpFmt) (m : Nat) (e : Int) : Nat :=
  if m = 0 then 0
  else
    let emin : Int := 1 - f.bias
    let l := dyLog m e
    let q : Int := (if l < emin then emin else l) - f.manBits
    let r := rneNat m (e - q)
    ((q - (emin - f.manBits)).toNat) * 2 ^ f.manBits + r

/-- An encoding with its sign. -/
def fpSigned (f : FpFmt) (neg : Bool) (mag : Nat) : Nat :=
  if neg then 2 ^ (f.expBits + f.manBits) + mag else mag

/-- R66: the exact value m × 2^e in a floating-point output: an exact 0 gives +0, a non-zero value that rounds to zero
keeps its sign, and a rounded magnitude above the largest finite value gives that value and saturates. -/
def drainFp (f : FpFmt) (m : Int) (e : Int) : Nat × Bool :=
  if m = 0 then (0, false)
  else
    let r := fpRoundMag f m.natAbs e
    if f.maxFinite < r then (fpSigned f (decide (m < 0)) f.maxFinite, true)
    else (fpSigned f (decide (m < 0)) r, false)

/-- R66: the exact value m × 2^e in a two's-complement output of `w` bits with OUT_LSB `lsb`. -/
def drainInt (w : Nat) (m : Int) (e lsb : Int) : Nat × Bool :=
  let r := signMul (decide (m < 0)) (rneNat m.natAbs (e - lsb))
  let lo : Int := -(2 ^ (w - 1) : Int)
  let hi : Int := (2 ^ (w - 1) : Int) - 1
  (twos w (clampInt lo hi r), decide (r < lo) || decide (hi < r))

/-! ## FP32 arithmetic, rounded to nearest even (R67) -/

/-- The canonical NaN of FP32 (R67). -/
def fNaN : Nat := 0x7FC00000

def fInf (neg : Bool) : Nat := fpSigned fp32 neg 0x7F800000

def fIsNaN (x : Nat) : Bool := decide (0x7F800000 < fpMag fp32 x)
def fIsInf (x : Nat) : Bool := fpMag fp32 x == 0x7F800000
def fIsZero (x : Nat) : Bool := fpMag fp32 x == 0
def fIsSpecial (x : Nat) : Bool := decide (0x7F800000 ≤ fpMag fp32 x)

/-- The exact value m × 2^e as FP32 under IEEE 754: overflow gives infinity; `zneg` is the sign of an exact zero. -/
def fRound (zneg : Bool) (m : Int) (e : Int) : Nat :=
  if m = 0 then fpSigned fp32 zneg 0
  else
    let r := fpRoundMag fp32 m.natAbs e
    if fp32.maxFinite < r then fInf (decide (m < 0)) else fpSigned fp32 (decide (m < 0)) r

/-- The sum of two dyadic values. -/
def dyAdd (a b : Int × Int) : Int × Int :=
  if a.2 ≤ b.2 then (a.1 + b.1 * 2 ^ (b.2 - a.2).toNat, a.2)
  else (a.1 * 2 ^ (a.2 - b.2).toNat + b.1, b.2)

/-- FP32 addition. -/
def fAdd (a b : Nat) : Nat :=
  if fIsNaN a || fIsNaN b then fNaN
  else if fIsInf a then
    if fIsInf b && (fpNeg fp32 a != fpNeg fp32 b) then fNaN else a
  else if fIsInf b then b
  else
    let s := dyAdd (fpVal fp32 a) (fpVal fp32 b)
    fRound (fIsZero a && fIsZero b && fpNeg fp32 a && fpNeg fp32 b) s.1 s.2

/-- An FP32 value with its sign turned. -/
def fNegate (a : Nat) : Nat := if fIsNaN a then fNaN else fpSigned fp32 (!fpNeg fp32 a) (fpMag fp32 a)

/-- FP32 subtraction. -/
def fSub (a b : Nat) : Nat := fAdd a (fNegate b)

/-- FP32 multiplication. -/
def fMul (a b : Nat) : Nat :=
  let neg := fpNeg fp32 a != fpNeg fp32 b
  if fIsNaN a || fIsNaN b then fNaN
  else if fIsInf a || fIsInf b then
    if fIsZero a || fIsZero b then fNaN else fInf neg
  else
    let x := fpVal fp32 a
    let y := fpVal fp32 b
    fRound neg (x.1 * y.1) (x.2 + y.2)

/-- FP32 a × b + c rounded once. -/
def fMulAdd (a b c : Nat) : Nat :=
  let neg := fpNeg fp32 a != fpNeg fp32 b
  if fIsNaN a || fIsNaN b || fIsNaN c then fNaN
  else if fIsInf a || fIsInf b then
    if fIsZero a || fIsZero b then fNaN
    else if fIsInf c && (fpNeg fp32 c != neg) then fNaN
    else fInf neg
  else if fIsInf c then c
  else
    let x := fpVal fp32 a
    let y := fpVal fp32 b
    let p : Int × Int := (x.1 * y.1, x.2 + y.2)
    let s := dyAdd p (fpVal fp32 c)
    fRound ((decide (p.1 = 0)) && fIsZero c && neg && fpNeg fp32 c) s.1 s.2

/-- An exact quotient a / b of integers scaled by 2^e, rounded to FP32: 64 quotient bits and a sticky bit keep every
rounding right. -/
def fRoundQuot (neg : Bool) (a b : Nat) (e : Int) : Nat :=
  if a = 0 then fpSigned fp32 neg 0
  else
    let k := 64 + Nat.log2 b
    let n := a * 2 ^ k
    let q := 2 * (n / b) + b2n (n % b != 0)
    fRound neg (signMul neg q) (e - k - 1)

/-- FP32 division. -/
def fDiv (a b : Nat) : Nat :=
  let neg := fpNeg fp32 a != fpNeg fp32 b
  if fIsNaN a || fIsNaN b then fNaN
  else if fIsInf a then (if fIsInf b then fNaN else fInf neg)
  else if fIsInf b then fpSigned fp32 neg 0
  else if fIsZero b then (if fIsZero a then fNaN else fInf neg)
  else
    let x := fpVal fp32 a
    let y := fpVal fp32 b
    fRoundQuot neg x.1.natAbs y.1.natAbs (x.2 - y.2)

/-- Whether one FP32 value is below another; false when either is NaN. -/
def fLt (a b : Nat) : Bool :=
  if fIsNaN a || fIsNaN b then false
  else
    let x : Int := signMul (fpNeg fp32 a) (fpMag fp32 a)
    let y : Int := signMul (fpNeg fp32 b) (fpMag fp32 b)
    decide (x < y)

/-- Whether one FP32 value is at most another; false when either is NaN. -/
def fLe (a b : Nat) : Bool :=
  if fIsNaN a || fIsNaN b then false
  else
    let x : Int := signMul (fpNeg fp32 a) (fpMag fp32 a)
    let y : Int := signMul (fpNeg fp32 b) (fpMag fp32 b)
    decide (x ≤ y)

/-- An integer as FP32. -/
def fOfInt (i : Int) : Nat := fRound false i 0

/-! ## Operand elements and block scales (R62, R88) -/

/-- The exact value of one operand element under a format code of R88; none for a special encoding. -/
def elemVal (fmt x : Nat) : Option (Int × Int) :=
  match fmt with
  | 0x0 => some (sgn 8 x, 0)
  | 0x1 => some (sgn 4 x, 0)
  | 0x2 | 0x5 => if x % 128 = 127 then none else some (fpVal e4m3 (x % 256))
  | 0x3 | 0x6 => if 0x7C ≤ x % 128 then none else some (fpVal e5m2 (x % 256))
  | 0x4 => some (sgn 8 x, -6)
  | 0x7 => some (fpVal e2m3 (x % 64))
  | 0x8 => some (fpVal e3m2 (x % 64))
  | 0x9 => some (fpVal e2m1 (x % 16))
  | 0xA => if 0x7F80 ≤ x % 0x8000 then none else some (fpVal bf16 (x % 65536))
  | _ => none

/-- Whether a format code is an MX (block-scaled) format. -/
def isMx (fmt : Nat) : Bool := decide (4 ≤ fmt) && decide (fmt ≤ 9)

/-- Whether a format code holds two elements per byte at the 4-bit rate. -/
def isFour (fmt : Nat) : Bool := fmt == 1 || fmt == 9

/-- The bits one stored element counts as: 4 for INT4 and MXFP4, 16 for BF16, otherwise 8 (R89: an MXFP6 element
counts as 8). -/
def elemBits (fmt : Nat) : Nat := if isFour fmt then 4 else if fmt = 0xA then 16 else 8

/-- The exponent of an E8M0 block scale; none for the NaN encoding 0xFF (R62, R64). -/
def scaleExp (s : Nat) : Option Int := if s % 256 = 0xFF then none else some ((s % 256 : Nat) - 127)

/-- Whether a format code of R88 is one of an operand. -/
def fmtInOk (fmt : Nat) : Bool := decide (fmt ≤ 0xA)

/-- Whether a format code of R88 is one of a drained tile. -/
def fmtOutOk (fmt : Nat) : Bool := decide (fmt ≤ 7)

/-- Whether an output format is a floating-point one (R66). -/
def fmtOutFp (fmt : Nat) : Bool := decide (fmt ≤ 4)

/-- The bytes of one drained element. -/
def outBytes (fmt : Nat) : Nat :=
  match fmt with
  | 0 | 5 => 4
  | 1 | 2 | 6 => 2
  | _ => 1

/-- The floating-point format behind an output code. -/
def outFp (fmt : Nat) : FpFmt :=
  match fmt with
  | 0 => fp32
  | 1 => bf16
  | 2 => fp16
  | 3 => e4m3
  | _ => e5m2

/-- The width of an integer output code. -/
def outIntBits (fmt : Nat) : Nat :=
  match fmt with
  | 5 => 32
  | 6 => 16
  | _ => 8

/-! ## Conversion at the drain -/

/-- R66: an exact value m × 2^e in an output format. -/
def drainExact (fmt : Nat) (lsb : Int) (m e : Int) : Nat × Bool :=
  if fmtOutFp fmt then drainFp (outFp fmt) m e else drainInt (outIntBits fmt) m e lsb

/-- R68: an FP32 value in an output format. -/
def drainF32 (fmt : Nat) (lsb : Int) (x : Nat) : Nat × Bool :=
  let neg := fpNeg fp32 x
  if fmtOutFp fmt then
    let f := outFp fmt
    if fIsNaN x then
      (match fmt with | 0 => fNaN | 1 => 0x7FC0 | 2 => 0x7E00 | _ => 0x7F, false)
    else if fIsInf x then
      match fmt with
      | 0 => (fInf neg, false)
      | 1 => (fpSigned bf16 neg 0x7F80, false)
      | 2 => (fpSigned fp16 neg 0x7C00, false)
      | 3 => (fpSigned e4m3 neg 0x7E, true)
      | _ => (fpSigned e5m2 neg 0x7C, false)
    else if fIsZero x then (fpSigned f neg 0, false)
    else
      let v := fpVal fp32 x
      drainFp f v.1 v.2
  else
    let w := outIntBits fmt
    if fIsNaN x then (0, true)
    else if fIsInf x then (if neg then 2 ^ (w - 1) else 2 ^ (w - 1) - 1, true)
    else
      let v := fpVal fp32 x
      drainInt w v.1 v.2 lsb

/-! ## The exact sum (R65) -/

/-- The accumulator and counts of one output element. -/
structure AccEl where
  acc : Int
  trunc : Nat
  special : Nat
  sat : Bool
  /-- Max pooling has kept a tap (05 R125). -/
  seen : Bool
  deriving DecidableEq, Repr

/-- One product of R65 added in: `a` and `b` the elements with their formats, `sa` and `sb` their block scales. -/
def accTerm (w : Int) (av bv : Option (Int × Int)) (sa sb : Option Int) (s : AccEl) : AccEl :=
  match av, bv, sa, sb with
  | some a, some b, some ea, some eb =>
    let u := truncDy (a.1 * b.1) (a.2 + b.2 + ea + eb - w)
    let top : Int := 2 ^ 63 - 1
    let t := clampInt (-top) top u.1
    { s with acc := s.acc + t, trunc := s.trunc + b2n u.2, sat := s.sat || (t != u.1) }
  | _, _, _, _ => { s with special := s.special + 1 }

/-- The single clamp of R65 at the end of a pass. -/
def accClamp (s : AccEl) : AccEl :=
  let a := clampInt (-(2 ^ 63 : Int)) ((2 ^ 63 : Int) - 1) s.acc
  { s with acc := a, sat := s.sat || (a != s.acc) }

/-- A BF16 product rounded to FP32 (R67). -/
def bfMul (a b : Nat) : Nat := fMul (a * 65536) (b * 65536)

/-- Whether a BF16 operand is infinite or NaN. -/
def bfSpecial (x : Nat) : Bool := decide (0x7F80 ≤ x % 0x8000)

end Sys2Proof.Machine
end

