-- ==== Sys2Proof/Machine/Tab.lean ====
section
/-! DEFINITION. Sparse tables in one canonical form (keys strictly rising, no entry equal to what an unlisted key
reads as), so that equal tables are equal data. Memory, the object dictionary and every file of numbered units are
such tables. -/

namespace Sys2Proof.Machine

/-- A sparse table: key and value pairs. -/
abbrev Tab (α : Type) := List (Nat × α)

/-- What a key holds, if it is listed. -/
def tabFind {α : Type} : Tab α → Nat → Option α
  | [], _ => none
  | (k, v) :: r, key => if k = key then some v else tabFind r key

/-- What a key reads as, `d` when it is not listed. -/
def tabGet {α : Type} (d : α) (t : Tab α) (key : Nat) : α := (tabFind t key).getD d

/-- A table with a key's entry put in its place. -/
def tabInsert {α : Type} : Tab α → Nat → α → Tab α
  | [], key, v => [(key, v)]
  | (k, u) :: r, key, v =>
    if key < k then (key, v) :: (k, u) :: r
    else if k = key then (key, v) :: r
    else (k, u) :: tabInsert r key v

/-- A table with a key's entry taken out. -/
def tabErase {α : Type} (t : Tab α) (key : Nat) : Tab α := t.filter (fun p => p.1 != key)

/-- Write a key: the value an unlisted key reads as removes the entry. -/
def tabSet {α : Type} [DecidableEq α] (d : α) (t : Tab α) (key : Nat) (v : α) : Tab α :=
  if v = d then tabErase t key else tabInsert t key v

/-- Change a key's value. -/
def tabMod {α : Type} [DecidableEq α] (d : α) (t : Tab α) (key : Nat) (f : α → α) : Tab α :=
  tabSet d t key (f (tabGet d t key))

/-- Change every listed key's value. -/
def tabMap {α : Type} [DecidableEq α] (d : α) (f : Nat → α → α) (t : Tab α) : Tab α :=
  (t.map (fun p => (p.1, f p.1 p.2))).filter (fun p => p.2 != d)

/-- The keys rise strictly. -/
def tabRising {α : Type} : Tab α → Bool
  | [] => true
  | [_] => true
  | (k, _) :: (j, v) :: r => decide (k < j) && tabRising ((j, v) :: r)

/-- The canonical form: the keys rise strictly and no entry equals what an unlisted key reads as. -/
def tabWf {α : Type} [DecidableEq α] (d : α) (t : Tab α) : Bool :=
  tabRising t && t.all (fun p => p.2 != d)

/-! ## Memory -/

/-- What a byte that nothing has written reads as. DESIGN CHOICE (log 1): the spec gives the stores no contents at
power-up and says that LULL loses them. -/
def memDefault : Byte := 0

/-- One byte of the addressed stores. -/
def memByte (m : List Host.Cell) (a : Nat) : Byte := tabGet memDefault m a

/-- The entries that bytes written from `a` upwards leave: none for a byte that reads as an unwritten one. -/
def memCells : Nat → List Byte → List Host.Cell
  | _, [] => []
  | a, b :: bs => if b = memDefault then memCells (a + 1) bs else (a, b) :: memCells (a + 1) bs

/-- Store bytes at an address: the listed entries below, the new ones, the listed entries above. -/
def memPut (m : List Host.Cell) (a : Nat) (bs : List Byte) : List Host.Cell :=
  m.filter (fun p => decide (p.1 < a)) ++ memCells a bs ++ m.filter (fun p => decide (a + bs.length ≤ p.1))

/-- A command's stores, the oldest at the end of the list. -/
def memPutAll (m : List Host.Cell) : List (Nat × List Byte) → List Host.Cell
  | [] => m
  | (a, bs) :: older => memPut (memPutAll m older) a bs

/-- The byte an address holds under a command's stores so far (newest first). -/
def memLook (m : List Host.Cell) : List (Nat × List Byte) → Nat → Byte
  | [], a => memByte m a
  | (b, bs) :: older, a => if b ≤ a ∧ a < b + bs.length then nth memDefault bs (a - b) else memLook m older a

/-- `k` bytes from an address under a command's stores so far. -/
def memRange (m : List Host.Cell) (ws : List (Nat × List Byte)) (a k : Nat) : List Byte :=
  let near := m.filter (fun p => decide (a ≤ p.1) && decide (p.1 < a + k))
  let wn := ws.filter (fun p => decide (p.1 < a + k) && decide (a < p.1 + p.2.length))
  (List.range k).map (fun i => memLook near wn (a + i))

end Sys2Proof.Machine
end

