-- ==== Sys2Proof/Machine/State.lean ====
section
/-! DEFINITION. The state of the block: every register, store, queue, counter, mode and pin the spec gives it, as
plain data, and the queue of the commands that wait. Objects of the dictionary that are plain registers live in `od`
under their index and sub-index; what is not an object has a field of its own. -/

namespace Sys2Proof.Machine

/-- Why a step stops the block with a fault. -/
inductive Fault where
  /-- Raised by a command that names a unit the grade does not have (00 R4, R10), where the spec gives no effect. Safe:
  the model stops. -/
  | absentUnit
  deriving DecidableEq, Repr

/-- Why a step gives a command no meaning. -/
inductive Refusal where
  /-- Raised by an arm of Dispatch.lean for a command without a meaning yet. Safe: nothing is claimed of it. -/
  | notModelled (mnemonic : String)
  /-- Raised by every meaning for an operand outside the encoding that Instr.wf states. Safe: such a command cannot be
  sent. -/
  | malformed
  deriving DecidableEq, Repr

/-! ## The vector engine (06) -/

/-- An entry of the finished-tile queue (06 R136): taken when the pass starts, filled at its drain. -/
structure QEntry where
  ctx : Nat
  tile : Nat
  m : Nat
  n : Nat
  fmt : Nat
  /-- PASS_STATUS, none until the tile is drained. -/
  status : Option Nat
  /-- The tile's encodings in row-major order. -/
  vals : List Nat
  deriving DecidableEq, Repr

/-- A chain issued and not yet complete (06 R149), with its place in the order of issue (04 R94). -/
structure ChainReq where
  ctx : Nat
  desc : Nat
  stamp : Nat
  deriving DecidableEq, Repr

/-- The chain that is running, with its length. -/
structure ChainRun where
  req : ChainReq
  len : Nat
  /-- What the fill has read (06 R150): each stage word with the bytes of its column vectors or table; none while a read of
  the fill is held back (04 R94). -/
  fill : Option (List (Nat × List Byte))
  deriving DecidableEq, Repr

/-- What a context is allotted on an engine (06 R135): queue quota and register windows, base and size. -/
structure Allot where
  quota : Nat
  tileBase : Nat
  tileSize : Nat
  rowBase : Nat
  rowSize : Nat
  deriving DecidableEq, Repr

structure VecEng where
  /-- T0 to T15: key register × 1,024 + row × 32 + column; an unlisted element is +0 (06 R134). -/
  tiles : Tab Nat
  /-- V0 to V15: key register × 32 + row. -/
  rows : Tab Nat
  /-- The chain status register (06 R152). -/
  status : Nat
  queue : List QEntry
  issued : List ChainReq
  running : Option ChainRun
  allot : Tab Allot
  deriving DecidableEq, Repr
/-! ## Engines (03, 04, 05) -/

/-- The ring cursor a pass captures at its start (05 R117, R118). -/
structure Cursor where
  frameBase : Nat
  y : Nat
  x : Nat
  ng : Nat
  ks : Nat
  deriving DecidableEq, Repr

/-- A pass issued to an array or placed in a tile queue, and not yet complete. -/
structure PassReq where
  /-- The issuing engine: it owns the operands, the drain target and the charge (04 R102). -/
  owner : Nat
  ctx : Nat
  /-- The 256-bit descriptor as issued (04 R87). -/
  desc : Nat
  /-- Placed by PASSQ, with the mark that takes effect (04 R101). -/
  queued : Bool
  mark : Nat
  /-- The cursor captured at the first start (05 R118). -/
  cur : Option Cursor
  /-- Charged at its first start; a rerun is not charged again (04 R86). -/
  charged : Bool
  /-- Its place in the order of issue of its slice on the issuing engine. -/
  ord : Nat
  /-- Its place in the order of issue of the whole device (04 R94, R102). -/
  stamp : Nat
  deriving DecidableEq, Repr

/-- The exact checksums that a pass carries (15 R385), each an exact m × 2^e: the check registers c_k of the last weight
set, X_m by position, Y_n by column. -/
structure CheckSums where
  c : List (Int × Int)
  x : List (Int × Int)
  y : List (Int × Int)
  deriving DecidableEq, Repr

/-- What an array holds of a pass or of the passes a chain has run so far: `m` × `n` accumulators in position-major order,
an FP32 accumulator as its encoding (03 R65, R67), and the checksums (15 R385). -/
structure Accs where
  m : Nat
  n : Nat
  els : List AccEl
  sums : Option CheckSums
  deriving DecidableEq, Repr

/-- A pass on a half and its length (03 R60). -/
structure PassRun where
  req : PassReq
  /-- What the pass leaves in the array; none while it is stalled: its feeder waits for a row that is not written (03 R59,
  05 R110), or a read is held back (04 R94). -/
  acc : Option Accs
  len : Nat
  /-- Its slice has been stopped while it ran (04 R106): it ends, and nothing continues it. -/
  dead : Bool
  deriving DecidableEq, Repr

/-- One half of an array (03 R74; the whole array when a pass is not SPLIT uses half 0 and blocks half 1). -/
structure Half where
  run : Option PassRun
  next : Option PassReq
  /-- The accumulators kept by a pass with DRAIN_KIND 0 (03 R61). -/
  kept : Option PassRun
  /-- The passes of the chain in progress, in order, for its rerun (03 R79). -/
  chain : List PassReq
  /-- The abandoned passes and chains that wait for their rerun, oldest first (03 R79). -/
  waiting : List (List PassReq)
  /-- The passes still to start of the rerun in progress. -/
  rerun : List PassReq
  /-- The chain in progress is a rerun: a second abandonment withholds (03 R79). -/
  second : Bool
  /-- The weight set in the cells' ACTIVE registers, and the one in NEXT, as the bytes of 04 R89 (03 R58); empty where none
  is loaded. -/
  active : List Byte
  loaded : List Byte
  deriving DecidableEq, Repr

/-- A loop counter of a slot (04 R84). -/
structure LoopCtr where
  /-- Repetitions still to run after the present one. -/
  left : Nat
  first : Nat
  last : Nat
  deriving DecidableEq, Repr

/-- What a slot waits for. -/
inductive Waiting where
  | ready
  | sem (obj amount : Nat)
  | barrier (obj : Nat)
  | fence (mask : Nat)
  | ending
  deriving DecidableEq, Repr

/-- The slice's most recent PASS on an engine (04 R85). -/
structure LastPass where
  drains : Bool
  lsb : Int
  bf : Bool
  split : Bool
  status : Option Nat
  ord : Nat
  deriving DecidableEq, Repr

/-- A sequencer slot (04 R80). -/
structure Slot where
  ctx : Nat
  /-- The slice is released and has not ended on this engine. -/
  live : Bool
  /-- Program counter in 4-byte units. -/
  pc : Nat
  dp : Nat
  /-- LC0 to LC3: none while the counter is not active. -/
  loops : List (Option LoopCtr)
  charge : Nat
  wait : Waiting
  last : Option LastPass
  /-- A pass returned unstarted by a preemption (04 R81). -/
  returned : List PassReq
  /-- The beat of the latest progress (16 R417). -/
  progress : Nat
  /-- Asked to stop and not yet acknowledged (16 R416). -/
  stopping : Bool
  deriving DecidableEq, Repr

/-- An issued DMA descriptor (04 R99). -/
structure DmaJob where
  ctx : Nat
  desc : Nat
  /-- Its place in the order of issue, and the first row whose source has not been read, since it overlaps the drain target
  of a pass that is not complete (04 R94). -/
  stamp : Nat
  next : Nat
  /-- The engines it writes to. -/
  targets : List Nat
  /-- Rows not yet written because their line-buffer slot is not retired: address in the store and bytes (05 R110). -/
  held : List (Nat × List Byte)
  deriving DecidableEq, Repr

/-- What a line buffer's write port keeps for a ring (05 R110): the header's unit, and the units written so far of each
row sequence that is pending. -/
structure RingRun where
  unit : Nat
  counts : Tab Nat
  deriving DecidableEq, Repr

/-- An engine: sequencer, array, DMA unit, vector engine and progress register. -/
structure Engine where
  slots : List Slot
  h0 : Half
  h1 : Half
  /-- The PASS_STATUS register (03 R72). -/
  status : Nat
  dma : List DmaJob
  vec : VecEng
  /-- The progress register: the last MARK tag (04 R82). -/
  tag : Nat
  /-- Lines of the cache part, by set, most recently used first: way and tag (07 R160, R161). -/
  cache : Tab (List (Nat × Nat))
  rings : List RingRun
  deriving DecidableEq, Repr

/-- A synchronisation object (04 R95): undeclared, a semaphore with its count, or a barrier. -/
inductive SyncKind where
  | semaphore
  | barrier
  deriving DecidableEq, Repr

/-- A waiter at a synchronisation object, in the order of issue (04 R96). -/
structure Waiter where
  engine : Nat
  ctx : Nat
  amount : Nat
  deriving DecidableEq, Repr

structure SyncObj where
  kind : SyncKind
  owner : Nat
  persistent : Bool
  init : Nat
  count : Nat
  waiters : List Waiter
  /-- The engines that the barrier's last full count lets go, until they resume (04 R97). -/
  freed : List Waiter
  deriving DecidableEq, Repr

/-- A loaded program image (04 R104). -/
structure Image where
  ctx : Nat
  placement : Nat
  /-- Engine number and ENTRY, in 32-byte units. -/
  engines : List (Nat × Nat)
  groups : List Nat
  /-- Synchronisation objects the image declares: die × 4,096 + index. -/
  syncs : List Nat
  handle : Nat
  /-- The CHECK_LEVEL of its checked passes (15 R384), and for each engine the figures of 06 R135: quota, tile and row
  registers. -/
  level : Option Nat
  figs : List (Nat × Nat × Nat × Nat)
  deriving DecidableEq, Repr

/-- What the load check carries from one instruction to the next (04 R105): the latest PASS (`some none` when its
descriptor comes through DP), the open loop bodies, the furthest BRS target, the figures of 06 R135, and whether the
END that ends the program has been reached. -/
structure Scan where
  prev : Option (Option LastPass)
  loops : List (Nat × Nat)
  target : Nat
  quota : Nat
  drain2 : Bool
  tile : Nat
  row : Nat
  done : Bool
/-! ## Schedule (02) -/

/-- A slice (02 R33): the work of one context in one period, from its release to the end of its response time. -/
structure Slice where
  live : Bool
  rel : Nat
  /-- The engines of the placement that have not reached the end of the slice. -/
  open_ : List Nat
  /-- Its results are withheld (02 R37). -/
  withheld : Bool
  missed : Bool
  /-- Stopped under 04 R106, 16 R416 or R417: the boundary or beat of the stop. -/
  stopped : Option Nat
  /-- The engines that have not yet acknowledged the stop (16 R416). -/
  unacked : List Nat
  /-- The beat in which it completed; its response time ends at the next boundary. -/
  doneAt : Option Nat
  /-- The quads that ran a pass or chain of it (10 R245 QUAD_MASK). -/
  quads : Nat
  /-- What it has sent to the output unit: bit s for output stream s, bit 64 + i for the Garnet block of engine i of its
  quad (10 R242). -/
  outs : Nat
  /-- CONFIG_GENERATION, the entries CONFIG_DIGEST is taken over, and ADMISSION_GENERATION at its release (10 R253). -/
  cfg : Nat × Tab Nat × Nat
  /-- The boundary from which it may run: its release, or for a Garnet slice the planned start (15 R382). -/
  startAt : Nat
  deriving DecidableEq, Repr

/-- What the scheduler keeps for a context beside its objects (02 R44, R48, R49, R53). -/
structure CtxRun where
  /-- An admission request that waits for its decision: the order of its commit. -/
  pendingAt : Option Nat
  /-- The schedule decided and not yet committed: commit boundary, placement, offset, response. -/
  decided : Option (Nat × Nat × Nat × Nat)
  /-- The boundary a withdrawal takes effect at. -/
  withdrawAt : Option Nat
  /-- The first boundary a slice may be released at (02 R44, 16 R423). -/
  firstAt : Nat
  /-- After a reset: released only once the predecessor has completed a slice released at or after this boundary. -/
  needPred : Option Nat
  /-- The boundary of the latest completed slice (16 R423), and of the release it completed. -/
  lastDone : Nat
  lastRel : Nat
  /-- The quads of its latest slice and of those of its chain before it, each with the beat in which the last of these
  slices on it completed (10 R245, R254). -/
  chainWork : Tab Nat
  ingest : Nat
  /-- Bytes by channel, and packets by link, in the present period (02 R48). -/
  bursts : Tab Nat
  packets : Tab Nat
  /-- Suspended with a lost member's job, to be shed by the recomputation (17 R451). -/
  lost : Bool
  /-- The CHECK_LEVEL that the checked passes of its image carry (15 R384). -/
  level : Option Nat
  /-- Its access scope is any core, and its MIN_CHECK_LEVEL, as its latest admission took them (07 R159, 15 R404). -/
  anyCore : Bool
  minLevel : Nat
  deriving DecidableEq, Repr

/-- A quad's clock, supply and health beyond its objects (02 R47, 14, 15). -/
structure QuadRun where
  gated : Bool
  /-- A droop is in progress (14 R358); the device time at which the latest one cleared. -/
  droop : Bool
  cleared : Nat
  credit : Nat
  /-- Eighths of a cycle stretched in the present beat. -/
  stretched : Nat
  /-- Fault of 14 R359 raised in the present beat. -/
  spent : Bool
  /-- The clock the retest of a suspect unit left it (15 R398, 14 R375). -/
  cap : Nat
  /-- The admitted clock in MHz, and the one that pair 2's latest test took (02 R38, R55). -/
  admitClock : Nat
  clockTested : Nat
  /-- A deferred step has been counted; the boundary of the latest change of clock or set point (14 R352, R360). -/
  deferred : Bool
  stepAt : Option Nat
  /-- The boundary from which a step waits for a collective (17 R449). -/
  waitFrom : Option Nat
  /-- The raise of a suspect unit and the heavy-phase raise are in force (14 R357). -/
  raised : Bool
  heavy : Bool
  /-- A suspect quad's remedy: 0 none, 1 to be chosen at the next boundary, 2 waits for the recomputation, 3 in force,
  so that the retest may start (15 R398, R399). -/
  remedy : Nat
  retestAt : Option Nat
  /-- The Garnet slice in its window: index, result blocks by engine position with whether each matched (15 R383). -/
  garnet : Option (Nat × List (Nat × Bool))
  /-- Checkers of the quad exercised and passed in the present diagnostic cycle (15 R390). -/
  tested : List Nat
  deriving DecidableEq, Repr

/-- What pair 2 and the beat sequencer keep for the whole schedule (02 R52, 13 R335). -/
structure Sched where
  /-- A recomputation is pending: its cause and the beat of the event. -/
  recompute : Option (Nat × Nat)
  /-- It has been decided and commits at this boundary. -/
  commitAt : Option Nat
  /-- Planned start of each Garnet slice in its window: key 64 × slice index + quad (13 R335). -/
  plan : Tab Nat
  /-- The plan covers every beat below this one. -/
  planEnd : Nat
  deriving DecidableEq, Repr
/-! ## The hub: device state, time, faults, log (01, 11, 13, 16) -/

/-- The device states of 01 R17, and the hold in PORST_N that comes before them all (18 R469). -/
inductive DevState where
  | porst
  | lull
  | boot
  | config
  | run
  | adapt
  | squall
  | safe
  deriving DecidableEq, Repr

/-- The grades of 00 R3. -/
inductive Grade where
  | skh2256
  | skh2128
  deriving DecidableEq, Repr

/-- What the fuses fix on one module (00 R5, 12 R319, 13 R327, R339, 14 R377). -/
structure Fuses where
  grade : Grade
  serial : Nat
  mac : Nat
  /-- Digests of the key in each of the four slots (13 R327). -/
  keySlots : List Nat
  revoked : Nat
  debugLock : Bool
  /-- Millivolts at 1,000, 900, 800 and 500 MHz (14 R377). -/
  vf : List Nat
  deriving DecidableEq, Repr

/-- Device state beyond the objects (01, 18). -/
structure Dev where
  state : DevState
  /-- PREVIOUS_STATE and LAST_CAUSE (01 R19). -/
  prev : Nat
  cause : Nat
  /-- WARM_RST_N is asserted. -/
  warm : Bool
  /-- REFCLK has stopped (18 R462). -/
  noRefclk : Bool
  /-- The LULL domain is ready (18 R470); the level of WAKE. -/
  ready : Bool
  wake : Bool
  /-- Straps sampled at the release of PORST_N (18 R467). -/
  nodeId : Nat
  casc : Nat
  /-- Hub control SRAM holds a verified image across LULL or WARM_RST_N (01 R26). -/
  retained : Bool
  /-- The start-up checks have passed since the last BOOT (01 R21). -/
  checksPassed : Bool
  /-- Every pair has reported its first heartbeat since BOOT entered firmware start (13 R331). -/
  starting : Bool
  /-- RUN is draining towards CONFIG (01 R22). -/
  draining : Bool
  /-- The Elastic contexts whose adaptation step is in progress (01 R25). -/
  steps : List Nat
  /-- Emergency causes that stand: bit 0 power, 1 junction, 2 inlet, 3 flow, 4 hold (14 R376). -/
  emergency : Nat
  /-- The escalation that takes effect at the next boundary: its cause source (16 R425). -/
  escalate : Option Nat
  /-- Whether a quad was removed, or a Safety context shed, since power-up (12 R310). -/
  quadLost : Bool
  safetyShed : Bool
  deriving DecidableEq, Repr

/-- A servo sample: device stamp and grandmaster time (11 R275). -/
structure Sample where
  dev : Nat
  net : Int
  deriving DecidableEq, Repr

/-- The map that waits for its boundary (11 R275): the first one it may take effect at, the correction and the rate, or the
first sample's pair, or a grandmaster's GM_OFFSET_NS (11 R274). -/
structure NewMap where
  due : Nat
  delta : Int
  rate : Int
  first : Option (Nat × Int)
  own : Option Int
  deriving DecidableEq, Repr

/-- The time base (11). -/
structure TimeBase where
  beat : Nat
  /-- The device time reached: a boundary, or a later moment of the beat that a command named. -/
  ns : Nat
  /-- SYNC_STATE of 11 R274. -/
  sync : Nat
  gen : Nat
  t0 : Nat
  n0 : Int
  rate : Int
  samples : List Sample
  /-- Accepted samples in a row, and rejected samples in a row (11 R275). -/
  good : Nat
  bad : Nat
  /-- The map the next boundary takes (11 R273). -/
  newMap : Option NewMap
  /-- A step of the map is allowed (11 R275). -/
  stepOk : Bool
  lastSample : Nat
  holdoverFrom : Nat
  pathDelay : Int
  /-- The Sync that waits for its Follow_Up: sequence and stamp. -/
  openSync : Option (Nat × Nat)
  /-- Seconds for the next PPS_IN edge (11 R277). -/
  ppsSeconds : Option Nat
  deriving DecidableEq, Repr

/-- A source and unit the collector keys (16 R412), with the beats of its latest messages, newest first. -/
structure FaultKey where
  source : Nat
  unit : Nat
  beats : List Nat
  deriving DecidableEq, Repr

/-- The fault collector (16). -/
structure Collector where
  keys : List FaultKey
  /-- Latched sources and the severity each holds (16 R414). -/
  latches : Tab Nat
  /-- The message whose RESET reaction the next boundary starts (16 R419, R420). -/
  resetBy : Option Nat
  /-- Sources whose message was lost with the queue full: the pending bitmap (16 R413). -/
  pendingMap : List Nat
  deriving DecidableEq, Repr

/-- An entry of the log ring (13 R346). -/
structure LogEntry where
  seq : Nat
  level : Nat
  origin : Nat
  point : Nat
  time : Nat
  args : List Nat
  deriving DecidableEq, Repr

/-- What leaves the block while a command runs: answers and frames, as bytes. -/
inductive Output where
  /-- A Crino frame: link (0 USB, 1 UDP), type, TAG, STATUS, payload (12 R313). -/
  | crino (link ftype tag status : Nat) (payload : List Byte)
  /-- A CAN FD frame of a controller. -/
  | can (ctrl cobid : Nat) (payload : List Byte)
  /-- A result or tap record on a port: 0 USB, 1 to 4 Ethernet, 5 fabric (10 R269). -/
  | record (port : Nat) (tag : Nat) (payload : List Byte)
  /-- Log entries on EP3 (13 R347). -/
  | log (entries : List LogEntry)
  /-- An Ethernet frame that is no result: port, kind and bytes (11 R277, 12 R317). -/
  | ether (port kind : Nat) (payload : List Byte)
  /-- A cascade flit of a port: slot, type and bytes (17 R438). -/
  | flit (port slot kind : Nat) (payload : List Byte)
  /-- A TRAIN flit of a port: straps, serial number, lowest and highest protocol version (17 R435). -/
  | train (port straps serial low high : Nat)
  /-- FORM, with the formation boundary (17 R435). -/
  | form (port boundary : Nat)
  /-- A burst or status answer of a memory channel (07 R166). -/
  | channel (ch : Nat) (payload : List Byte)
  /-- Bits shifted out of the test access port (18 R468). -/
  | jtag (payload : Nat)
  /-- A MARK written to the trace (04 R82): engine and TAG. -/
  | trace (engine tag : Nat)
  /-- A core's answer to the debugger (13 R339). -/
  | debug (pair : Nat) (payload : Nat)
  deriving DecidableEq, Repr

/-! ## Cascade (17) -/

/-- A content record received from a partner (R446). -/
structure PartRec where
  member : Nat
  out : Nat
  seq : Nat
  kind : Nat
  /-- INPUT_DIGEST, and bytes 0 to 31 of SHA3-512 over the payload. -/
  digest : List Byte
  pay : List Byte
  oldest : Nat
  latest : Nat
  close : Nat
  mark : Nat
  body : List Byte
  /-- Its sender has retracted it, or it counts as retracted (10 R259, R453). -/
  gone : Bool
  /-- The beat in which it was complete here (17 R446). -/
  came : Nat
  deriving DecidableEq, Repr

/-- What training has learned of a port's peer (R435): straps, serial, versions, raw delay. -/
structure Peer where
  straps : Nat
  serial : Nat
  low : Nat
  high : Nat
  delay : Nat
  deriving DecidableEq, Repr

/-- A partner as its control flits show it (R440, R450). -/
structure Partner where
  /-- The beat of the latest valid control flit. -/
  heard : Nat
  state : Nat
  flags : Nat
  lostMask : Nat
  lost : Bool
  /-- Left in SAFE, or expelled: the boundary's declaration is due with this detail. -/
  leave : Option Nat
  deriving DecidableEq, Repr

/-- A flit sent and not yet acknowledged (R439). -/
structure SentFlit where
  seq : Nat
  stream : Nat
  flags : Nat
  index : Nat
  kind : Nat
  bytes : List Byte
  deriving DecidableEq, Repr

/-- A link of a port beyond its objects. -/
structure CascPort where
  peer : Option Peer
  /-- The next FLIT_SEQ to send, the latest received in order, the flits unacknowledged, oldest first. -/
  next : Nat
  ack : Nat
  sent : List SentFlit
  /-- The record in assembly of each partner stream. -/
  asm : Tab (List Byte)
  deriving DecidableEq, Repr

/-- The cascade beyond its objects. -/
structure Cascade where
  ports : List CascPort
  partners : List Partner
  recs : List PartRec
  /-- Latest WATERMARK of each partner stream, by member × 64 + stream; none is not received. -/
  marks : Tab Nat
  /-- The beat the present training began in, while one is in progress. -/
  trainFrom : Option Nat
  /-- The formation boundary that FORM has named: by this member's count of beats, and by the master's. -/
  formAt : Option (Nat × Nat)
  /-- Aborts: job and the boundary they act at; jobs aborted by this member and not yet in a control flit. -/
  aborts : List (Nat × Nat)
  abortOut : Nat
  /-- Jobs whose releases are skipped, and the boundary from which each is skipped or released again. -/
  stretchOut : Nat
  stretch : List (Nat × Nat × Nat)
  /-- Jobs held by a compute-part reset, by member. -/
  held : List (Nat × Nat)
  resumeAt : Tab Nat
  /-- A joint state request: code, boundary, this member's readiness. -/
  request : Option (Nat × Nat × Bool)
  /-- The drained flag of this member's latest control flit (R440, R441). -/
  drained : Bool
  /-- Schedule boundary announced by the master, and ADMISSION_GENERATION with it. -/
  schedule : Option (Nat × Nat)
  /-- Arrival sets that have been written: collective and close boundary. -/
  done : List (Nat × Nat)
  /-- The map that the master has sent for a boundary: t0, n0, rate, generation. -/
  map : Option (Nat × Nat × Int × Int × Nat)
  expel : Nat
  /-- Members whose expulsion or loss the next boundary acts on are in `partners`; this member was expelled. -/
  expelled : Bool
  deriving DecidableEq, Repr

/-! ## Memory channels (07) -/

/-- A memory channel's controller and die beyond the quad's counters. -/
structure Chan where
  /-- Burst addresses that wait for write-back, oldest first (R178). -/
  queue : List Nat
  scrub : Nat
  /-- The beat the present scrub pass began in, and whether its starvation has been reported (R182). -/
  scrubFrom : Option Nat
  starved : Bool
  /-- Refresh operations since power-up (R167). -/
  ops : Nat
  /-- How far the die's beat count runs ahead of the beat, in clocks (R166, R169). -/
  phase : Nat
  /-- The bank of the latest refresh operation and the clock it starts at, until it makes a burst collide (R168). -/
  refresh : Option (Nat × Nat)
  /-- The beat from which the sensor has stayed below 70 degrees (R167). -/
  cool : Option Nat
  /-- Calibrations in a row that mismatched, and the sampling delay in steps of 1/64 clock (R181). -/
  calBad : Nat
  delay : Int
  /-- The beat that the next four speak of; in a later beat they read as 0 and false. -/
  beat : Nat
  /-- Ticks taken (R167), the clock from which the bus is free (R169), and whether slot 40 is used (R181). -/
  ticks : Nat
  used : Nat
  slot : Bool
  /-- Bursts that have gone at Elastic rank (14 R363). -/
  low : Nat
  deriving DecidableEq, Repr


/-! ## Sensor ingest (09) -/

/-- A row of pixels: up to three channels of unsigned 16-bit values (R228). -/
abbrev PRow := List (List Nat)

/-- A record that has passed ingest admission: CAPTURE_TIME, FLAGS without those of concealment, POINT_COUNT and payload
as the record former made them, the payload as it is stored, the pixel rows that enter pre-processing, the points of the
guard copy, and the payload as written that the decoded-sample cache gives (R236). -/
structure Rec where
  time : Nat
  flags : Nat
  rawCount : Nat
  body : List Byte
  count : Nat
  data : List Byte
  rows : List PRow
  pts : List (Nat × Nat × Nat)
  cached : Option (List Byte)
  deriving DecidableEq, Repr

/-- What is to happen to a position: its record, a stand-in with its reason and byte offset (R216), or the stand-in of a
record that was recorded as concealed, with its REASON, CAPTURE_TIME and FLAGS (10 R268). -/
inductive Fate where
  | good (r : Rec)
  | lost (reason off : Nat)
  | recorded (reason time flags : Nat)
  deriving DecidableEq, Repr

/-- A frame with open positions (R213 to R217). -/
structure SFrame where
  idx : Nat
  /-- FRAME_COUNTER as its records carry it; in ADAPT a replayed frame keeps the recorded one. -/
  ctr : Nat
  ref : Nat
  /-- One more than the last position assigned by arrival (R214). -/
  got : Nat
  /-- Positions closed, and the mask bits of those. -/
  closed : Nat
  valid : Nat
  /-- Positions decided and waiting for their turn. -/
  ready : Tab (Option Fate)
  /-- Positions whose record waits for a decoder or is in it. -/
  busy : List Nat
  /-- The frame is written (R237). -/
  wr : Bool
  /-- Every open position closes concealed (R213, R214). -/
  gone : Bool
  /-- Overrun, and codestream outside the subset, have been reported (R112, R226). -/
  overrun : Bool
  outside : Bool
  /-- By target, whether the ring matches, once the first row has been written (R232). -/
  rings : Option (List Bool)
  /-- The last output row written in this frame (R216). -/
  last : Option (List Byte)
  deriving DecidableEq, Repr

/-- A raw row that the demosaic keeps: its values, or a concealed one with the first of its free values. -/
inductive RawRow where
  | seen (p : List Nat)
  | lost (base : Nat)
  deriving DecidableEq, Repr

/-- The pixel pipeline of a stream within a frame (R228 to R231). -/
structure Pix where
  raws : List RawRow
  /-- Rows that have entered. -/
  entered : Nat
  /-- The row store: lookup rows with their numbers, newest first. -/
  store : List (Nat × PRow)
  /-- The next output row. -/
  outY : Nat
  /-- Lookup rows of the position that is closing, with whether each is a stand-in. -/
  formed : List (Nat × Bool × PRow)
  deriving DecidableEq, Repr

/-- An entry of the record table (10 R248), its frame, and whether it is the first after a restart of the chain. -/
structure RtEntry where
  idx : Nat
  pos : Nat
  hdr : List Byte
  chain : List Byte
  first : Bool
  deriving DecidableEq, Repr

/-- A slice that waits for its decoder or is in it: frame, position, record, start time, and the bit depth and slice height of its header. -/
structure JxsJob where
  idx : Nat
  pos : Nat
  rec_ : Rec
  start : Nat
  depth : Nat
  tall : Nat
  deriving DecidableEq, Repr

/-- An ingest stream beyond its objects. -/
structure InStream where
  next : Nat
  frames : List SFrame
  lastRef : Option Nat
  /-- Frame Start has come: the next row is its frame's first record (R219). -/
  fs : Bool
  /-- 0 waits for its context's release, 1 for a frame's beginning, 2 writes (R237). -/
  mode : Nat
  chain : List Byte
  fresh : Bool
  table : List RtEntry
  pix : Pix
  /-- The values of the last valid signal record (R216). -/
  vals : Option (List Byte)
  /-- Rows that each target ring's writer holds: first its own, then the stand-ins of refused ones (05 R112). -/
  held : Tab (List (List Byte))
  /-- The last RTP sequence number, the slice in assembly with its bytes, the slices that wait and the one in decode. -/
  seq : Option Nat
  asm : Option (Nat × List Byte)
  queue : List JxsJob
  run : Option JxsJob
  deriving DecidableEq, Repr

/-- An entry of the decoded-sample cache (R236): its key, the CRC of the received payload, where its header and payload as
written stand in the pool and their bytes; and the rows that entered pre-processing, the model's own, so that the rows of
later records meet the same neighbours as without a hit. -/
structure CacheEntry where
  stream : Nat
  time : Nat
  pos : Nat
  crc : Nat
  at_ : Nat
  bytes : Nat
  rows : List PRow
  deriving DecidableEq, Repr

structure Ingest where
  streams : Tab InStream
  cache : List CacheEntry
  deriving DecidableEq, Repr

/-! ## The guard path (15 R392 to R396) -/

/-- A guard copy of a point: the beat its record completed in, its stream, CAPTURE_TIME and coordinates. -/
structure GPoint where
  beat : Nat
  stream : Nat
  time : Nat
  x : Nat
  y : Nat
  z : Nat
  deriving DecidableEq, Repr

/-- The camera program's view of a pixel stream: the frame under way, the frame before, equal frames in a row. A value of a
concealed row is marked as absent (09 R234). -/
structure GuardCam where
  cur : List (Option Byte)
  prev : Option (List (Option Byte))
  same : Nat
  deriving DecidableEq, Repr

/-- A guard output: boundary, INPUT_TIME and bins. -/
structure GuardOut where
  beat : Nat
  time : Nat
  bins : List Nat
  deriving DecidableEq, Repr

/-- The guard SRAM's contents, as the two programs use them. -/
structure Guard where
  points : List GPoint
  /-- Ends of frames: beat, stream, blinded or stale. -/
  ends : List (Nat × Nat × Bool)
  cams : Tab GuardCam
  status : Nat
  /-- The minima of the present and the previous half window, with the latest CAPTURE_TIME of the points used in each, none where it had no point. -/
  now : List Nat
  last : List Nat
  nowTime : Option Nat
  lastTime : Option Nat
  /-- The minimum of bins 10 to 21 by boundary, newest first (R394). -/
  minima : List Nat
  outs : List GuardOut
  /-- Consecutive disagreements and the first of their sequence numbers (R396); the comparisons that wait: close
  boundary, sequence number, LATEST_CAPTURE and bins. -/
  bad : Nat
  badSeq : Nat
  compare : List (Nat × Nat × Nat × List Nat)
  /-- A lockstep mismatch in the present beat (R392). -/
  mismatch : Bool
  deriving DecidableEq, Repr

/-! ## Object service and host links (12) -/

/-- Where an answer goes. -/
inductive Reply where
  /-- A Crino answer: link and TAG. -/
  | crino (link tag : Nat)
  /-- A USDO answer: controller and client. -/
  | usdo (ctrl client : Nat)
  /-- A completion entry of a command ring: TAG, and the link whose stage it commits. -/
  | ring (tag link : Nat)
  deriving DecidableEq, Repr

/-- One staged write (12 R298). -/
structure StageWrite where
  idx : Nat
  sub : Nat
  len : Nat
  val : Nat
  deriving DecidableEq, Repr

/-- A stage: its writes in index order, and the commit that is pending (12 R299). -/
structure Stage where
  writes : List StageWrite
  commitAt : Option Nat
  order : Nat
  reply : Option Reply
  deriving DecidableEq, Repr

/-- A Crino message whose LAST frame has not arrived (12 R313). -/
structure OpenMsg where
  ftype : Nat
  tag : Nat
  bytes : List Byte
  deriving DecidableEq, Repr

/-- A Crino session (12 R314, R317, R322). -/
structure Session where
  up : Bool
  version : Nat
  /-- Device time of the last valid frame. -/
  last : Nat
  partials : List OpenMsg
  /-- Answers to the latest 64 TAGs, newest first (UDP). -/
  answers : List (Nat × List Output)
  peer : List Byte
  deriving DecidableEq, Repr

/-- A committed write whose effect has a row of its own, until that row or the boundary's transitions carry it out. -/
inductive Effect where
  | request (state : Nat)
  /-- A request for admission of a context, with the order of its commit. -/
  | admission (n order : Nat)
  | withdraw (n : Nat)
  | mapReset
  | ppsSeconds (v : Nat)
  | pin (slot page : Nat) (global : Bool)
  | unpin (slot page : Nat)
  | tmReset (slot : Nat)
  | split (k : Nat)
  | rejoin (k : Nat)
  /-- SPLIT_REQUEST of a pair whose restart has begun becomes FALSE (13 R337). -/
  | joined (k : Nat)
  | activate
  | deactivate
  deriving DecidableEq, Repr

/-- A command ring of the register window (12 R320). -/
structure Ring where
  base : Nat
  entries : Nat
  tail : Nat
  head : Nat
  status : Nat
  code : Nat
  /-- The link that rang the doorbell. -/
  link : Nat
  deriving DecidableEq, Repr

/-- The register window (12 R320). -/
structure Window where
  irq : Nat
  irqEnable : Nat
  rings : List Ring
  cqBase : Nat
  cqEntries : Nat
  cqHead : Nat
  cqTail : Nat
  beatHi : Nat
  deriving DecidableEq, Repr

/-- An open segmented USDO transfer (12 R308). -/
structure UsdoOpen where
  client : Nat
  session : Nat
  write : Bool
  idx : Nat
  sub : Nat
  size : Nat
  bytes : List Byte
  last : Nat
  deriving DecidableEq, Repr

/-- A CAN FD controller beyond its objects (12 R307, R308). -/
structure CanCtrl where
  busOff : Bool
  usdo : Option UsdoOpen
  /-- Device time of the last heartbeat. -/
  beatSent : Nat
  deriving DecidableEq, Repr

/-- The object service and the links. -/
structure Links where
  stages : List Stage
  orders : Nat
  usb : Session
  udp : Session
  win : Window
  can : List CanCtrl
  ssfCount : Nat
  /-- Committed effects that wait, in order. -/
  effects : List Effect
  /-- The GCL of each port from the cycle start it takes effect at (12 R319). -/
  gcl : Tab Nat
  /-- A session has fallen silent since the last boundary (12 R322). -/
  silent : Bool
  /-- The answer that waits for a joint state change, and the value REQUESTED_STATE had before (17 R441). -/
  joint : Option (Reply × Nat)
  deriving DecidableEq, Repr
/-! ## Power, cooling and the pins (11, 14) -/

/-- An accepted heavy-phase hint (14 R368): the boundaries the phase starts and ends at, its quads. -/
structure Hint where
  start : Nat
  stop : Nat
  quads : Nat
  deriving DecidableEq, Repr

/-- What the power, thermal and cooling loops keep between estimates (14). -/
structure Power where
  /-- Nanojoules not yet counted in ENERGY_MJ (R361). -/
  rest : Nat
  /-- The boundary of the latest estimate. -/
  lastEst : Option Nat
  /-- Nanojoules of Q below a whole microjoule (R362). -/
  qRest : Nat
  /-- Estimates since the last change of HW_LEVEL with Q at least half of Q_MAX (R364). -/
  since : Nat
  /-- Consecutive estimates that meet the entry and the clearing condition of R366. -/
  overs : Nat
  full : Nat
  /-- Samples towards a rise and a fall of THERMAL_LEVEL, and towards each emergency cause (R370). -/
  up : Nat
  down : Nat
  hot : Nat
  inlet : Nat
  flow : Nat
  /-- Consecutive samples at which no thermal cause held. -/
  calm : Nat
  /-- Consecutive samples of each sensor at or above T_TRIP_C. -/
  trips : Tab Nat
  /-- The beat of pair 1's latest write of FW_LEVEL (R364). -/
  fwAt : Option Nat
  /-- PFW_N and the net-low event stand; the event a hold waits to begin for; the boundary it began at (R374). -/
  pfw : Bool
  netLow : Bool
  holdDue : Option Nat
  holdAt : Option Nat
  hint : Option Hint
  /-- COOL_ENABLE has been committed TRUE since the release of PORST_N (R371). -/
  coolOn : Bool
  /-- The code of each compute rail, and the beat of its latest change (18 R460). -/
  vid : List Nat
  vidAt : List Nat
  /-- PLLs that are not locked: 2 × die the main PLL, 2 × die + 1 the channel PLL, 4 the hub's (R353). -/
  unlocked : List Nat
  /-- Each PWM's period and released time in REFCLK periods, as the present period began (11 R292). -/
  pwm : List (Nat × Nat)
  deriving DecidableEq, Repr

/-- A trigger output, or PPS_OUT as the thirty-third (11 R280, R281). -/
structure Trig where
  /-- Device time of the commit that enabled it, none while it is disabled. -/
  since : Option Nat
  /-- The next edge, once started. -/
  next : Option Nat
  /-- Device time of the scheduled edge. -/
  sched : Option Nat
  /-- It drives its active level until this device time. -/
  until_ : Option Nat
  deriving DecidableEq, Repr

/-- A conditioned input (11 R283 to R286). -/
structure Input where
  /-- The filtered level of the pin. -/
  level : Bool
  /-- The active level last reported. -/
  reported : Bool
  /-- The time of the latest raw transition. -/
  raw : Nat
  lastEvent : Option Nat
  /-- Device time from which it has been active. -/
  active : Option Nat
  stuck : Bool
  /-- The diagnostic cycle in which a drop last raised the fault. -/
  dropCycle : Option Nat
  fifo : List Nat
  /-- FIFO_LOST of R286, which no object of R287 shows. -/
  lost : Nat
  deriving DecidableEq, Repr

/-- An input of the monitoring ADC (11 R288 to R290). -/
structure Adc where
  /-- The latest 16 codes, newest first. -/
  codes : List Nat
  /-- MEAN_CODE has left its range. -/
  out : Bool
  /-- Consecutive codes of AIN0 below NET_LOW_CODE. -/
  low : Nat
  deriving DecidableEq, Repr

/-- The pins of 11. -/
structure Pins where
  trigs : Tab Trig
  inputs : Tab Input
  adc : Tab Adc
  /-- Device time of the latest Sync, and of the latest Announce, on each master port (11 R277). -/
  syncSent : Tab Nat
  annSent : Tab Nat
  deriving DecidableEq, Repr


/-! ## Results (10) -/

/-- A slice's content that is due on a stream: delivered or not, and not yet closed (R242, R243). -/
structure Due where
  rel : Nat
  /-- The delivered row: source block and payload. -/
  row : Option (List Byte)
  withheld : Bool
  closeAt : Option Nat
  /-- The quads that worked for it, each with the beat in which the last slice on it completed (R245, R254). -/
  work : Tab Nat
  /-- CONFIG_GENERATION, the entries CONFIG_DIGEST is taken over, and ADMISSION_GENERATION (R253). -/
  cfg : Nat × Tab Nat × Nat
  /-- The beat in which the slice completed. -/
  doneAt : Nat
  deriving DecidableEq, Repr

/-- A content result that is neither confirmed nor retracted (R254). -/
structure Unsettled where
  seq : Nat
  /-- The quads that worked for it, each with the beat in which the last slice on it completed. -/
  work : Tab Nat
  /-- The beat in which its last slice completed: the hub's units worked for it until then. -/
  beat : Nat
  /-- Partner sources: member, output stream, last sequence number. -/
  partners : List (Nat × Nat × Nat)
  deriving DecidableEq, Repr

/-- An output stream beyond its objects (R241 to R264). -/
structure OutStream where
  start : Nat
  due : List Due
  unsettled : List Unsettled
  /-- The first boundary's RETRACT_FROM, when a retraction is pending (R256). -/
  retract : Option Nat
  /-- LATEST_CAPTURE of the most recent content record. -/
  latest : Nat
  /-- Records in a row that were empty or withheld (R262). -/
  gap : Nat
  /-- A content result has been settled (R255). -/
  settled : Bool
  lastContent : Option Nat
  tapSeq : Nat
  deriving DecidableEq, Repr

/-- A load's handle (R252): kind 1 program, 2 weight. -/
structure Handle where
  kind : Nat
  handle : Nat
  digest : Nat
  beat : Nat
  deriving DecidableEq, Repr

structure Results where
  outs : Tab OutStream
  handles : List Handle
  nextProg : Nat
  nextWeight : Nat
  /-- The weight handle of each context (R252). -/
  weights : Tab Nat
  /-- Bytes that each port has taken in the present beat (R267, R269). -/
  used : Tab Nat
  /-- The clean-through beat of the hub's path units, whether one has flagged in the present beat, and the same of the
  guard engines (15 R380). -/
  hubClean : Nat
  flagged : Bool
  guardClean : Nat
  /-- What R253 stamps a record with as it stood after step 2 of the latest 21 boundaries, newest first: a guard record's
  slice was released 20 beats before its close (02 R35). -/
  cfgs : List (Nat × Tab Nat × Nat)
  deriving DecidableEq, Repr

/-! ## Temporal memory (08) -/

/-- A resident page (R189); its key in the page map holds slot and frame. -/
structure Page where
  logical : Nat
  fill : Nat
  score : Nat
  pinned : Bool
  glob : Bool
  deriving DecidableEq, Repr

/-- An entry of a slice's list (R194, R197): SOURCE 0 global, 1 retrieved, 2 local. -/
structure TEntry where
  frame : Nat
  logical : Nat
  fill : Nat
  source : Nat
  deriving DecidableEq, Repr

/-- What the hub keeps of a temporal slot beyond its objects. -/
structure TSlot where
  /-- The forward slice's walk (R198): 0 none, 1 released, 2 after phase 1, 3 after phase 2, 4 after the mass read. -/
  phase : Nat
  /-- The backward slice's walk (R205): 0 none, 1 released, 2 after phase 1, 3 after phase 2. -/
  back : Nat
  /-- POSITION and beat of the latest forward release. -/
  pos : Nat
  rel : Nat
  list : List TEntry
  masses : List Nat
  /-- The forward slice of this period ended, neither stopped nor withheld. -/
  fwdOk : Bool
  /-- In pair-4 mode: the staged candidate scores, and the list staged for the next release (R201). -/
  scores : Option (List Nat)
  staged : Option (List TEntry)
  deriving DecidableEq, Repr

/-- The page map, by slot × 32,768 + frame, the slots, and each die's look-aside buffer, most recently used first. -/
structure Temporal where
  pages : Tab (Option Page)
  slots : Tab TSlot
  lab : List (List (Nat × Nat))
  deriving DecidableEq, Repr


/-! ## Control cores, firmware, the safety pins, the compute-part reset, the test access port (13, 15, 16, 18) -/

/-- A firmware image (13 R327): its bytes and the key slot that its signer's key matches. -/
structure FwImage where
  bytes : List Byte
  slot : Nat
  deriving DecidableEq, Repr

/-- An operation that waits at the crypto unit (13 R330, R345). -/
inductive CryptoOp where
  /-- A firmware LOAD: link, TAG and the whole message. -/
  | verify (link tag : Nat) (message : List Byte)
  | attest (link tag flags : Nat) (nonce : List Byte)
  deriving DecidableEq, Repr

/-- A pair beyond its objects (13 R331 to R334, 16 R418). -/
structure PairRun where
  /-- Beats of the restarts that R333 counts, newest first. -/
  counted : List Nat
  /-- The beat at which the pair last started, until its first heartbeat. -/
  start : Option Nat
  /-- The beat of its latest heartbeat. -/
  last : Nat
  /-- The pair is split, halted or not (13 R336). -/
  split : Bool
  deriving DecidableEq, Repr

structure Cores where
  pairs : List PairRun
  /-- The active and the pending region of hub control SRAM. -/
  active : Option FwImage
  pending : Option FwImage
  /-- FW_DIGEST as the LULL domain records it (01 R26). -/
  recorded : List Byte
  crypto : List CryptoOp
  /-- Pairs whose heartbeat an activation still waits for (13 R342). -/
  reporting : List Nat
  /-- The resumption of SAFE_OK waits for pair 0's first comparison (13 R334). -/
  compareDue : Bool
  deriving DecidableEq, Repr

/-- The safety pins and the diagnostic cycle (15 R379, R400, R402). -/
structure SafePins where
  /-- The level of SAFE_OK_P; SAFE_OK_N is its complement. -/
  high : Bool
  /-- The boundary from which every condition of R400 has held, none while one fails. -/
  okFrom : Option Nat
  /-- Boundaries in a row at which the guard path has closed a record. -/
  guardRun : Nat
  /-- The readback monitor finds both pins at their driven levels. -/
  readback : Bool
  /-- The boundary from which the interval of EXT_WDG counts, whether pair 0 has read as joined at each boundary since
  and has written its heartbeat, and the boundary the pulse ends at. -/
  wdgFrom : Nat
  wdgJoined : Bool
  wdgBeat : Bool
  wdgUntil : Option Nat
  /-- Diagnostic cycles that have been judged, and the beat of the latest pass of the start-up checks. -/
  cycles : Nat
  checkedAt : Option Nat
  deriving DecidableEq, Repr

/-- The compute-part reset beyond its objects (16 R420, R424). -/
structure ResetRun where
  /-- Beats at which resets began, newest first. -/
  begun : List Nat
  /-- The boundary from which the reset is asserted, and the one from which step 4 runs. -/
  asserted : Option Nat
  released : Option Nat
  /-- The boundary from which step 5 may come. -/
  tested : Option Nat
  deriving DecidableEq, Repr

/-- The test access port (18 R468): instruction 0 BYPASS, 1 SAMPLE, 2 PRELOAD, 3 EXTEST; the bypass bit; the boundary
scan cells as captured and as loaded. -/
structure Tap where
  ir : Nat
  bypass : Bool
  captured : Nat
  cells : Nat
  deriving DecidableEq, Repr

/-! ## The whole block -/

/-- Everything but memory and the queue of commands. -/
structure Blk where
  fuses : Fuses
  dev : Dev
  time : TimeBase
  /-- The object dictionary: key index × 256 + sub-index, value the object's bytes as a little-endian number. -/
  od : Tab Nat
  coll : Collector
  log : List LogEntry
  engines : Tab Engine
  /-- Tile queues, by quad (04 R101). -/
  tileq : Tab (List PassReq)
  /-- Synchronisation objects: die × 4,096 + index (04 R95). -/
  syncs : Tab (Option SyncObj)
  images : List Image
  /-- Released slices, by context (02 R33). -/
  slices : Tab Slice
  ctxs : Tab CtxRun
  quads : Tab QuadRun
  /-- Frames and answers the command under way has sent, newest last. -/
  out : List Output
  /-- How many free values have been taken (log 5). -/
  free : Nat
  /-- How many passes, chains and transfers have been issued: the order of issue (04 R94, R102). -/
  issues : Nat
  links : Links
  chans : Tab Chan
  res : Results
  sched : Sched
  pow : Power
  pins : Pins
  tm : Temporal
  ingest : Ingest
  guard : Guard
  casc : Cascade
  cores : Cores
  safe : SafePins
  rst : ResetRun
  tap : Tap
  deriving DecidableEq, Repr

/-- The whole state: the addressed stores, the block, and the commands that wait, first in, first out. -/
structure State where
  mem : List Host.Cell
  blk : Blk
  pending : List Instr
  deriving DecidableEq, Repr

/-- The block while one command runs: the stores as they were, and the command's own stores so far, newest first. -/
structure Work extends Blk where
  mem : List Host.Cell
  wr : List (Nat × List Byte)
  /-- The records that a boundary has closed and not yet given to their ports (10 R269): stream, SEQ, bytes. -/
  closed : List (Nat × Nat × List Byte)

/-! ## Reset -/

/-- The fuses of the module of this model. DESIGN CHOICE (log 2): the spec reads them from fuses and gives no values. -/
def Fuses.reset : Fuses :=
  { grade := .skh2256, serial := 1, mac := 0x020000000001, keySlots := (List.range 4).map Config.fusedKey, revoked := 0, debugLock := false,
    vf := [750, 700, 675, 600] }

def Dev.reset : Dev :=
  { state := .porst, prev := 0, cause := 1, warm := false, noRefclk := false, ready := false, wake := false, nodeId := 0,
    casc := 0, retained := false, checksPassed := false, starting := false, draining := false, steps := [],
    emergency := 0, escalate := none, quadLost := false, safetyShed := false }

def TimeBase.reset : TimeBase :=
  { beat := 0, ns := 0, sync := 0, gen := 0, t0 := 0, n0 := 0, rate := 0, samples := [], good := 0, bad := 0,
    newMap := none, stepOk := true, lastSample := 0, holdoverFrom := 0, pathDelay := 0, openSync := none,
    ppsSeconds := none }

def Collector.reset : Collector := { keys := [], latches := [], resetBy := none, pendingMap := [] }

def Half.idle : Half :=
  { run := none, next := none, kept := none, chain := [], waiting := [], rerun := [], second := false, active := [],
    loaded := [] }

def VecEng.idle : VecEng :=
  { tiles := [], rows := [], status := 0, queue := [], issued := [], running := none, allot := [] }

def Slot.idle : Slot :=
  { ctx := none16, live := false, pc := 0, dp := 0, loops := [none, none, none, none], charge := 0, wait := .ready,
    last := none, returned := [], progress := 0, stopping := false }

/-- An engine with nothing on it: what an unlisted engine reads as. -/
def Engine.idle : Engine :=
  { slots := List.replicate 16 Slot.idle, h0 := Half.idle, h1 := Half.idle, status := 0, dma := [], vec := VecEng.idle,
    tag := 0, cache := [], rings := [] }

def Slice.idle : Slice :=
  { live := false, rel := 0, open_ := [], withheld := false, missed := false, stopped := none, unacked := [],
    doneAt := none, quads := 0, outs := 0, cfg := (0, [], 0), startAt := 0 }

def CtxRun.idle : CtxRun :=
  { pendingAt := none, decided := none, withdrawAt := none, firstAt := 0, needPred := none, lastDone := 0, lastRel := 0, chainWork := [],
    ingest := 0, bursts := [], packets := [], lost := false, level := none, anyCore := false, minLevel := 0 }

def QuadRun.idle : QuadRun :=
  { gated := false, droop := false, cleared := 0, credit := 0, stretched := 0, cap := 1000, admitClock := 1000, clockTested := 1000,
    deferred := false, stepAt := none, waitFrom := none, spent := false,
    raised := false, heavy := false, remedy := 0, retestAt := none, garnet := none, tested := [] }

def Sched.reset : Sched := { recompute := none, commitAt := none, plan := [], planEnd := 0 }

def Partner.idle : Partner := { heard := 0, state := 0, flags := 0, lostMask := 0, lost := false, leave := none }
def CascPort.idle : CascPort := { peer := none, next := 0, ack := 65535, sent := [], asm := [] }
def Cascade.reset : Cascade :=
  { ports := List.replicate 3 CascPort.idle, partners := List.replicate 4 Partner.idle, recs := [], marks := [],
    trainFrom := none, formAt := none, aborts := [], abortOut := 0, stretchOut := 0, stretch := [], held := [],
    resumeAt := [], request := none, drained := false, schedule := none, done := [], map := none, expel := 0, expelled := false }

def Chan.idle : Chan :=
  { queue := [], scrub := 0, scrubFrom := none, starved := false, ops := 0, phase := 0, refresh := none, cool := none, calBad := 0,
    delay := 0, beat := 0, ticks := 0, used := 0, slot := false, low := 0 }

def SFrame.idle : SFrame :=
  { idx := 0, ctr := 0, ref := 0, got := 0, closed := 0, valid := 0, ready := [], busy := [], wr := false, gone := false,
    overrun := false, outside := false, rings := none, last := none }
def Pix.idle : Pix := { raws := [], entered := 0, store := [], outY := 0, formed := [] }
def zeroChain : List Byte := List.replicate 32 0
def InStream.idle : InStream :=
  { next := 0, frames := [], lastRef := none, fs := false, mode := 0, chain := zeroChain, fresh := true, table := [],
    pix := Pix.idle, vals := none, held := [], seq := none, asm := none, queue := [], run := none }
def Ingest.reset : Ingest := { streams := [], cache := [] }
def GuardCam.idle : GuardCam := { cur := [], prev := none, same := 0 }
def Guard.reset : Guard :=
  { points := [], ends := [], cams := [], status := 0, now := List.replicate 32 20000, last := List.replicate 32 20000,
    nowTime := none, lastTime := none, minima := [], outs := [], bad := 0, badSeq := 0, compare := [], mismatch := false }

def Stage.empty : Stage := { writes := [], commitAt := none, order := 0, reply := none }
def Session.closed : Session :=
  { up := false, version := 0, last := 0, partials := [], answers := [], peer := [] }
def Ring.off : Ring := { base := 0, entries := 0, tail := 0, head := 0, status := 0, code := 0, link := 0 }
def CanCtrl.reset : CanCtrl := { busOff := false, usdo := none, beatSent := 0 }
def Window.reset : Window :=
  { irq := 0, irqEnable := 0, rings := List.replicate 4 Ring.off, cqBase := 0, cqEntries := 0, cqHead := 0, cqTail := 0,
    beatHi := 0 }
def Links.reset : Links :=
  { stages := List.replicate 4 Stage.empty, orders := 0, usb := Session.closed, udp := Session.closed,
    win := Window.reset,
    can := [CanCtrl.reset, CanCtrl.reset], ssfCount := 0, effects := [], gcl := [], silent := false, joint := none }
def Power.reset : Power :=
  { rest := 0, lastEst := none, qRest := 0, since := 0, overs := 0, full := 0, up := 0, down := 0, hot := 0, inlet := 0, flow := 0,
    calm := 0, trips := [], fwAt := none, pfw := false, netLow := false, holdDue := none, holdAt := none,
    hint := none, coolOn := false, vid := [40, 40], vidAt := [0, 0], unlocked := [0, 1, 2, 3, 4],
    pwm := [(25000, 25000), (25000, 25000)] }
def Trig.idle : Trig := { since := none, next := none, sched := none, until_ := none }
def Input.idle : Input :=
  { level := false, reported := false, raw := 0, lastEvent := none, active := none, stuck := false, dropCycle := none,
    fifo := [], lost := 0 }
/-- MEAN_CODE reads 0 at reset, outside its range. -/
def Adc.idle : Adc := { codes := [], out := true, low := 0 }
def Pins.reset : Pins := { trigs := [], inputs := [], adc := [], syncSent := [], annSent := [] }


def OutStream.idle : OutStream :=
  { start := 0, due := [], unsettled := [], retract := none, latest := 0, gap := 0, settled := false,
    lastContent := none, tapSeq := 0 }
def Results.reset : Results :=
  { outs := [], handles := [], nextProg := 1, nextWeight := 1, weights := [], used := [], hubClean := 0, flagged := false,
    guardClean := 0, cfgs := [] }

def TSlot.idle : TSlot :=
  { phase := 0, back := 0, pos := 0, rel := 0, list := [], masses := [], fwdOk := false, scores := none, staged := none }
def Temporal.reset : Temporal := { pages := [], slots := [], lab := [[], []] }
def PairRun.reset : PairRun := { counted := [], start := none, last := 0, split := false }
def Cores.reset : Cores :=
  { pairs := List.replicate 6 PairRun.reset, active := none, pending := none, recorded := List.replicate 64 0, crypto := [],
    reporting := [], compareDue := false }
/-- During PORST_N both SAFE_OK pins and EXT_WDG are low (18 R464). -/
def SafePins.reset : SafePins :=
  { high := false, okFrom := none, guardRun := 0, readback := true, wdgFrom := 0, wdgJoined := true, wdgBeat := false,
    wdgUntil := none, cycles := 0, checkedAt := none }
def ResetRun.reset : ResetRun := { begun := [], asserted := none, released := none, tested := none }
def Tap.reset : Tap := { ir := 0, bypass := false, captured := 0, cells := 0 }


def Blk.reset : Blk :=
  { fuses := Fuses.reset, dev := Dev.reset, time := TimeBase.reset, od := [], coll := Collector.reset, log := [],
    engines := [], tileq := [], syncs := [], images := [], slices := [], ctxs := [], quads := [], out := [], free := 0, issues := 0, links := Links.reset, chans := [], res := Results.reset, sched := Sched.reset, pow := Power.reset, pins := Pins.reset, tm := Temporal.reset, ingest := Ingest.reset, guard := Guard.reset, casc := Cascade.reset, cores := Cores.reset, safe := SafePins.reset, rst := ResetRun.reset, tap := Tap.reset }

/-- The block at power-up, held in PORST_N (18 R469): every object at its default (00 R2), memory with nothing listed,
no command waiting. -/
def State.reset : State := { mem := [], blk := Blk.reset, pending := [] }

end Sys2Proof.Machine
end

