-- ==== Sys2Proof/Machine/ObjDict.lean ====
section
/-! DEFINITION. The object dictionary (12 R294 to R297): which objects exist on the grade, their access, width and
default, and the one operation that reads a committed value and the one that changes it. -/

namespace Sys2Proof.Machine

/-! ## Units of the grade (00 R3, R4, R10) -/

def dies (f : Fuses) : Nat := match f.grade with | .skh2256 => 2 | .skh2128 => 1
def quadCount (f : Fuses) : Nat := 32 * dies f
def engineCount (f : Fuses) : Nat := 128 * dies f
def channelCount (f : Fuses) : Nat := 96 * dies f
/-- MEM_TOP (07 R184). -/
def memTop (f : Fuses) : Nat := 0x300000000 * dies f

/-- A context that the grade has (02 R35). -/
def ctxExists (f : Fuses) (n : Nat) : Bool := decide (n < 960 + quadCount f)

/-- A context whose declaration is fixed: the guard context and the Garnet contexts (02 R35). -/
def ctxFixed (n : Nat) : Bool := n == 0 || decide (960 ≤ n)

/-! ## Rows -/

/-- The row of an index and sub-index in the spec's tables. -/
def objRow (idx sub : Nat) : Option ObjRow :=
  match objTables.find? (fun t => decide (t.1 ≤ idx) && decide (idx < t.1 + t.2.1)) with
  | none => none
  | some t => t.2.2.find? (fun r => decide (idx < r.1 + r.2.1) && decide (r.2.2.1 ≤ sub) &&
      decide (sub < r.2.2.1 + r.2.2.2.1))

def rowBytes (r : ObjRow) : Nat := r.2.2.2.2.1
def rowAccess (r : ObjRow) : Nat := r.2.2.2.2.2.1
def rowBool (r : ObjRow) : Bool := r.2.2.2.2.2.2.2.2

/-- Whether an index is an object of the grade (00 R4, 02 R35: absent ones answer 0x0602_0000). -/
def idxExists (f : Fuses) (idx : Nat) : Bool :=
  (objTables.any (fun t => decide (t.1 ≤ idx) && decide (idx < t.1 + t.2.1))) &&
  !(decide (0x5000 ≤ idx) && decide (idx < 0x5040) && decide (quadCount f ≤ idx - 0x5000)) &&
  !(decide (0x4000 ≤ idx) && decide (idx < 0x4400) && !ctxExists f (idx - 0x4000))

/-- Whether a sub-index of an existing index exists on the grade (08 R208: the die 1 counters do not on SKH-2128-A). -/
def subExists (f : Fuses) (idx sub : Nat) : Bool :=
  (objRow idx sub).isSome && !(idx == 0x26C0 && decide (7 ≤ sub) && dies f == 1)

/-- The access of a sub-index: 0 RO, 1 RW, 2 RW in CONFIG, 3 WO, 4 WO in CONFIG, 5 CONST (12 R295), with the objects
that are CONST on some members only (02 R34, R35; 11 R287; 13 R349). -/
def objAccess (idx sub : Nat) : Nat :=
  match objRow idx sub with
  | none => 5
  | some r =>
    let a := rowAccess r
    if 0x4000 ≤ idx ∧ idx < 0x4400 ∧ ctxFixed (idx - 0x4000) = true ∧ a = 1 then 5
    else if 0x2150 ≤ idx ∧ idx ≤ 0x2153 ∧ (sub = 2 ∨ sub = 7 ∨ sub = 8) then 5
    else if (idx = 0x2510 ∨ idx = 0x2511) ∧ sub = 2 then 5
    else a

/-! ## Defaults -/

/-- The text of 12 R306's DEVICE_NAME. -/
def deviceName (g : Grade) : Nat :=
  leNat (textBytes 17 ([0x48, 0x65, 0x6C, 0x72, 0x69, 0x6E, 0x20, 0x53, 0x4B, 0x48, 0x2D, 0x32] ++
    (match g with | .skh2256 => [0x32, 0x35, 0x36] | .skh2128 => [0x31, 0x32, 0x38]) ++ [0x2D, 0x41]))

/-- "BOOT", padded with spaces (12 R306, 13 R348). -/
def bootText : Nat := leNat (textBytes 16 [0x42, 0x4F, 0x4F, 0x54])

/-- 16 spaces (13 R348 PENDING_VERSION). -/
def blankText : Nat := leNat (textBytes 16 [])

/-- The identity of LUT: entry i of each channel is 16 × i, the least value it stands for. DEDUCED (log 6). -/
def lutIdentity : Nat :=
  let one := leNat ((List.range 4096).flatMap (fun i => leBytes 2 (16 * i)))
  one + one * 2 ^ 65536 + one * 2 ^ 131072

/-- 11 R285's defaults of a conditioned input: input number 0 to 15 CAP_IN, 16 PPS_IN, 17 WAKE, 18 ERR_IN_N, 19
PFW_N. -/
def inputDefault (i sub : Nat) : Nat :=
  match sub with
  | 3 => if i = 18 ∨ i = 19 then 1 else 0
  | 4 => if i = 17 then 250 else if i = 18 ∨ i = 19 then 5 else 2
  | 5 => if i = 16 then 500000000 else if i = 17 then 10000000 else 1000
  | _ => if i = 16 then 900 else if i = 17 then 4294967295 else if i = 19 then 10 else 1000

/-- The fixed declaration of a context of 02 R35. -/
def fixedDecl (n sub : Nat) : Nat :=
  let q := n - 960
  match sub with
  | 0x01 => 1
  | 0x02 => if n = 0 then 0 else 1
  | 0x03 => if n = 0 then 1 else 64
  | 0x04 => if n = 0 then 0 else q
  | 0x05 => if n = 0 then 20 else 64
  | 0x06 => if n = 0 then 20 else 200
  | 0x07 => none16
  | 0x10 => if n = 0 then 0 else 2 ^ q
  | 0x11 => if n = 0 then 0 else 512
  | 0x12 => if n = 0 then 0 else 512
  | _ => 0

/-- Kinds of default of ObjTable that are no literal. -/
def specialDefault (f : Fuses) (node kind idx sub : Nat) : Nat :=
  match kind with
  | 1 => 0x2000 + 0x2000 * 2 ^ 64 + 0x2000 * 2 ^ 128
  | 2 => lutIdentity
  | 3 => 0x10000 + 0x10000 * 2 ^ 96
  | 4 => 0x3F800000 + 0x3F800000 * 2 ^ 128 + 0x3F800000 * 2 ^ 256
  | 5 => inputDefault (idx - 0x2140) sub
  | 6 => if sub = 1 then sevDefault else if sub = 2 then lastingDefault else sevMinimum
  | 7 => match f.grade with | .skh2256 => 0x2256 | .skh2128 => 0x2128
  | 8 => f.serial
  | 9 => channelCount f
  | 10 => memTop f
  | 11 => deviceName f.grade
  | 12 => bootText
  | 13 => 0x100 + node
  | 14 => (f.mac + (idx - 0x2820)) % 2 ^ 48
  | 15 => blankText
  | 16 => Config.identityKey % 2 ^ 20736
  | 17 => b2n f.debugLock
  | 18 => f.revoked
  | 19 => match f.grade with | .skh2256 => 280 | .skh2128 => 150
  | 20 => match f.grade with | .skh2256 => 320 | .skh2128 => 170
  | 21 => match f.grade with | .skh2256 => 280000 | .skh2128 => 150000
  | 22 => nth 0 f.vf 0
  | 23 => nth 0 f.vf 1
  | 24 => nth 0 f.vf 2
  | 25 => nth 0 f.vf 3
  | _ => 0

/-- What a sub-index holds until a commit or the device changes it. -/
def objDefault (f : Fuses) (node idx sub : Nat) : Nat :=
  if 0x4000 ≤ idx ∧ idx < 0x4400 ∧ ctxFixed (idx - 0x4000) = true ∧ 0 < sub ∧ objAccess idx sub = 5 then
    fixedDecl (idx - 0x4000) sub
  else if 0x2150 ≤ idx ∧ idx ≤ 0x2153 ∧ sub = 2 then 1
  else match objRow idx sub with
    | none => 0
    | some r => if r.2.2.2.2.2.2.1 = 0 then r.2.2.2.2.2.2.2.1 else specialDefault f node r.2.2.2.2.2.2.1 idx sub

/-! ## The committed values -/

def odKey (idx sub : Nat) : Nat := idx * 256 + sub

/-- The committed value of a sub-index whose home is the dictionary. -/
def odGet (b : Blk) (idx sub : Nat) : Nat :=
  match tabFind b.od (odKey idx sub) with
  | some v => v
  | none => objDefault b.fuses b.dev.nodeId idx sub

/-- The bytes of a sub-index's type. -/
def odBytes (idx sub : Nat) : Nat := ((objRow idx sub).map rowBytes).getD 0

/-- Change a sub-index, its value cut to the type's bytes; the default leaves no entry. -/
def odPut (idx sub v : Nat) (w : Work) : Work :=
  let t := v % 2 ^ (8 * odBytes idx sub)
  { w with od := if t = objDefault w.fuses w.dev.nodeId idx sub then tabErase w.od (odKey idx sub)
                 else tabInsert w.od (odKey idx sub) t }

/-- Add to a counter object, which saturates at its type (03 R73 and the "Counts and saturates" rows). -/
def odAdd (idx sub k : Nat) (w : Work) : Work :=
  odPut idx sub (satAdd (8 * odBytes idx sub) (odGet w.toBlk idx sub) k) w

/-- A sub-index of a context's object 0x4000 + n (02 R34). -/
def ctxGet (b : Blk) (n sub : Nat) : Nat := odGet b (0x4000 + n) sub
def ctxPut (n sub v : Nat) (w : Work) : Work := odPut (0x4000 + n) sub v w
def ctxAdd (n sub k : Nat) (w : Work) : Work := odAdd (0x4000 + n) sub k w

/-- A sub-index of a quad's object 0x5000 + q (02 R473). -/
def quadGet (b : Blk) (q sub : Nat) : Nat := odGet b (0x5000 + q) sub
def quadPut (q sub v : Nat) (w : Work) : Work := odPut (0x5000 + q) sub v w
def quadAdd (q sub k : Nat) (w : Work) : Work := odAdd (0x5000 + q) sub k w

end Sys2Proof.Machine
end

