-- ==== Sys2Proof/Machine/Ops.lean ====
section
/-! DEFINITION. The operations every meaning shares: memory through a command's own stores, output, the log ring, the
interrupt bits, the fault collector, and how a command's work becomes the next state. -/

namespace Sys2Proof.Machine

/-! ## A command's work -/

/-- The work of a command begins with the state as it stands and nothing sent or stored yet. -/
def workOf (s : State) : Work := { s.blk with out := [], mem := s.mem, wr := [], closed := [] }

/-- The state after a command's work: its stores applied in order, the queue as it was. -/
def commitWork (s : State) (w : Work) : State :=
  { s with mem := memPutAll s.mem w.wr, blk := w.toBlk }

/-- A command: refused when an operand lies outside its encoding, a fault when it names a unit that the grade does not
have, otherwise its effect. -/
def perform (ok there : Bool) (f : Work → Work) (s : State) : Host.Outcome State Fault Refusal :=
  if ok then (if there then .next (commitWork s (f (workOf s))) else .fault .absentUnit) else .refused .malformed

/-! ## The addressed stores

Keys: main memory is its byte address of the module map (07 R171); scratchpad byte a of engine e, line-buffer byte a of
engine e and byte a of the register window's ring memory (12 R320) follow above it. -/

def spmKey (e a : Nat) : Nat := 0x1000000000 + e * 0x100000 + a
def lbKey (e a : Nat) : Nat := 0x2000000000 + e * 0x20000 + a
def winKey (a : Nat) : Nat := 0x3000000000 + a

/-- `k` bytes from a key, under the command's own stores. -/
def rd (w : Work) (a k : Nat) : List Byte := memRange w.mem w.wr a k

/-- A little-endian number of `k` bytes at a key. -/
def rdNat (w : Work) (a k : Nat) : Nat := leNat (rd w a k)

/-- Store bytes at a key. -/
def put (a : Nat) (bs : List Byte) (w : Work) : Work := { w with wr := (a, bs) :: w.wr }

/-! ## Units -/

def engineOf (b : Blk) (e : Nat) : Engine := tabGet Engine.idle b.engines e
def modEngine (e : Nat) (f : Engine → Engine) (w : Work) : Work :=
  { w with engines := tabMod Engine.idle w.engines e f }
def slotOf (g : Engine) (k : Nat) : Slot := nth Slot.idle g.slots k
def modSlot (e k : Nat) (f : Slot → Slot) (w : Work) : Work :=
  modEngine e (fun g => { g with slots := setNth g.slots k (f (slotOf g k)) }) w
def ctxRun (b : Blk) (n : Nat) : CtxRun := tabGet CtxRun.idle b.ctxs n
def modCtx (n : Nat) (f : CtxRun → CtxRun) (w : Work) : Work := { w with ctxs := tabMod CtxRun.idle w.ctxs n f }
def sliceOf (b : Blk) (n : Nat) : Slice := tabGet Slice.idle b.slices n
def modSlice (n : Nat) (f : Slice → Slice) (w : Work) : Work := { w with slices := tabMod Slice.idle w.slices n f }
def quadRun (b : Blk) (q : Nat) : QuadRun := tabGet QuadRun.idle b.quads q
def modQuad (q : Nat) (f : QuadRun → QuadRun) (w : Work) : Work := { w with quads := tabMod QuadRun.idle w.quads q f }

/-- Apply an operation for each element of a list, in order. -/
def forAll {α : Type} (l : List α) (f : α → Work → Work) (w : Work) : Work := l.foldl (fun w a => f a w) w

/-- Do something only when a condition holds. -/
def doIf (c : Bool) (f : Work → Work) (w : Work) : Work := if c then f w else w

/-- The place of the next pass, chain or transfer in the order of issue. -/
def issueStamp (w : Work) : Work := { w with issues := w.issues + 1 }

/-! ## Output -/

def send (o : Output) (w : Work) : Work := { w with out := w.out ++ [o] }

/-- Device time advances: PORST_N is released and REFCLK runs (11 R272, 18 R471). -/
def clockRuns (b : Blk) : Bool := b.dev.state != .porst && !b.dev.noRefclk

/-- The moment of the present beat that a command names: device time never goes back and never passes the boundary that
BEAT_BOUNDARY brings, and any other time stands for the present one. -/
def moment (t : Nat) (w : Work) : Nat :=
  if clockRuns w.toBlk = true ∧ w.time.ns ≤ t ∧ t < 2000 * (w.time.ns / 2000) + 2000 then t else w.time.ns

/-- Device time at that moment: the last rising edge of REFCLK, which is every 40 ns (11 R272). -/
def atTime (t : Nat) (w : Work) : Work :=
  if clockRuns w.toBlk = true ∧ w.time.ns ≤ t ∧ t < 2000 * (w.time.ns / 2000) + 2000 then { w with time.ns := t / 40 * 40 } else w

/-! ## Interrupt bits (12 R320) -/

/-- The IRQ_STATUS bits as they read: bits 0 and 3 stand while the completion ring and the log ring hold entries. -/
def irqView (b : Blk) : Nat :=
  let v := setBit b.links.win.irq 0 (b.links.win.cqHead != b.links.win.cqTail)
  setBit v 3 (!b.log.isEmpty)

/-- An EVENT frame of 12 R315 on each open session. -/
def sendEvent (w : Work) : Work :=
  let body := leBytes 4 (irqView w.toBlk)
  let w := doIf w.links.usb.up (send (.crino 0 0x61 0 0 body)) w
  doIf w.links.udp.up (send (.crino 1 0x61 0 0 body)) w

/-- A bit of IRQ_STATUS rises; an enabled one sends an EVENT frame (12 R320). -/
def irqRaise (i : Nat) (w : Work) : Work :=
  let was := bit w.links.win.irq i
  let w := { w with links.win.irq := setBit w.links.win.irq i true }
  doIf (!was && bit w.links.win.irqEnable i) sendEvent w

/-! ## The log ring (13 R346, R347) -/

/-- Write an entry: a full ring overwrites the oldest, counted in LOG_LOST. -/
def logWrite (level origin point : Nat) (args : List Nat) (w : Work) : Work :=
  let seq := odGet w.toBlk 0x2540 5
  let e : LogEntry := { seq, level, origin, point := origin % 8 * 2 ^ 13 + point % 2 ^ 13, time := w.time.ns, args }
  let w := odPut 0x2540 5 ((seq + 1) % 2 ^ 32) w
  let was := w.log.isEmpty
  let w := if 2048 ≤ w.log.length then odAdd 0x2540 4 1 { w with log := w.log.drop 1 ++ [e] }
           else { w with log := w.log ++ [e] }
  doIf (was && bit w.links.win.irqEnable 3) sendEvent w

/-- The 32 bytes of an entry (13 R346). -/
def logBytes (e : LogEntry) : List Byte :=
  leBytes 4 e.seq ++ leBytes 1 e.level ++ leBytes 1 e.origin ++ leBytes 2 e.point ++ leBytes 8 e.time ++
  (e.args.flatMap (leBytes 4))

/-! ## The fault collector (16) -/

/-- A fault message (16 R407). -/
def faultMsg (source unit detail : Nat) : Nat :=
  2 ^ 60 + source % 512 * 2 ^ 51 + faultKind source * 2 ^ 47 + unit % 8192 * 2 ^ 32 + detail % 2 ^ 32

/-! ## Sequence numbers (10 R260) -/

/-- a lies at or before b. -/
def seqLe (a b : Nat) : Bool := decide ((b + 2 ^ 32 - a) % 2 ^ 32 < 2 ^ 31)
/-- The earlier of two. -/
def seqMin (a b : Nat) : Nat := if seqLe a b then a else b

/-- The highest severity held among the latched sources (16 R414). -/
def highestLatched (b : Blk) : Nat := b.coll.latches.foldl (fun m p => max m p.2) 0

/-- FAULT_N is low: a latched severity asserts it, and throughout SAFE (15 R401). -/
def faultLow (b : Blk) : Bool := decide (2 ≤ highestLatched b) || b.dev.state == .safe || b.dev.noRefclk

/-- Whether a message of a key at the present beat is lasting, with the keys after it (16 R412); the last component
says that no entry was free. -/
def classify (b : Blk) (source unit : Nat) : Bool × List FaultKey × Bool :=
  let now := b.time.beat
  let win := odGet b 0x2400 3
  let live := b.coll.keys.filter (fun k => decide (now < nth 0 k.beats 0 + win))
  match live.find? (fun k => k.source == source && k.unit == unit) with
  | some k =>
    let beats := (now :: k.beats).take 8
    let n := (beats.filter (fun t => decide (now < t + win))).length
    (decide (odGet b 0x2400 2 ≤ n),
      live.map (fun j => if j.source == source && j.unit == unit then { j with beats := beats } else j), false)
  | none =>
    if 1024 ≤ live.length then (true, live, true)
    else (decide (odGet b 0x2400 2 ≤ 1), live ++ [{ source, unit, beats := [now] }], false)

/-- The severity a source applies to a passing or a lasting fault (16 R409). -/
def severityOf (b : Blk) (source : Nat) (lasting : Bool) : Nat :=
  fld (odGet b 0x2401 (if lasting then 2 else 1)) (8 * source + 7) (8 * source)

/-- EVENT_COUNTS and FAULTS_RAISED (16 R413 step 2). -/
def countEvent (source : Nat) (w : Work) : Work :=
  let t := odGet w.toBlk 0x2401 5
  odPut 0x2401 5 (setFld t (32 * source + 31) (32 * source) (satAdd 32 (fld t (32 * source + 31) (32 * source)) 1)) w

/-- First-error capture (16 R415), with the master 0xFFFF and the access 0 where no rule names them (DESIGN CHOICE, log 154). -/
def captureFirst (msg master access sev : Nat) (w : Work) : Work :=
  if sev < odGet w.toBlk 0x2400 0x0A then w
  else if odGet w.toBlk 0x2410 1 = 1 then odAdd 0x2410 6 1 w
  else
    let w := odPut 0x2410 1 1 w
    let w := odPut 0x2410 2 msg w
    let w := odPut 0x2410 3 master w
    let w := odPut 0x2410 4 access w
    odPut 0x2410 5 w.time.ns w

/-- Whether a compute-part reset is in progress (16 R420). -/
def resetting (b : Blk) : Bool := odGet b 0x2430 3 != 0

/-- Apply a severity (16 R409): the latch now, the larger reactions at the next boundary. A RESET message in BOOT or
LULL, or during a reset, begins none (16 R424, R426); in SAFE the compute part is held in reset already (R425). -/
def applySeverity (source msg sev : Nat) (w : Work) : Work :=
  let held := tabGet 0 w.coll.latches source
  let w := if sev = 0 then w else { w with coll.latches := tabSet 0 w.coll.latches source (max held sev) }
  let idle := w.dev.state == .boot || w.dev.state == .lull || w.dev.state == .porst || w.dev.state == .safe
  let w := if sev = 4 ∧ idle = false ∧ resetting w.toBlk = false ∧ w.coll.resetBy = none then
      { w with coll.resetBy := some msg } else w
  if sev = 5 ∧ w.dev.escalate = none ∧ w.dev.state ≠ .safe then { w with dev.escalate := some source } else w

/-- The collector's work on one message (16 R408, R413), but for what R424 adds. -/
def collectOne (msg master access : Nat) (w : Work) : Work :=
  let source := fld msg 59 51
  let kind := fld msg 50 47
  let unit := fld msg 44 32
  if 7 < kind then odAdd 0x2400 5 1 w
  else if kind = 7 then countEvent source w
  else
    let c := classify w.toBlk source unit
    let w := { w with coll.keys := c.2.1 }
    let w := doIf c.2.2 (odAdd 0x2400 6 1) w
    let sev := severityOf w.toBlk source c.1
    let w := odAdd 0x2400 4 1 (countEvent source w)
    let w := logWrite 3 7 source [msg % 2 ^ 32, msg / 2 ^ 32 % 2 ^ 32,
      master % 2 ^ 16 + access % 256 * 2 ^ 16 + sev % 8 * 2 ^ 24 + b2n c.1 * 2 ^ 27, w.time.beat % 2 ^ 32] w
    let w := irqRaise 2 w
    let w := captureFirst msg master access sev w
    applySeverity source msg sev w

/-- The resets begun in the last RESET_WINDOW_BEATS (16 R424). -/
def resetsInWindow (b : Blk) : Nat := (b.rst.begun.filter (fun t => decide (b.time.beat < t + odGet b 0x2430 2))).length

/-- A cause of a compute-part reset that RESET_LIMIT no longer allows: "compute reset limit", with the cause in DETAIL,
and the escalation instead (16 R424). -/
def limitStep (w : Work) : Work :=
  match w.coll.resetBy with
  | none => w
  | some msg =>
    if resetsInWindow w.toBlk + 1 < odGet w.toBlk 0x2430 1 then w
    else collectOne (faultMsg 0x0E0 0 (fld msg 59 51)) none16 0 { w with coll.resetBy := none }

/-- What the collector does with a message (16 R408, R413, R424). A test message and one of a reserved kind are only counted. -/
def collect (msg master access : Nat) (w : Work) : Work :=
  doIf (decide (fld msg 50 47 < 7)) limitStep (collectOne msg master access w)

/-- A message that finds the queue full: counted as lost, and the source's line still counts it, sets IRQ_STATUS bit 2
and applies its SEVERITY (16 R413); the capture needs the message and is not made (log 169). -/
def collectLost (msg : Nat) (w : Work) : Work :=
  let source := fld msg 59 51
  let w := odAdd 0x2400 5 1 w
  let w := irqRaise 2 (odAdd 0x2400 4 1 (countEvent source w))
  limitStep (applySeverity source msg (severityOf w.toBlk source false) w)

/-- A unit raises a fault; the access it concerns is none unless a master is named. -/
def raiseBy (master access source unit detail : Nat) (w : Work) : Work :=
  collect (faultMsg source unit detail) master access w

def raise (source unit detail : Nat) (w : Work) : Work := raiseBy none16 0 source unit detail w

/-- Whether a message of the source and unit would be lasting if it arrived now. -/
def wouldLast (b : Blk) (source unit : Nat) : Bool := (classify b source unit).1

/-- Take a free value (log 5). -/
def takeFree (w : Work) : Nat × Work := (w.free, { w with free := w.free + 1 })

/-- A change that the device commits by itself (12 R303): the generation, the beat, and a log entry, whose level, point and
arguments the spec does not give (log 56). -/
def deviceCommit (w : Work) : Work :=
  let f := w.free
  let w := odPut 0x2002 1 ((odGet w.toBlk 0x2002 1 + 1) % 2 ^ 32) { w with free := w.free + 6 }
  let w := odPut 0x2001 4 w.time.beat w
  let v := fun (k : Nat) => Config.freeValue (f + k)
  logWrite (v 0 % 4) 3 (v 1) [v 2 % 2 ^ 32, v 3 % 2 ^ 32, v 4 % 2 ^ 32, v 5 % 2 ^ 32] w

/-- RUN, ADAPT and SQUALL. -/
def activeState (b : Blk) : Bool :=
  b.dev.state == .run || b.dev.state == .adapt || b.dev.state == .squall

/-- The states in which firmware serves objects. -/
def servedState (b : Blk) : Bool := activeState b || b.dev.state == .config || b.dev.state == .safe

/-- The code of a device state (01 R17). -/
def stateCode : DevState → Nat
  | .boot => 1
  | .config => 2
  | .run => 3
  | .adapt => 4
  | .squall => 5
  | .safe => 6
  | .lull => 7
  | .porst => 0

end Sys2Proof.Machine
end

