-- ==== Sys2Proof/Machine/Pixels.lean ====
section
/-! DEFINITION. Pre-processing of pixel rows (09 R228 to R232): demosaic, colour matrix, lookup, crop, geometry and
conversion, as functions of a stream's configuration and its rows. -/

namespace Sys2Proof.Machine

/-! ## A stream's configuration -/

/-- A sub-index of ingest stream n: cameras 0x3000 + n, Ethernet streams 0x3010 + (n − 16), which is the same (R210). -/
def inGet (b : Blk) (n sub : Nat) : Nat := odGet b (0x3000 + n) sub
def inPut (n sub v : Nat) (w : Work) : Work := odPut (0x3000 + n) sub v w
def inAdd (n sub k : Nat) (w : Work) : Work := odAdd (0x3000 + n) sub k w

def inCamera (n : Nat) : Bool := decide (n < 16)
/-- REC_TYPE of the stream's records (R211): 1 camera row, 2 point block, 3 JPEG XS slice, 4 signal record. -/
def inType (b : Blk) (n : Nat) : Nat := if inCamera n then 1 else inGet b n 0xA
def inPixels (b : Blk) (n : Nat) : Bool := inType b n == 1 || inType b n == 3
def inRecords (b : Blk) (n : Nat) : Nat := inGet b n 0x10
def inTrigger (b : Blk) (n : Nat) : Nat := inGet b n (if inCamera n then 0xB else 0xD)
def inContext (b : Blk) (n : Nat) : Nat := inGet b n 3
/-- Width and height of the source image. -/
def imgW (b : Blk) (n : Nat) : Nat := if inCamera n then inGet b n 9 else inGet b n 0xE / 65536
def imgH (b : Blk) (n : Nat) : Nat := if inCamera n then inGet b n 0xA else inGet b n 0xE % 65536
/-- The crop rectangle: X0, Y0, W, H; 0 means the whole image (R230). -/
def cropOf (b : Blk) (n : Nat) : Nat × Nat × Nat × Nat :=
  let c := inGet b n 0x1B
  if c = 0 then (0, 0, imgW b n, imgH b n) else (fld c 63 48, fld c 47 32, fld c 31 16, fld c 15 0)
def outW (b : Blk) (n : Nat) : Nat := inGet b n 0x1F / 65536
def outH (b : Blk) (n : Nat) : Nat := inGet b n 0x1F % 65536
def outChannels (b : Blk) (n : Nat) : Nat := inGet b n 0x21
/-- Image rows of a record: one for a camera row, the slice height of a JPEG XS slice, which is the least of 8, 16 and
32 that gives the frame's number of slices (R226). -/
def sliceRows (b : Blk) (n : Nat) : Nat :=
  if inCamera n then 1
  else ([8, 16, 32].find? (fun h => ceilDiv (imgH b n) h == inRecords b n)).getD (ceilDiv (imgH b n) (inRecords b n))

/-- The stream's input has one channel (R228): a RAW data type, or a Bayer profile of JPEG XS (R226). -/
def inOneChannel (b : Blk) (n : Nat) : Bool :=
  if inCamera n then decide (0x2A ≤ inGet b n 8) else inGet b n 0xF == 4 || inGet b n 0xF == 5

/-! ## Demosaic, matrix and lookup (R229) -/

/-- The colour of a filter place: 0 red, 1 green, 2 blue; the phases RGGB, GRBG, GBRG, BGGR put red at (0, 0), (1, 0),
(0, 1) and (1, 1). -/
def bayerColour (phase x y : Nat) : Nat :=
  match (x + phase) % 2, (y + phase / 2) % 2 with
  | 0, 0 => 0
  | 1, 1 => 2
  | _, _ => 1

/-- The values of a raw row; a concealed one's are free (log 30). -/
def rawAt (r : RawRow) (x : Nat) : Nat :=
  match r with
  | .seen p => nth 0 p x
  | .lost base => Config.freeValue (base + x) % 65536

/-- The neighbours that hold a colour missing at a place, as column and row steps: two or four. -/
def bayerNear (phase x y want : Nat) : List (Int × Int) :=
  let here := bayerColour phase x y
  if here = 1 then (if bayerColour phase (x + 1) y = want then [(-1, 0), (1, 0)] else [(0, -1), (0, 1)])
  else if want = 1 then [(-1, 0), (1, 0), (0, -1), (0, 1)]
  else [(-1, -1), (1, -1), (-1, 1), (1, 1)]

/-- Row y from the rows above, at and below it; beyond the image the edge is replicated. -/
def demosaicRow (phase width y : Nat) (up mid down : RawRow) : PRow :=
  (List.range 3).map (fun c => (List.range width).map (fun x =>
    if bayerColour phase x y = c then rawAt mid x
    else
      let near := bayerNear phase x y c
      let at_ := fun (d : Int × Int) =>
        let xx := (clampInt 0 ((width : Int) - 1) ((x : Int) + d.1)).toNat
        rawAt (if d.2 < 0 then up else if d.2 = 0 then mid else down) xx
      rneRatio (near.foldl (fun s d => s + at_ d) 0) near.length))

/-- The colour matrix; a channel that the input does not have counts as 0 (log 30). -/
def ccmPixel (ccm c : Nat) (v : List Nat) : Nat :=
  let m := fun (k : Nat) => sgn 16 (fld ccm (16 * (3 * c + k) + 15) (16 * (3 * c + k)))
  let o := sgn 32 (fld ccm (144 + 32 * c + 31) (144 + 32 * c))
  let s := (List.range 3).foldl (fun a k => a + m k * ((nth 0 v k : Nat) : Int)) o
  (clampInt 0 65535 (signMul (decide (s < 0)) (rneRatio s.natAbs 8192))).toNat

def pixelLut (lut c v : Nat) : Nat := let i := 16 * (4096 * c + v / 16); fld lut (i + 15) i

/-- A raw row through the matrix and the lookup. -/
def colourRow (b : Blk) (n width : Nat) (r : PRow) : PRow :=
  let ccm := inGet b n 0x18
  let lut := inGet b n 0x19
  let on := inGet b n 0x1A == 1
  let pix := fun (x : Nat) => r.map (fun p => nth 0 p x)
  (List.range 3).map (fun c => (List.range width).map (fun x =>
    let v := ccmPixel ccm c (pix x)
    if on then pixelLut lut c v else v))

/-! ## Geometry (R230, R231) -/

/-- Coefficients A00, A01, A10, A11, TX, TY in units of 2⁻¹⁶. -/
def affineAt (b : Blk) (n k : Nat) : Int := sgn 32 (fld (inGet b n 0x1D) (32 * k + 31) (32 * k))

/-- A source coordinate of output pixel (X, Y): its whole part and its fraction in 1/256; exact in units of 2⁻¹⁷. -/
def sourceOf (a0 a1 t : Int) (x y : Nat) : Int × Nat :=
  let u := a0 * (2 * x + 1) + a1 * (2 * y + 1) + 2 * t - 65536
  (u / 131072, (u % 131072 * 256 / 131072).toNat)

/-- One output pixel's channel from a reader of source pixels relative to the crop origin. -/
def samplePixel (b : Blk) (n : Nat) (src : Nat → Nat → Nat → Nat) (c x y : Nat) : Nat :=
  let (_, _, w, h) := cropOf b n
  let u := sourceOf (affineAt b n 0) (affineAt b n 1) (affineAt b n 4) x y
  let v := sourceOf (affineAt b n 2) (affineAt b n 3) (affineAt b n 5) x y
  let cx := fun (i : Int) => (clampInt 0 ((w : Int) - 1) i).toNat
  let cy := fun (j : Int) => (clampInt 0 ((h : Int) - 1) j).toNat
  let p := fun (di dj : Int) => src c (cx (u.1 + di)) (cy (v.1 + dj))
  let s := p 0 0 * (256 - u.2) * (256 - v.2) + p 1 0 * u.2 * (256 - v.2) + p 0 1 * (256 - u.2) * v.2 + p 1 1 * u.2 * v.2
  rneRatio s 65536

/-- The least and the greatest source row, relative to the crop, that output row y reads. -/
def rowSpan (b : Blk) (n y : Nat) : Nat × Nat :=
  let (_, _, _, h) := cropOf b n
  let at_ := fun (x : Nat) => (sourceOf (affineAt b n 2) (affineAt b n 3) (affineAt b n 5) x y).1
  let p := at_ 0
  let q := at_ (outW b n - 1)
  let c := fun (j : Int) => (clampInt 0 ((h : Int) - 1) j).toNat
  (c (min p q), c (max p q + 1))

/-- A channel of a pixel in the row store, relative to the crop. -/
def storeAt (b : Blk) (n : Nat) (st : List (Nat × PRow)) (c x y : Nat) : Nat :=
  let (x0, y0, _, _) := cropOf b n
  match st.find? (fun r => r.1 == y + y0) with
  | some r => nth 0 (nth [] r.2 c) (x + x0)
  | none => 0

/-- The output rows that lookup row y makes possible, and the next one. GEOM_MODE 3 forms its rows at the frame's end. -/
def geometry (b : Blk) (n y : Nat) (st : List (Nat × PRow)) (outY : Nat) : List PRow × Nat :=
  let (_, y0, w, h) := cropOf b n
  if y < y0 ∨ y0 + h ≤ y then ([], outY)
  else
    let seen := y - y0
    match inGet b n 0x1C with
    | 0 => ([(List.range 3).map (fun c => (List.range w).map (fun x => storeAt b n st c x seen))], outY + 1)
    | 1 =>
      let ready := ((List.range (outH b n)).filter (fun k => decide (outY ≤ k))).takeWhile (fun k => decide ((rowSpan b n k).2 ≤ seen))
      (ready.map (fun k => (List.range 3).map (fun c => (List.range (outW b n)).map (fun x =>
        samplePixel b n (storeAt b n st) c x k))), outY + ready.length)
    | 2 =>
      let f := inGet b n 0x1E
      if (seen + 1) % f ≠ 0 ∨ outH b n ≤ seen / f then ([], outY)
      else
        ([(List.range 3).map (fun c => (List.range (outW b n)).map (fun x =>
          let s := (List.range (f * f)).foldl (fun a i => a + storeAt b n st c (x * f + i % f) (seen / f * f + i / f)) 0
          rneRatio s (f * f)))], outY + 1)
    | _ => ([], outY)

/-! ## Conversion (R232) -/

def outElemBytes (b : Blk) (n : Nat) : Nat := if inGet b n 0x20 = 0xA then 2 else 1
/-- A value in OUT_FMT, as bytes. -/
def convertEl (b : Blk) (n u : Nat) : List Byte :=
  match inGet b n 0x20 with
  | 0 => leBytes 1 (twos 8 (clampInt (-128) 127 ((rneRatio u (2 ^ inGet b n 0x22) : Int) - 128)))
  | 2 => leBytes 1 (drainFp e4m3 u (-16)).1
  | _ => leBytes 2 (drainFp bf16 u (-16)).1

/-- An output row: pixels in column order, channels ascending, with no halo (10 R249). -/
def convertRow (b : Blk) (n : Nat) (r : PRow) : List Byte :=
  (List.range (outW b n)).flatMap (fun x => (List.range (outChannels b n)).flatMap (fun c => convertEl b n (nth 0 (nth [] r c) x)))

/-! ## Rows through the stages -/

/-- A stand-in's lookup row (R216): zeros, or the last row of this frame repeated. -/
def standIn (b : Blk) (n : Nat) (st : List (Nat × PRow)) : PRow :=
  match inGet b n 0x15, st with
  | 1, p :: _ => p.2
  | _, _ => List.replicate 3 (List.replicate (imgW b n) 0)

/-- A lookup row enters the row store: the output rows it makes possible. -/
def pushLookup (b : Blk) (n y : Nat) (lost : Bool) (r : PRow) (p : Pix) : List PRow × Pix :=
  let st := ((y, r) :: p.store).take 32
  let g := geometry b n y st p.outY
  (g.1, { p with store := st, outY := g.2, formed := p.formed ++ [(y, lost, r)] })

/-- Whether the demosaic runs (R229). -/
def bayerOn (b : Blk) (n : Nat) : Bool := inGet b n 0x17 != 0xFF && inOneChannel b n

/-- The demosaic forms row y from the rows it has (R229). -/
def formRow (b : Blk) (n y : Nat) (up mid down : RawRow) (p : Pix) : List PRow × Pix :=
  match mid with
  | .lost _ => pushLookup b n y true (standIn b n p.store) p
  | .seen _ => pushLookup b n y false (colourRow b n (imgW b n) (demosaicRow (inGet b n 0x17) (imgW b n) y up mid down)) p

/-- A raw row of the image, or none for a concealed one with the first of its free values: the converted output rows
that come of it. -/
def feedRow (b : Blk) (n : Nat) (x : Option PRow) (base : Nat) (p : Pix) : List (List Byte) × Pix :=
  let y := p.entered
  let r :=
    if bayerOn b n then
      let raw := match x with | some r => RawRow.seen (nth [] r 0) | none => RawRow.lost base
      let last := y + 1 == imgH b n
      let p1 := match p.raws with
        | [] => (([] : List PRow), p)
        | [a] => formRow b n (y - 1) a a raw p
        | a :: c :: _ => formRow b n (y - 1) c a raw p
      let p2 := if last then
          (match p.raws with
          | [] => formRow b n y raw raw raw p1.2
          | a :: _ => formRow b n y a raw raw p1.2)
        else ([], p1.2)
      (p1.1 ++ p2.1, { p2.2 with raws := raw :: p.raws.take 1 })
    else pushLookup b n y x.isNone (match x with | some r => colourRow b n (imgW b n) r | none => standIn b n p.store) p
  (r.1.map (convertRow b n), { r.2 with entered := y + 1 })

/-- Rows of one position, in order. -/
def feedRows (b : Blk) (n : Nat) (xs : List (Option PRow)) (base : Nat) (p : Pix) : List (List Byte) × Pix :=
  xs.foldl (fun (a : List (List Byte) × Pix) x =>
    let r := feedRow b n x (base + (a.2.entered - p.entered) * imgW b n) a.2
    (a.1 ++ r.1, r.2)) ([], p)

end Sys2Proof.Machine
end

