-- ==== Sys2Proof/Machine/Grammar.lean ====
section
/-! DEFINITION. Datagrams through the grammar layouts (09 R222 to R224), the range gate (09 R233) and the guard copy of
points (09 R234). -/

namespace Sys2Proof.Machine

/-! ## Fields (R222) -/

def lGet (b : Blk) (l sub : Nat) : Nat := odGet b (0x3100 + l) sub
def fieldOn (s : Nat) : Bool := bit s 0
def fieldOff (s : Nat) : Nat := fld s 31 16
def fieldBytes (s : Nat) : Nat := fld s 7 6 + 1

/-- Bytes as an unsigned number in a field's byte order. -/
def ordered (big : Bool) (bs : List Byte) : Nat := leNat (if big then bs.reverse else bs)

/-- A field's integer at a place of the payload. -/
def fieldInt (s : Nat) (m : List Byte) (at_ : Nat) : Int :=
  let v := ordered (bit s 4) ((m.drop (at_ + fieldOff s)).take (fieldBytes s))
  if bit s 5 then sgn (8 * fieldBytes s) v else v

/-- RN32((v + OFFSET) × SCALE): the product is exact and is rounded once. A SCALE that is no number leaves it open. -/
def fieldValue (b : Blk) (l k : Nat) (v : Int) (open_ : Nat) : Nat :=
  let sc := lGet b l (0x18 + k)
  if fIsSpecial sc then Config.freeValue open_ % 2 ^ 32
  else
    let s := fpVal fp32 sc
    fRound false ((v + sgn 32 (lGet b l (0x20 + k))) * s.1) s.2

/-! ## The guard copy's arithmetic (R234) -/

/-- π × 2⁷⁶⁸, cut to an integer. -/
def piFix : Nat :=
    0x3243F6A8885A308D313198A2E03707344A4093822299F31D0082EFA98EC4E6C8 * 2 ^ 516 +
    0x9452821E638D01377BE5466CF34E90C6CC0AC29B7C97C50DD3F84D5B5B547091 * 2 ^ 260 +
    0x79216D5D98979FB1BD1310BA698DFB5AC2FFD72DBD01ADFB7B8E1AFED6A267E9 * 2 ^ 4 +
    0x6 * 2 ^ 0

/-- Σ of a power series in fixed point: `t` the present term, `x2` the square, `k` the next factor; signs alternate. -/
def trigSeries : Nat → Int → Nat → Nat → Int
  | 0, _, _, _ => 0
  | n + 1, t, x2, k => t - trigSeries n (t * x2 / 2 ^ 768 / (k * (k + 1))) x2 (k + 2)

/-- sin and cos of a finite FP32 value, each in units of 2⁻⁷⁶⁸: the argument is reduced by whole turns with π to 768
bits, so that the error stays far below what rounding to FP32 could see (DEDUCED, log 15). -/
def sinCosFix (x : Nat) : Int × Int :=
  let v := fpVal fp32 x
  let e := v.2 + 768
  let f : Int := if 0 ≤ e then v.1 * 2 ^ e.toNat else v.1 / 2 ^ (-e).toNat
  let r := f % (2 * piFix : Nat)
  let r := if (piFix : Int) < r then r - (2 * piFix : Nat) else r
  let x2 := (r * r / 2 ^ 768).toNat
  (trigSeries 120 r x2 2, trigSeries 120 (2 ^ 768) x2 1)

/-- sin and cos, each correctly rounded to FP32; the sine of a zero is that zero. -/
def sinRound (x : Nat) : Nat := fRound (fpNeg fp32 x) (sinCosFix x).1 (-768)
def cosRound (x : Nat) : Nat := fRound false (sinCosFix x).2 (-768)

/-- A point's Cartesian coordinates; special encodings leave them open. -/
def guardPoint (spherical : Bool) (c0 c1 c2 open_ : Nat) : Nat × Nat × Nat :=
  if spherical = false then (c0, c1, c2)
  else if fIsSpecial c1 ∨ fIsSpecial c2 then
    (Config.freeValue open_ % 2 ^ 32, Config.freeValue (open_ + 1) % 2 ^ 32, Config.freeValue (open_ + 2) % 2 ^ 32)
  else
    let p := fMul c0 (cosRound c2)
    (fMul p (cosRound c1), fMul p (sinRound c1), fMul c0 (sinRound c2))

/-! ## The range gate (R233) -/

/-- The exact square of the range of a Cartesian point, as a dyadic value. -/
def squareSum (c0 c1 c2 : Nat) : Int × Int :=
  let sq := fun (c : Nat) => let v := fpVal fp32 c; ((v.1 * v.1, 2 * v.2) : Int × Int)
  dyAdd (dyAdd (sq c0) (sq c1)) (sq c2)

/-- a ≤ b of dyadic values. -/
def dyLe (a b : Int × Int) : Bool := decide ((dyAdd b (-a.1, a.2)).1 ≥ 0)

/-- Whether a point's range lies within the stream's limits. -/
def inRange (b : Blk) (n : Nat) (spherical : Bool) (c0 c1 c2 : Nat) : Bool :=
  let lo := inGet b n 0x33
  let hi := inGet b n 0x34
  if spherical then fLe lo c0 && fLe c0 hi
  else if fIsNaN c0 || fIsNaN c1 || fIsNaN c2 || fIsNaN lo || fIsNaN hi then false
  else if fIsInf c0 || fIsInf c1 || fIsInf c2 then hi == fInf false
  else
    let s := squareSum c0 c1 c2
    let sq := fun (x : Nat) => let v := fpVal fp32 x; ((v.1 * v.1, 2 * v.2) : Int × Int)
    (fpNeg fp32 lo || (!fIsInf lo && dyLe (sq lo) s)) && !(fpNeg fp32 hi && !fIsZero hi) && (fIsInf hi || dyLe s (sq hi))

/-! ## The parser (R223) -/

/-- RNE of an FP32 value as an integer, clamped. -/
def rneClamp (x : Nat) (div lo hi : Int) : Nat :=
  let v := fpVal fp32 x
  let r := rneNat v.1.natAbs (v.2 - (if div = 64 then 6 else 0))
  (clampInt lo hi (signMul (decide (v.1 < 0)) r)).toNat

/-- What a datagram parses to: the failing byte offset, or POINT_COUNT, the stored payload, the guard copy's points. -/
inductive Parsed where
  | bad (off : Nat)
  | good (count : Nat) (data : List Byte) (pts : List (Nat × Nat × Nat))
  deriving DecidableEq, Repr

/-- The count of a datagram, or where it fails. -/
def parseCount (b : Blk) (n l : Nat) (m : List Byte) : Nat × Option Nat :=
  let f := lGet b l 8
  let c := if fieldOn f then (if m.length < fieldOff f + fieldBytes f then 0 else (fieldInt f m 0).toNat) else lGet b l 7
  let off := if fieldOn f then fieldOff f else lGet b l 6
  if c = 0 ∨ inGet b n 0x32 < c ∨ m.length < lGet b l 6 + c * lGet b l 9 then (0, some off) else (c, none)

/-- The eight values of point i; an absent field's value is open. -/
def pointValues (b : Blk) (l : Nat) (m : List Byte) (i open_ : Nat) : List Nat :=
  let at_ := lGet b l 6 + i * lGet b l 9
  (List.range 8).map (fun k =>
    let f := lGet b l (0x10 + k)
    if fieldOn f then fieldValue b l k (fieldInt f m at_) (open_ + 8 * i + k) else Config.freeValue (open_ + 8 * i + k) % 2 ^ 32)

/-- The elevation of a point (step 5): its CHANNEL value names an entry of the table. -/
def elevOf (b : Blk) (l : Nat) (v : List Nat) : Option Nat :=
  let x := nth 0 v 6
  let ch := fpVal fp32 x
  let c := signMul (decide (ch.1 < 0)) (rneNat ch.1.natAbs ch.2)
  if 0 ≤ c ∧ c ≤ 127 ∧ fIsSpecial x = false then some (lGet b l (0x40 + c.toNat)) else none

/-- The 16 bytes of a point (R224). -/
def pointBytes (v : List Nat) (c2 : Nat) : List Byte :=
  leBytes 4 (nth 0 v 0) ++ leBytes 4 (nth 0 v 1) ++ leBytes 4 c2 ++ leBytes 2 (rneClamp (nth 0 v 5) 64 0 65535) ++
  leBytes 1 (rneClamp (nth 0 v 3) 1 0 255) ++ leBytes 1 (rneClamp (nth 0 v 4) 1 0 3)

/-- A point block: points that are skipped or out of range are not stored. -/
def parsePoints (b : Blk) (n l : Nat) (m : List Byte) (count open_ : Nat) : Parsed :=
  let sph := lGet b l 0xA == 1
  (List.range count).foldl (fun (a : Parsed) i => match a with
    | .bad o => .bad o
    | .good c data pts =>
      let v := pointValues b l m i open_
      let at_ := lGet b l 6 + i * lGet b l 9
      if fieldOn (lGet b l 0x17) ∧ fieldInt (lGet b l 0x17) m at_ = 0 then .good c data pts
      else
        match (if lGet b l 0xE = 1 then elevOf b l v else some (nth 0 v 2)) with
        | none => .bad (at_ + fieldOff (lGet b l 0x16))
        | some c2 =>
          if inRange b n sph (nth 0 v 0) (nth 0 v 1) c2 then
            .good (c + 1) (data ++ pointBytes v c2) (pts ++ [guardPoint sph (nth 0 v 0) (nth 0 v 1) c2 (open_ + 8 * count + 3 * i)])
          else .good c data pts) (.good 0 [] [])

/-- A signal record: the present fields, in order; C2 is the table's where the layout has one (step 5). -/
def parseSignals (b : Blk) (l : Nat) (m : List Byte) (count open_ : Nat) : Parsed :=
  (List.range count).foldl (fun (a : Parsed) i => match a with
    | .bad o => .bad o
    | .good c data pts =>
      let v := pointValues b l m i open_
      match (if lGet b l 0xE = 1 then elevOf b l v else some (nth 0 v 2)) with
      | none => .bad (lGet b l 6 + i * lGet b l 9 + fieldOff (lGet b l 0x16))
      | some c2 =>
        let vs := (List.range 8).filterMap (fun k =>
          if fieldOn (lGet b l (0x10 + k)) then some (if k = 2 then c2 else nth 0 v k) else none)
        .good (c + vs.length) (data ++ vs.flatMap (leBytes 4)) pts) (.good 0 [] [])

/-- A datagram through a stream's layout. -/
def parseDatagram (b : Blk) (n : Nat) (m : List Byte) (open_ : Nat) : Parsed :=
  let l := inGet b n 0xB
  let mo := lGet b l 3
  if m.length < mo + 4 ∨ Nat.land (leAt m mo 4) (lGet b l 4) ≠ lGet b l 5 then .bad mo
  else match parseCount b n l m with
    | (_, some off) => .bad off
    | (c, none) => if inType b n = 2 then parsePoints b n l m c open_ else parseSignals b l m c open_

/-- Free values that a parse may use. -/
def parseFrees (b : Blk) (n : Nat) : Nat := 11 * inGet b n 0x32

/-- The frame position that BLOCK_FIELD gives: none without one, `some none` where the payload does not hold it. A negative
value is no position. -/
def blockOf (b : Blk) (n : Nat) (m : List Byte) : Option (Option Nat) :=
  let f := lGet b (inGet b n 0xB) 0xD
  if fieldOn f = false then none
  else if m.length < fieldOff f + fieldBytes f then some none
  else if fieldInt f m 0 < 0 then some (some 65536)
  else some (some (fieldInt f m 0).toNat)

/-- CAPTURE_TIME from the layout's time field, mapped to device time by `dev`; none without one (R221). -/
def fieldTime (b : Blk) (n : Nat) (m : List Byte) : Option Int :=
  let l := inGet b n 0xB
  let f := lGet b l 0xB
  let bytes := if lGet b l 0xC = 2 then 10 else 8
  if lGet b l 0xC = 0 ∨ fieldOn f = false ∨ m.length < fieldOff f + bytes then none
  else
    let x := (m.drop (fieldOff f)).take bytes
    if lGet b l 0xC = 1 then some (ordered (bit f 4) x)
    else some (ordered (bit f 4) (x.take 6) * 1000000000 + ordered (bit f 4) (x.drop 6))

end Sys2Proof.Machine
end

