-- ==== Sys2Proof/Machine/Digest.lean ====
section
/-! DEFINITION. The digests of the device: CRC-32C (09 R212) and SHA3-512 (FIPS 202, named by 10 R249 and R252). -/

namespace Sys2Proof.Machine

/-! ## CRC-32C -/

/-- One bit of the reflected polynomial of 09 R212. -/
def crcBit (c : Nat) : Nat := if c % 2 = 1 then Nat.xor (c / 2) 0x82F63B78 else c / 2

def crcByte (c : Nat) (b : Byte) : Nat :=
  (List.range 8).foldl (fun c _ => crcBit c) (Nat.xor c b.toNat)

/-- The CRC-32C of bytes (09 R212). -/
def crc32c (bs : List Byte) : Nat := Nat.xor (bs.foldl crcByte 0xFFFFFFFF) 0xFFFFFFFF

/-! ## SHA3-512

The 1,600 bits are five planes of 320: lane x of plane y, bit z, is bit 64 x + z of the number `plane y`. Theta, chi and iota
then work on whole planes. The rotations of rho and the constants of iota are generated, as FIPS 202 defines them. -/

/-- Lane x of a plane. -/
def laneAt (x p : Nat) : Nat := p / 2 ^ (64 * (x % 5)) % 2 ^ 64

/-- A lane turned towards its high bits. -/
def laneTurn (k v : Nat) : Nat := v % 2 ^ (64 - k % 64) * 2 ^ (k % 64) + v / 2 ^ (64 - k % 64)

/-- A plane from what stands in each lane. -/
def planeOf (f : Nat → Nat) : Nat := f 0 + 2 ^ 64 * (f 1 + 2 ^ 64 * (f 2 + 2 ^ 64 * (f 3 + 2 ^ 64 * f 4)))

/-- The plane whose lane x is lane x + k of another. -/
def planeShift (k p : Nat) : Nat := planeOf (fun x => laneAt (x + k) p)

/-- Theta: the parity of the columns on both sides of each bit. -/
def thetaStep (ps : List Nat) : List Nat :=
  let par := ps.foldl Nat.xor 0
  let both := Nat.xor (planeShift 4 par) (planeOf (fun x => laneTurn 1 (laneAt (x + 1) par)))
  ps.map (Nat.xor both)

/-- The walk of rho: after t steps from lane (1, 0) the turn is (t + 1)(t + 2) / 2. `todo` steps are left. -/
def rhoTurn : (todo t x y : Nat) → (atX atY : Nat) → Nat
  | 0, _, _, _, _, _ => 0
  | k + 1, t, x, y, u, v =>
    if x = u ∧ y = v then (t + 1) * (t + 2) / 2 else rhoTurn k (t + 1) y ((2 * x + 3 * y) % 5) u v

/-- The turns of the lanes, plane by plane. -/
def rhoTurns : List Nat := (List.range 25).map (fun i => rhoTurn 24 0 1 0 (i % 5) (i / 5))

/-- Rho and pi: lane u of plane v comes, turned, from lane u + 3 v of plane u. -/
def rhoPiStep (ps : List Nat) : List Nat :=
  (List.range 5).map (fun v => planeOf (fun u =>
    let x := (u + 3 * v) % 5
    laneTurn (nth 0 rhoTurns (5 * u + x)) (laneAt x (nth 0 ps u))))

/-- Chi, on a plane. -/
def chiStep (p : Nat) : Nat :=
  Nat.xor p (Nat.land (Nat.xor (planeShift 1 p) (2 ^ 320 - 1)) (planeShift 2 p))

/-- The register of iota shifts by one: a power of x modulo x^8 + x^6 + x^5 + x^4 + 1. -/
def iotaShift (r : Nat) : Nat := if r < 128 then 2 * r else Nat.xor (2 * r) 0x171

/-- The constant of a round, whose bits 2^j − 1 are the register's next seven outputs, and the register after it. -/
def iotaNext (r : Nat) : Nat × Nat :=
  (List.range 7).foldl (fun (c : Nat × Nat) j => (c.1 + c.2 % 2 * 2 ^ (2 ^ j - 1), iotaShift c.2)) (0, r)

/-- The rounds, the register of iota handed on from each to the next. -/
def keccakRounds : Nat → Nat → List Nat → List Nat
  | 0, _, ps => ps
  | k + 1, r, ps =>
    let c := iotaNext r
    keccakRounds k c.2 (((rhoPiStep (thetaStep ps)).map chiStep).mapIdx (fun y p => if y = 0 then Nat.xor c.1 p else p))

/-- A block of 72 bytes enters planes 0 and 1, and the 24 rounds follow. -/
def spongeBlock (ps : List Nat) (blk : List Byte) : List Nat :=
  let m := leNat blk
  keccakRounds 24 1 (ps.mapIdx (fun y p => if y = 0 then Nat.xor p (m % 2 ^ 320) else if y = 1 then Nat.xor p (m / 2 ^ 320) else p))

def spongeIn : Nat → List Byte → List Nat → List Nat
  | 0, _, ps => ps
  | k + 1, bs, ps => spongeIn k (bs.drop 72) (spongeBlock ps (bs.take 72))

/-- SHA3-512 of a message, as 64 bytes: the domain bits 01 and the padding 10*1 fill the last block. -/
def sha3 (m : List Byte) : List Byte :=
  let free := 72 - m.length % 72
  let ps := spongeIn (m.length / 72 + 1) (m ++ leBytes free (6 + 2 ^ (8 * free - 1))) (List.replicate 5 0)
  leBytes 40 (nth 0 ps 0) ++ leBytes 24 (nth 0 ps 1)

/-- The digest as a number, its first byte least significant. -/
def sha3Nat (m : List Byte) : Nat := leNat (sha3 m)

end Sys2Proof.Machine
end

