-- ==== Sys2Proof/Machine/Operands.lean ====
section
/-! DEFINITION. The operand forms of the block: the fields of control instructions (04 R82, R83), pass descriptors (04
R87), DMA descriptors (04 R98), chain descriptors and stage words (06 R138, R139), ring headers (05 R107) and program
image tables (04 R104), each read once here. -/

namespace Sys2Proof.Machine

/-! ## Control instructions (04 R82, R83) -/

def iOp (i : Nat) : Nat := fld i 31 26
def iUseDp (i : Nat) : Bool := bit i 15
def iAddr (i : Nat) : Nat := fld i 14 0
def iMark (i : Nat) : Nat := fld i 17 16
def iLc (i : Nat) : Nat := fld i 25 24
def iCount (i : Nat) : Nat := fld i 23 12
def iBody (i : Nat) : Nat := fld i 11 0
def iDie (i : Nat) : Nat := fld i 20 20
/-- The synchronisation object an instruction names: die × 4,096 + index. -/
def iSync (i : Nat) : Nat := fld i 20 8
def iAmount (i : Nat) : Nat := fld i 7 0
def iMask (i : Nat) : Nat := fld i 2 0
def iCond (i : Nat) : Nat := fld i 11 8
def iOffset (i : Nat) : Nat := fld i 7 0
def iTag (i : Nat) : Nat := fld i 15 0

/-- The reserved bits of an instruction are 0 (04 R83, 00 R8). -/
def iReservedOk (i : Nat) : Bool :=
  match iOp i with
  | 0x00 | 0x01 => fld i 25 0 == 0
  | 0x02 => fld i 25 15 == 0
  | 0x03 | 0x05 => fld i 25 16 == 0
  | 0x04 => fld i 25 18 == 0
  | 0x06 => fld i 25 15 == 0
  | 0x07 => true
  | 0x08 | 0x09 => fld i 25 21 == 0
  | 0x0A => fld i 25 21 == 0 && fld i 7 0 == 0
  | 0x0B => fld i 25 3 == 0
  | 0x0C => fld i 25 12 == 0
  | 0x0D => fld i 25 16 == 0
  | _ => true

/-- The refusal that an instruction's own bits bring, by ascending code (04 R82, R83, R85, R101). -/
def iCheck (i : Nat) : Option Nat :=
  let op := iOp i
  if 0x0E ≤ op then some 0x02
  else if iReservedOk i = false then some 0x01
  else if (op = 3 ∨ op = 4 ∨ op = 5) ∧ iUseDp i = true ∧ iAddr i ≠ 0 then some 0x02
  else if op = 7 ∧ (iCount i = 0 ∨ iBody i = 0) then some 0x02
  else if (op = 8 ∨ op = 9) ∧ iAmount i = 0 then some 0x02
  else if op = 0x0C ∧ iOffset i = 0 then some 0x02
  else if op = 0x0C ∧ 4 ≤ iCond i then some 0x07
  else if op = 4 ∧ iMark i = 3 then some 0x07
  else none

/-! ## Pass descriptors (04 R87) -/

def pVersion (d : Nat) : Nat := fld d 255 252
def pPreempt (d : Nat) : Bool := bit d 249
def pSplit (d : Nat) : Bool := bit d 248
def pStart (d : Nat) : Bool := bit d 246
def pDrainKind (d : Nat) : Nat := fld d 245 244
def pLevel (d : Nat) : Nat := fld d 243 242
def pDup (d : Nat) : Bool := bit d 241
def pTile (d : Nat) : Nat := fld d 239 224
def pFmtA (d : Nat) : Nat := fld d 223 220
def pFmtB (d : Nat) : Nat := fld d 219 216
def pFmtOut (d : Nat) : Nat := fld d 215 212
def pCmpA (d : Nat) : Nat := fld d 211 210
def pCmpOut (d : Nat) : Nat := fld d 209 208
def pK (d : Nat) : Nat := fld d 204 192
def pM (d : Nat) : Nat := fld d 191 187 + 1
def pN (d : Nat) : Nat := fld d 186 182 + 1
def pKw (d : Nat) : Nat := fld d 181 178
def pKh (d : Nat) : Nat := fld d 177 174
def pSx (d : Nat) : Nat := fld d 173 171 + 1
def pSy (d : Nat) : Nat := fld d 170 168 + 1
def pDx (d : Nat) : Nat := fld d 167 165 + 1
def pDy (d : Nat) : Nat := fld d 164 162 + 1
def pBorder (d : Nat) : Nat := fld d 161 160
def pAccLsb (d : Nat) : Int := sgn 10 (fld d 159 150)
def pOutLsb (d : Nat) : Int := sgn 10 (fld d 149 140)
def pASrc (d : Nat) : Nat := fld d 139 138
def pOpKind (d : Nat) : Nat := fld d 137 135
def pGroup (d : Nat) : Nat := fld d 134 132
def pAAddr (d : Nat) : Nat := fld d 127 114
def pAPitch (d : Nat) : Nat := fld d 113 104
def pBAddr (d : Nat) : Nat := fld d 95 82
def pAScale (d : Nat) : Nat := fld d 81 68
def pBScale (d : Nat) : Nat := fld d 63 50
def pDrainAddr (d : Nat) : Nat := fld d 49 36
def pDrainPitch (d : Nat) : Nat := fld d 31 22
def pSemEn (d : Nat) : Bool := bit d 21
def pSem (d : Nat) : Nat := fld d 20 8

/-- The reserved fields of a pass descriptor are 0. -/
def pReservedOk (d : Nat) : Bool :=
  fld d 251 250 == 0 && !bit d 247 && !bit d 240 && fld d 207 205 == 0 && fld d 131 128 == 0 && fld d 103 96 == 0 &&
  fld d 67 64 == 0 && fld d 35 32 == 0 && fld d 7 0 == 0

/-- Both operands at the 4-bit rate (03 R63). -/
def pFour (d : Nat) : Bool := isFour (pFmtA d) && isFour (pFmtB d)
/-- The pass pairs BF16 with BF16 (03 R63). -/
def pBf (d : Nat) : Bool := pFmtA d == 0xA
/-- The pass accumulates in FP32 as 03 R67 states: a BF16 pass that does not pool, since pooling sums and compares exactly
(05 R124, R125). -/
def pFloat (d : Nat) : Bool := pBf d && decide (pOpKind d < 3)
/-- Reduction indices per set, and cycles per set in units of 32 (03 R63). -/
def pKset (d : Nat) : Nat := if pFour d then 64 else 32
def pRate (d : Nat) : Nat := if pBf d then 4 else 1
/-- Reduction sets (03 R60). -/
def pSets (d : Nat) : Nat := ceilDiv (pK d) (pKset d)
/-- The length of a pass, P = 32 + 32 × S × r + 64 (03 R60). -/
def pLength (d : Nat) : Nat := 32 + 32 * pSets d * pRate d + 64

/-- The columns a weight set holds: 32, or 16 in a SPLIT pass (04 R89). -/
def pCols (d : Nat) : Nat := if pSplit d then 16 else 32
/-- Bits one stored weight counts as: a 4-bit weight stands alone in a byte at the 8-bit rate (04 R89). -/
def pBBits (d : Nat) : Nat := if isFour (pFmtB d) && !pFour d then 8 else elemBits (pFmtB d)
/-- Bytes of one weight set. -/
def pSetBytes (d : Nat) : Nat := pCols d * (pKset d * pBBits d / 8)

/-- Whether the pass reads B (05 R124, R125: pooling does not). -/
def pReadsB (d : Nat) : Bool := decide (pOpKind d < 3)
/-- Checksums are formed for the pass (15 R385, R386). -/
def hasSums (d : Nat) : Bool := decide (1 ≤ pLevel d) && !pBf d && pOpKind d != 1 && pOpKind d != 4

/-! ## Compressed blocks (05 R127) -/

/-- Source element bits of an operand code: BF16 16, FP8 8. -/
def cmpSrcBits (fp : FpFmt) : Nat := fpWidth fp
/-- Block bytes at a ratio code 1, 2, 3: 1/2, 5/8, 3/4. -/
def cmpBytes (bits ratio : Nat) : Nat :=
  match ratio with
  | 1 => 32 * bits / 8 / 2
  | 2 => 32 * bits / 8 * 5 / 8
  | _ => 32 * bits / 8 * 3 / 4
/-- Element field bits w of a block. -/
def cmpWidth (bits ratio : Nat) : Nat := (8 * cmpBytes bits ratio - 32) / 32

/-- The floating-point format of an operand code that may be compressed (04 R91). -/
def inFp (fmt : Nat) : FpFmt := match fmt with | 2 => e4m3 | 3 => e5m2 | _ => bf16

/-- Bytes of one position of a matrix-form A operand, and of one drained position (04 R89, 05 R131). -/
def pRowA (d : Nat) : Nat :=
  if pCmpA d = 0 then ceilDiv (pK d * elemBits (pFmtA d)) 8
  else pK d / 32 * cmpBytes (fpWidth (inFp (pFmtA d))) (pCmpA d)
def pRowOut (d : Nat) : Nat :=
  if pCmpOut d = 0 then pN d * outBytes (pFmtOut d) else cmpBytes (fpWidth (outFp (pFmtOut d))) (pCmpOut d)

/-! ## DMA descriptors (04 R98) -/

def dVersion (d : Nat) : Nat := fld d 255 252
def dKind (d : Nat) : Nat := fld d 251 249
def dSrc (d : Nat) : Nat := fld d 248 246
def dDst (d : Nat) : Nat := fld d 245 243
def dSrcEngine (d : Nat) : Nat := fld d 239 232
def dDstEngine (d : Nat) : Nat := fld d 231 224
def dSemEn (d : Nat) : Bool := bit d 223
def dSem (d : Nat) : Nat := fld d 222 210
def dRows (d : Nat) : Nat := fld d 209 198 + 1
def dSrcAddr (d : Nat) : Nat := fld d 191 152
def dRowBytes (d : Nat) : Nat := fld d 151 128
def dDstAddr (d : Nat) : Nat := fld d 127 88
def dSrcStride (d : Nat) : Nat := fld d 87 64
def dDstStride (d : Nat) : Nat := fld d 63 40
def dFill (d : Nat) : Nat := fld d 31 0

def dReservedOk (d : Nat) : Bool := fld d 242 240 == 0 && fld d 197 192 == 0 && fld d 39 32 == 0

/-! ## Chain descriptors and stage words (06 R138, R139) -/

def cVersion (d : Nat) : Nat := fld d 255 252
/-- The running type at the start: true for INT32. -/
def cInt (d : Nat) : Bool := bit d 251
def cStages (d : Nat) : Nat := fld d 250 248 + 1
def cStagesAddr (d : Nat) : Nat := fld d 247 233
def cRows (d : Nat) : Nat := fld d 232 228 + 1
def cCols (d : Nat) : Nat := fld d 227 223 + 1
def cQin (d : Nat) : Nat := fld d 222 219
def cTile (d : Nat) : Nat := fld d 215 200
def cSemEn (d : Nat) : Bool := bit d 199
def cSem (d : Nat) : Nat := fld d 198 186
def cStatusEn (d : Nat) : Bool := bit d 185
def cStatusAddr (d : Nat) : Nat := fld d 184 171
def cReservedOk (d : Nat) : Bool := fld d 218 216 == 0 && fld d 170 0 == 0

def gOp (s : Nat) : Nat := fld s 63 59
def gSrc (s : Nat) : Nat := fld s 58 56
def gReg (s : Nat) : Nat := fld s 55 52
def gFmt (s : Nat) : Nat := fld s 51 48
def gAux (s : Nat) : Nat := fld s 47 46
def gAddr2 (s : Nat) : Nat := fld s 45 32
def gValue (s : Nat) : Nat := fld s 31 0
def gAddr (s : Nat) : Nat := fld s 31 18
def gPitch (s : Nat) : Nat := fld s 17 8

/-! ## Ring headers (05 R107) -/

/-- The fields of a 64-byte ring header, read from its bytes. -/
def hVersion (h : List Byte) : Nat := leAt h 0 1
def hFmt (h : List Byte) : Nat := leAt h 1 1
def hChannels (h : List Byte) : Nat := leAt h 2 2
def hImgW (h : List Byte) : Nat := leAt h 4 2
def hImgH (h : List Byte) : Nat := leAt h 6 2
def hX0 (h : List Byte) : Nat := leAt h 8 2
def hSlotW (h : List Byte) : Nat := leAt h 10 2
def hSlotUnits (h : List Byte) : Nat := leAt h 12 2
def hRows (h : List Byte) : Nat := leAt h 14 2
def hOutX0 (h : List Byte) : Nat := leAt h 16 2
def hOutW (h : List Byte) : Nat := leAt h 18 2
def hOutH (h : List Byte) : Nat := leAt h 20 2
def hPadL (h : List Byte) : Nat := leAt h 22 1
def hPadT (h : List Byte) : Nat := leAt h 23 1
def hGroups (h : List Byte) : Nat := leAt h 24 1
def hRowsIn (h : List Byte) : Nat := leAt h 32 8
def hRetire (h : List Byte) : Nat := leAt h 56 8
def hReservedOk (h : List Byte) : Bool := leAt h 25 7 == 0 && leAt h 53 1 == 0
def hCursor (h : List Byte) : Cursor :=
  { frameBase := leAt h 40 8, y := leAt h 48 2, x := leAt h 50 2, ng := leAt h 52 1, ks := leAt h 54 2 }

/-- Channels per plane (05 R108). -/
def hLg (h : List Byte) : Nat := if isFour (hFmt h) then 64 else 32
/-- Channel-group planes of a row (05 R108). -/
def hG (h : List Byte) : Nat := ceilDiv (hChannels h) (hLg h)
def hPixBytes (h : List Byte) : Nat := if hFmt h = 0xA then 64 else 32
def hPixUnits (h : List Byte) : Nat := ceilDiv (hSlotW h * hPixBytes h) 64
def hPlaneUnits (h : List Byte) : Nat :=
  hPixUnits h + (if isMx (hFmt h) then ceilDiv (hSlotW h * (hLg h / 32)) 64 else 0)

end Sys2Proof.Machine
end

