-- ==== Sys2Proof/Machine/Flags.lean ====
section
/-! DEFINITION. The status words of the arithmetic units: PASS_STATUS (03 R72) and the chain status (06 R152). -/

namespace Sys2Proof.Machine

/-- PASS_STATUS (03 R72). -/
def passStatus (special trunc : Nat) (half split outSat accSat : Bool) : Nat :=
  2 ^ 60 + min special 0xFF * 2 ^ 48 + min trunc 0xFFFFFFFF * 2 ^ 16 + b2n half * 8 + b2n split * 4 + b2n outSat * 2 +
  b2n accSat

def stSpecial (s : Nat) : Nat := fld s 55 48
def stTrunc (s : Nat) : Nat := fld s 47 16
def stOutSat (s : Nat) : Bool := bit s 1
def stAccSat (s : Nat) : Bool := bit s 0

/-- Whether BRS's condition holds on a PASS_STATUS (04 R85). -/
def brsHolds (cond s : Nat) : Bool :=
  match cond with
  | 0 => stAccSat s
  | 1 => stOutSat s
  | 2 => stTrunc s != 0
  | 3 => stSpecial s != 0
  | _ => false

/-- What a chain's stages gather for its status word (06 R152). -/
structure ChainFlags where
  special : Nat
  trunc : Nat
  nanOut : Bool
  infOut : Bool
  fnSpecial : Bool
  outSat : Bool
  accSat : Bool
  deriving DecidableEq, Repr

def noFlags : ChainFlags :=
  { special := 0, trunc := 0, nanOut := false, infOut := false, fnSpecial := false, outSat := false, accSat := false }

/-- Fold a PASS_STATUS into a chain's status: flags by OR, counts by saturating sum (03 R69). -/
def foldStatus (f : ChainFlags) (s : Nat) : ChainFlags :=
  { f with special := min 0xFF (f.special + stSpecial s), trunc := min 0xFFFFFFFF (f.trunc + stTrunc s),
           outSat := f.outSat || stOutSat s, accSat := f.accSat || stAccSat s }

/-- The chain status word (06 R152). -/
def chainStatus (f : ChainFlags) : Nat :=
  2 ^ 60 + f.special * 2 ^ 48 + f.trunc * 2 ^ 16 + b2n f.nanOut * 32 + b2n f.infOut * 16 + b2n f.fnSpecial * 8 +
  b2n f.outSat * 2 + b2n f.accSat

end Sys2Proof.Machine
end

