-- ==== Sys2Proof/Machine/Functions.lean ====
section
/-! DEFINITION. The function primitives of the vector engine (06 R143 to R148): minimum and maximum, EXP2, LOG2, RCP and
RSQRT rounded once, table lookup, and the formats a chain loads and stores. The irrational functions are formed to 256
bits before the one rounding (log 15). -/

namespace Sys2Proof.Machine

/-! ## Minimum and maximum (06 R143) -/

/-- The order of IEEE 754-2019's minimum and maximum: −0 ranks below +0. -/
def fOrder (x : Nat) : Int := if fpNeg fp32 x then -(fpMag fp32 x : Int) - 1 else fpMag fp32 x

def fMin (a b : Nat) : Nat := if fIsNaN a || fIsNaN b then fNaN else if fOrder a ≤ fOrder b then a else b
def fMax (a b : Nat) : Nat := if fIsNaN a || fIsNaN b then fNaN else if fOrder a ≤ fOrder b then b else a

/-! ## Fixed point of 256 fraction bits -/

def fxOne : Nat := 2 ^ 256

/-- ln 2, from Σ 1 / (k 2^k). -/
def fxLn2 : Nat := (List.range 270).foldl (fun a i => a + 2 ^ 256 / ((i + 1) * 2 ^ (i + 1))) 0

/-- e^y of a fixed-point y below 1, by its series. -/
def fxExp (y : Nat) : Nat :=
  ((List.range 80).foldl (fun (p : Nat × Nat) i => let t := p.2 * y / fxOne / (i + 1); (p.1 + t, t)) (fxOne, fxOne)).1

/-- ln of a / b, 1 ≤ a / b < 2, as 2 artanh ((a − b) / (a + b)). -/
def fxLn (a b : Nat) : Nat :=
  let z := (a - b) * fxOne / (a + b)
  let z2 := z * z / fxOne
  2 * ((List.range 100).foldl (fun (p : Nat × Nat) i => (p.1 + p.2 / (2 * i + 1), p.2 * z2 / fxOne)) (0, z)).1

/-- ⌊√n⌋, bit by bit from bit k. -/
def isqrt (n : Nat) : Nat :=
  ((List.range (Nat.log2 n / 2 + 1)).reverse).foldl (fun r i => if (r + 2 ^ i) * (r + 2 ^ i) ≤ n then r + 2 ^ i else r) 0

/-! ## EXP2, LOG2, RCP, RSQRT (06 R144) -/

def fExp2 (x : Nat) : Nat :=
  if fIsNaN x then fNaN
  else if fIsInf x then (if fpNeg fp32 x then 0 else fInf false)
  else
    let v := fpVal fp32 x
    if 0 ≤ v.2 then
      let n := v.1 * 2 ^ v.2.toNat
      if 128 ≤ n then fInf false else if n < -150 then 0 else fRound false 1 n
    else
      let k := (-v.2).toNat
      let n := v.1 / 2 ^ k
      let f := (v.1 - n * 2 ^ k).toNat
      if 128 ≤ n then fInf false
      else if n < -151 then 0
      else if f = 0 then fRound false 1 n
      else fRound false (2 * fxExp (f * fxLn2 / 2 ^ k) + 1 : Nat) (n - 257)

def fLog2 (x : Nat) : Nat :=
  if fIsNaN x then fNaN
  else if fIsZero x then fInf true
  else if fpNeg fp32 x then fNaN
  else if fIsInf x then fInf false
  else
    let v := fpVal fp32 x
    let m := v.1.natAbs
    let l := Nat.log2 m
    let k : Int := v.2 + l
    if m = 2 ^ l then fRound false k 0
    else
      let f := fxLn m (2 ^ l) * fxOne / fxLn2
      let s : Int := k * (fxOne : Int) + (f : Int)
      fRound false (2 * s + 1) (-257)

def fRcp (x : Nat) : Nat := fDiv 0x3F800000 x

def fRsqrt (x : Nat) : Nat :=
  if fIsNaN x then fNaN
  else if fIsZero x then fInf (fpNeg fp32 x)
  else if fpNeg fp32 x then fNaN
  else if fIsInf x then 0
  else
    let v := fpVal fp32 x
    let odd := v.2 % 2 ≠ 0
    let m := if odd then 2 * v.1.natAbs else v.1.natAbs
    let t : Int := (if odd then v.2 - 1 else v.2) / 2
    let q := isqrt (2 ^ 256 / m)
    fRound false (2 * q + b2n (q * q * m != 2 ^ 256) : Nat) (-t - 129)

/-- A function primitive that sets FN_SPECIAL (06 R144). -/
def fnSpecialIn (x : Nat) : Bool := fIsSpecial x || fIsZero x

/-! ## Table lookup (06 R145) -/

/-- One lookup: the table's X0, STEP_EXP and entries; the result, and whether a non-finite value was used. -/
def lutAt (x0 : Nat) (step : Int) (t : List Nat) (x : Nat) : Nat × Bool :=
  let n := t.length
  let end_ := fun (y : Nat) => if fIsNaN y then (fNaN, true) else (y, fIsInf y)
  if fIsSpecial x0 then (fNaN, true)
  else if fIsNaN x then (fNaN, false)
  else if fIsInf x then (if fpNeg fp32 x then end_ (nth 0 t 0) else end_ (nth 0 t (n - 1)))
  else
    let a := fpVal fp32 x
    let b := fpVal fp32 x0
    let d := dyAdd a (-b.1, b.2)
    let e := d.2 - step
    let u : Int × Nat := if 0 ≤ e then (d.1 * 2 ^ e.toNat, 0) else (d.1, (-e).toNat)
    if u.1 ≤ 0 then end_ (nth 0 t 0)
    else if ((n - 1 : Nat) : Int) * 2 ^ u.2 ≤ u.1 then end_ (nth 0 t (n - 1))
    else
      let i := (u.1 / 2 ^ u.2).toNat
      let f := u.1 - (i : Int) * 2 ^ u.2
      let lo := nth 0 t i
      let hi := nth 0 t (i + 1)
      if fIsSpecial lo || fIsSpecial hi then (fNaN, true)
      else
        let p := fpVal fp32 lo
        let q := fpVal fp32 hi
        let diff := dyAdd q (-p.1, p.2)
        let s := dyAdd p (diff.1 * f, diff.2 - u.2)
        (fRound (s.1 == 0 && fpNeg fp32 lo && f == 0) s.1 s.2, false)

/-! ## Loads and stores -/

/-- An element of an output format widened exactly to the running type (06 R141, R142). -/
def widen (fmt x : Nat) : Nat :=
  if fmtOutFp fmt = false then twos 32 (sgn (outIntBits fmt) x)
  else if fmt = 0 then x
  else
    let f := outFp fmt
    let neg := fpNeg f x
    let mag := fpMag f x
    let top := (2 ^ f.expBits - 1) * 2 ^ f.manBits
    if fmt = 3 then
      if mag = 0x7F then fNaN else let v := fpVal f x; fRound neg v.1 v.2
    else if top < mag then fNaN
    else if mag = top then fInf neg
    else let v := fpVal f x; fRound neg v.1 v.2

/-- STORE_S: a running value in an output format, and whether it clamped (06 R148). -/
def narrow (int : Bool) (fmt x : Nat) : Nat × Bool :=
  if int then drainInt (outIntBits fmt) (sgn 32 x) 0 0 else drainF32 fmt 0 x

/-- Whether a stored encoding is a NaN. -/
def storedNaN (int : Bool) (x : Nat) (fmt : Nat) : Bool := !int && fIsNaN x && fmtOutFp fmt

/-- emax of an MX element code (06 R147). -/
def mxEmax (fmt : Nat) : Int := match fmt with | 4 => 0 | 5 => 8 | 6 => 15 | 7 => 2 | 8 => 4 | _ => 2

def mxFp (fmt : Nat) : FpFmt :=
  match fmt with | 5 => e4m3 | 6 => e5m2 | 7 => e2m3 | 8 => e3m2 | _ => e2m1

/-- STORE_MX: the scale byte, the 32 element encodings, whether one clamped, and whether the block is a NaN block. -/
def mxBlock (fmt : Nat) (xs : List Nat) : Nat × List Nat × Bool × Bool :=
  if xs.any fIsSpecial then (0xFF, List.replicate 32 0, false, true)
  else if xs.all fIsZero then (0, List.replicate 32 0, false, false)
  else
    let top := xs.foldl (fun (a : Int) x => if fIsZero x then a else
      let v := fpVal fp32 x
      max a (dyLog v.1.natAbs v.2)) (-200)
    let es := clampInt (-127) 127 (top - mxEmax fmt)
    let el := fun x =>
      let v := fpVal fp32 x
      if fmt = 4 then drainInt 8 v.1 v.2 (es - 6)
      else if v.1 = 0 then (fpSigned (mxFp fmt) (fpNeg fp32 x) 0, false)
      else drainFp (mxFp fmt) v.1 (v.2 - es)
    let ys := xs.map el
    ((es + 127).toNat, ys.map (·.1), ys.any (·.2), false)

end Sys2Proof.Machine
end

