-- ==== Sys2Proof/Machine/ArrayMath.lean ====
section
/-! DEFINITION. What an array computes: operand fetch in matrix and window form (04 R89, 05 R108 to R125), the exact sum
and the BF16 sum (03 R65, R67), the drain (03 R66, R68) and fixed-rate compression (05 R127 to R132). -/

namespace Sys2Proof.Machine

/-! ## Special encodings of the compressible formats -/

def fpIsNaN (f : FpFmt) (x : Nat) : Bool :=
  if f = e4m3 then fpMag f x == 0x7F
  else decide ((2 ^ f.expBits - 1) * 2 ^ f.manBits < fpMag f x)

def fpIsInf (f : FpFmt) (x : Nat) : Bool :=
  if f = e4m3 then false else fpMag f x == (2 ^ f.expBits - 1) * 2 ^ f.manBits

/-! ## Compressed blocks (05 R127 to R132) -/

/-- A block's bits as one number: block bit b is bit b mod 8 of byte b div 8 (05 R128). -/
def blkHeader (blk : Nat) : Nat := fld blk 31 0
def blkField (blk w i : Nat) : Nat := fld blk (32 + w * i + w - 1) (32 + w * i)
def blkKind (blk : Nat) : Nat := fld blk 9 8
def blkExp (blk : Nat) : Nat := fld blk 7 0

/-- 05 R132: whether a block is malformed. -/
def blkBad (blk w : Nat) : Bool :=
  let k := blkKind blk
  let x := blkExp blk
  let fields := (List.range 32).map (blkField blk w)
  fld blk 31 10 != 0 || k == 3 || (k != 1 && (x == 0 || x == 255)) || (k == 1 && x != 0) ||
  (k == 1 && fields.any (· != 0)) || (k == 0 && fields.any (· == 2 ^ (w - 1)))

/-- What a lane presents before scaling: nothing at all (a tap outside the image, an unused lane), an encoding, an exact
value, or a decoded infinity or NaN as FP32. -/
inductive Raw where
  | absent
  | bits (x : Nat)
  | value (m e : Int)
  | bad (x : Nat)
  deriving DecidableEq, Repr

/-- 05 R130: element i of a block. -/
def blkElem (blk w i : Nat) : Raw :=
  let m := w - 1
  let f := blkField blk w i
  let neg := f.testBit m
  let q := f % 2 ^ m
  if blkKind blk = 1 then .value 0 0
  else if blkKind blk = 2 ∧ neg = true ∧ q = 0 then .bad fNaN
  else if blkKind blk = 2 ∧ q = 2 ^ m - 1 then .bad (fInf neg)
  else .value (signMul neg q) ((blkExp blk : Int) - 127 - m + 1)

/-- ⌊log₂ |x|⌋ of a finite non-zero encoding (05 R129). -/
def fpLog (f : FpFmt) (x : Nat) : Int := let v := fpVal f x; dyLog v.1.natAbs v.2

/-- 05 R129: a block of 32 encodings, as its bytes. -/
def blkEncode (f : FpFmt) (ratio : Nat) (xs : List Nat) : List Byte :=
  let bits := fpWidth f
  let w := cmpWidth bits ratio
  let m := w - 1
  let isFin := fun x => !(fpIsNaN f x) && !(fpIsInf f x)
  let fin := xs.filter (fun x => isFin x && fpMag f x != 0)
  let spec := xs.any (fun x => !(isFin x))
  if fin.isEmpty && !spec then leBytes (cmpBytes bits ratio) (1 * 256)
  else
    let ec : Int := fin.foldl (fun a x => max a (fpLog f x)) (-126)
    let top := if spec then 2 ^ m - 2 else 2 ^ m - 1
    let field := fun x =>
      if fpIsNaN f x then 2 ^ m
      else if fpIsInf f x then b2n (fpNeg f x) * 2 ^ m + (2 ^ m - 1)
      else
        let v := fpVal f x
        let q := min (truncDy (v.1.natAbs : Int) (v.2 + m - 1 - ec)).1.natAbs top
        if q = 0 then 0 else b2n (fpNeg f x) * 2 ^ m + q
    let hd := (if spec then 2 else 0) * 256 + (ec + 127).toNat
    let body := (xs.map field).foldr (fun v acc => v + acc * 2 ^ w) 0
    leBytes (cmpBytes bits ratio) (hd + body * 2 ^ 32)

/-! ## Window geometry (05 R113, R114, R123) -/

/-- 05 R114: a coordinate mapped by the border; none presents an exact 0. -/
def mapCoord (v : Int) (n border : Nat) : Option Nat :=
  if 0 ≤ v ∧ v < n then some v.toNat
  else match border with
    | 0 => none
    | 1 => some (if v < 0 then 0 else n - 1)
    | _ =>
      if n ≤ 1 then some 0
      else
        let p : Int := 2 * ((n : Int) - 1)
        let u := ((v % p) + p) % p
        some (if u < n then u.toNat else (p - u).toNat)

/-- The image column and row that a tap of a position reads; none where it presents an exact 0. -/
def tapAt (d : Nat) (h : List Byte) (c : Cursor) (m dx dy : Nat) : Option Nat × Option Nat :=
  if pOpKind d = 2 then
    let vx : Int := (hOutX0 h + c.x + m : Nat) - (hPadL h : Int) + (dx * pDx d : Nat)
    let vy : Int := (c.y : Int) - hPadT h + (dy * pDy d : Nat)
    let one := fun (v : Int) (img s : Nat) =>
      if 0 ≤ v ∧ v < (img - 1) * s + 1 ∧ v % s = 0 then some (v.toNat / s) else none
    (one vx (hImgW h) (pSx d), one vy (hImgH h) (pSy d))
  else
    let x : Int := ((hOutX0 h + c.x + m) * pSx d : Nat) - (hPadL h : Int) + (dx * pDx d : Nat)
    let y : Int := (c.y * pSy d : Nat) - (hPadT h : Int) + (dy * pDy d : Nat)
    (mapCoord x (hImgW h) (pBorder d), mapCoord y (hImgH h) (pBorder d))

/-- Reduction sets of a full reduction (05 R116, R121). -/
def setsTotal (d : Nat) (h : List Byte) : Nat :=
  if pOpKind d = 0 ∨ pOpKind d = 2 then pKh d * pKw d * hG h
  else ceilDiv (2 ^ pGroup d * pKh d * pKw d) 32

/-- The byte offset in the line buffer of the pixel of plane g, image column x, image row y. -/
def pixOff (d : Nat) (h : List Byte) (c : Cursor) (g x y : Nat) : Nat :=
  let slot := (c.frameBase + y) % hRows h
  (pAAddr d + 1 + slot * hSlotUnits h + g * hPlaneUnits h) * 64 + (x - hX0 h) * hPixBytes h

/-- The byte offset of that pixel's first block scale (05 R108). -/
def pixScaleOff (d : Nat) (h : List Byte) (c : Cursor) (g x y : Nat) : Nat :=
  let slot := (c.frameBase + y) % hRows h
  (pAAddr d + 1 + slot * hSlotUnits h + g * hPlaneUnits h + hPixUnits h) * 64 + (x - hX0 h) * (hLg h / 32)

/-- The tap, plane and channel within the plane that reduction index k of a pass stands for, at column n: none for a
lane beyond the taps (05 R116, R121). -/
def lanePlace (d : Nat) (h : List Byte) (c : Cursor) (n k : Nat) : Option (Nat × Nat × Nat × Nat) :=
  if pOpKind d = 0 ∨ pOpKind d = 2 then
    let lg := hLg h
    let s := c.ks + k / lg
    some (s % pKw d, s / pKw d / hG h, s / pKw d % hG h, k % lg)
  else
    let gs := 2 ^ pGroup d
    let l := 32 * c.ks + k
    let t := l / gs
    if pKw d * pKh d ≤ t then none
    else some (t % pKw d, t / pKw d, c.ng, n / gs * gs + l % gs)

/-- The lanes of a pass that no two of stand for one tap: one for each set in plain mapping, every lane of a diagonal one. -/
def tapLanes (d : Nat) (h : List Byte) : List Nat :=
  if pOpKind d = 0 ∨ pOpKind d = 2 then (List.range (pSets d)).map (fun i => i * hLg h) else List.range (pK d)

/-- The taps that the sets of a pass cover (05 R116, R121). -/
def passTaps (d : Nat) (h : List Byte) (c : Cursor) : List (Nat × Nat) :=
  ((tapLanes d h).filterMap (fun k => (lanePlace d h c 0 k).map (fun p => (p.1, p.2.1)))).eraseDups

/-- The image columns and rows that a pass reads: a tap that maps to none on either axis reads nothing (05 R113, R114). -/
def pixelsRead (d : Nat) (h : List Byte) (c : Cursor) : List (Nat × Nat) :=
  (List.range (pM d)).flatMap (fun m => (passTaps d h c).filterMap (fun t =>
    match tapAt d h c m t.1 t.2 with
    | (some x, some y) => some (x, y)
    | _ => none))

/-! ## Operand fetch -/

/-- An element of `bits` bits at an element index from a byte key. -/
def rdElem (w : Work) (key bits i : Nat) : Nat :=
  match bits with
  | 4 => let b := rdNat w (key + i / 2) 1; if i % 2 = 0 then b % 16 else b / 16
  | 16 => rdNat w (key + 2 * i) 2
  | _ => rdNat w (key + i) 1

/-- The same of bytes that a weight register holds. -/
def elemIn (bs : List Byte) (off bits i : Nat) : Nat :=
  match bits with
  | 4 => let b := leAt bs (off + i / 2) 1; if i % 2 = 0 then b % 16 else b / 16
  | 16 => leAt bs (off + 2 * i) 2
  | _ => leAt bs (off + i) 1

/-- The weights of reduction set s, as the weight front takes them (03 R58, 04 R89); pooling reads none. -/
def weightSet (w : Work) (d e s : Nat) : List Byte :=
  if pReadsB d then rd w (spmKey e (64 * pBAddr d + s * pSetBytes d)) (pSetBytes d) else []

/-- The A element of position m, column n, reduction index k, and its block scale byte (none: 2⁰). A channel from C on is
presented as +0 (05 R108); the scale of a block that holds a channel below C covers all its 32 elements (03 R64), so that its
0xFF makes the padded ones special, too (DEDUCED, log 156), and a block wholly at or above C is never read. -/
def fetchA (w : Work) (d e : Nat) (h : List Byte) (c : Cursor) (m n k : Nat) : Raw × Option Nat :=
  if pASrc d = 0 then
    let base := spmKey e (64 * (pAAddr d + m * pAPitch d))
    let sc := if isMx (pFmtA d) then some (rdNat w (spmKey e (64 * pAScale d + m * (pK d / 32) + k / 32)) 1) else none
    if pCmpA d = 0 then (.bits (rdElem w base (elemBits (pFmtA d)) k), sc)
    else
      let bits := fpWidth (inFp (pFmtA d))
      let n := cmpBytes bits (pCmpA d)
      (blkElem (rdNat w (base + k / 32 * n) n) (cmpWidth bits (pCmpA d)) (k % 32), none)
  else
    match lanePlace d h c n k with
    | none => (.absent, none)
    | some (dx, dy, g, ch) =>
      match tapAt d h c m dx dy with
      | (some x, some y) =>
        let sc := if isMx (pFmtA d) then some (rdNat w (lbKey e (pixScaleOff d h c g x y + ch / 32)) 1) else none
        if hChannels h ≤ hLg h * g + ch then
          (.value 0 0, if hLg h * g + ch / 32 * 32 < hChannels h then sc else none)
        else (.bits (rdElem w (lbKey e (pixOff d h c g x y)) (elemBits (pFmtA d)) ch), sc)
      | _ => (.absent, none)

/-- The B element of column n, reduction index k, and its block scale byte; the first set stands in NEXT when the weight
front has loaded it (`front`, 03 R58). -/
def fetchB (w : Work) (front : List Byte) (d e n k : Nat) : Raw × Option Nat :=
  if pReadsB d then
    let per := pKset d * pBBits d / 8
    let base := spmKey e (64 * pBAddr d + k / pKset d * pSetBytes d + n * per)
    let sc := if isMx (pFmtB d) then some (rdNat w (spmKey e (64 * pBScale d + k / 32 * 32 + n)) 1) else none
    (.bits (if k < pKset d ∧ front ≠ [] then elemIn front (n * per) (pBBits d) k
      else rdElem w base (pBBits d) (k % pKset d)), sc)
  else (.value 1 0, none)

/-- The exact value of an element under its format and scale; none when either is special (03 R64, R65). -/
def rawVal (fmt : Nat) (r : Raw) (sc : Option Nat) : Option (Int × Int) :=
  let v : Option (Int × Int) := match r with
    | .absent => some (0, 0)
    | .bits x => elemVal fmt x
    | .value m e => some (m, e)
    | .bad _ => none
  match v, sc with
  | some v, none => some v
  | some v, some s => (scaleExp s).map (fun x => (v.1, v.2 + x))
  | none, _ => none

/-- An element of a BF16 pass as FP32. -/
def rawF32 (r : Raw) : Nat :=
  match r with
  | .absent => 0
  | .bits x => x * 65536
  | .value m e => fRound false m e
  | .bad x => x

/-! ## Accumulation -/

def accZero : AccEl := { acc := 0, trunc := 0, special := 0, sat := false, seen := false }

/-- One term of the exact sum. A lane that presents nothing counts nowhere (05 R114); a zero tap between the pixels of a
transposed pass presents nothing in the same way, whatever its weight (05 R123; DESIGN CHOICE, log 129). -/
def exactTerm (w : Work) (front : List Byte) (d e : Nat) (h : List Byte) (c : Cursor) (m n : Nat) (s : AccEl) (k : Nat) : AccEl :=
  let a := fetchA w d e h c m n k
  if a.1 = .absent then s
  else
    let b := fetchB w front d e n k
    accTerm (pAccLsb d) (rawVal (pFmtA d) a.1 a.2) (rawVal (pFmtB d) b.1 b.2) (some 0) (some 0) s

/-- The exact sum of element (m, n) over a pass, from a carried accumulator (03 R65). -/
def exactSum (w : Work) (front : List Byte) (d e : Nat) (h : List Byte) (c : Cursor) (m n : Nat) (s : AccEl) : AccEl :=
  accClamp ((List.range (pK d)).foldl (exactTerm w front d e h c m n) s)

/-- One tap of max pooling (05 R125): the larger of what is kept and the tap; a special tap is skipped and counted. -/
def maxTap (w : Work) (d e : Nat) (h : List Byte) (c : Cursor) (m n : Nat) (s : AccEl) (k : Nat) : AccEl :=
  match lanePlace d h c n k with
  | none => s
  | some _ =>
    let a := fetchA w d e h c m n k
    match rawVal (pFmtA d) a.1 a.2 with
    | none => { s with special := s.special + 1 }
    | some v =>
      let t := accTerm (pAccLsb d) (some v) (some (1, 0)) (some 0) (some 0) { s with acc := 0 }
      { t with acc := if s.seen then max s.acc t.acc else t.acc, seen := true }

/-- Max pooling (05 R125): the largest truncated tap of the chain so far, 0 when no tap is left. -/
def maxPool (w : Work) (d e : Nat) (h : List Byte) (c : Cursor) (m n : Nat) (s : AccEl) : AccEl :=
  accClamp ((List.range (pK d)).foldl (maxTap w d e h c m n) s)

/-- A BF16 column sum of one set (03 R67): 32 products in row order, each addition rounded; lanes beyond K add +0. -/
def bfSet (w : Work) (front : List Byte) (d e : Nat) (h : List Byte) (c : Cursor) (m n s : Nat) : Nat × Nat :=
  let prod := fun r =>
    let k := 32 * s + r
    if k < pK d ∧ (pASrc d = 0 ∨ (lanePlace d h c n k).isSome = true) then
      let a := fetchA w d e h c m n k
      let b := fetchB w front d e n k
      let fa := rawF32 a.1
      let fb := rawF32 b.1
      (fMul fa fb, if a.1 = .absent then 0 else b2n (fIsSpecial fa || fIsSpecial fb))
    else (0, 0)
  (List.range 31).foldl (fun (p : Nat × Nat) i =>
    let q := prod (i + 1)
    (fAdd p.1 q.1, p.2 + q.2)) (prod 0)

/-- The FP32 accumulator of element (m, n) over a BF16 pass. -/
def bfSum (w : Work) (front : List Byte) (d e : Nat) (h : List Byte) (c : Cursor) (m n : Nat) (s : AccEl) (cont : Bool) : AccEl :=
  (List.range (pSets d)).foldl (fun (a : AccEl) i =>
    let q := bfSet w front d e h c m n i
    let v := if i = 0 ∧ cont = false then q.1 else fAdd a.acc.toNat q.1
    { a with acc := v, special := a.special + q.2 }) s

/-! ## The checksum column and position (15 R385) -/

def dySum (l : List (Int × Int)) : Int × Int := l.foldl dyAdd (0, 0)
def dyMul (a b : Int × Int) : Int × Int := (a.1 * b.1, a.2 + b.2)

/-- The scaled values that the wide sums take: a special one adds nothing, since a pass that meets one is not compared. -/
def scaledA (w : Work) (d e : Nat) (h : List Byte) (c : Cursor) (m n k : Nat) : Int × Int :=
  let a := fetchA w d e h c m n k
  (rawVal (pFmtA d) a.1 a.2).getD (0, 0)
def scaledB (w : Work) (front : List Byte) (d e n k : Nat) : Int × Int :=
  let b := fetchB w front d e n k
  (rawVal (pFmtB d) b.1 b.2).getD (0, 0)

/-- c_k: the weights of reduction index k over the data columns, with their scales. -/
def checkC (w : Work) (front : List Byte) (d e k : Nat) : Int × Int :=
  dySum ((List.range (pN d)).map (fun n => scaledB w front d e n k))

/-- The lane inputs of reduction index k over the positions, as column n takes them. -/
def checkA (w : Work) (d e : Nat) (h : List Byte) (c : Cursor) (n k : Nat) : Int × Int :=
  dySum ((List.range (pM d)).map (fun m => scaledA w d e h c m n k))

/-- Carried sums with this pass's added, place by place. -/
def carrySums (l : List (Int × Int)) (count : Nat) (f : Nat → Int × Int) : List (Int × Int) :=
  (List.range (max l.length count)).map (fun i => if i < count then dyAdd (nth (0, 0) l i) (f i) else nth (0, 0) l i)

/-- X_m, Y_n at level 2 and above, and the check registers as the last set leaves them. The columns of average pooling have
inputs of their own (05 R121), so its X_m sums each column's (DESIGN CHOICE, log 130). -/
def passSums (w : Work) (front : List Byte) (d e : Nat) (h : List Byte) (c : Cursor) (old : Option CheckSums) : CheckSums :=
  let o := old.getD { c := [], x := [], y := [] }
  let ks := List.range (pK d)
  let cs := ks.map (checkC w front d e)
  let first := (pSets d - 1) * pKset d
  let xs := fun m =>
    if pOpKind d = 3 then dySum (ks.flatMap (fun k => (List.range (pN d)).map (fun n => scaledA w d e h c m n k)))
    else dySum (ks.map (fun k => dyMul (scaledA w d e h c m 0 k) (nth (0, 0) cs k)))
  let ys := fun n => dySum (ks.map (fun k => dyMul (checkA w d e h c n k) (scaledB w front d e n k)))
  { c := cs.drop first, x := carrySums o.x (pM d) xs, y := if pLevel d = 1 then [] else carrySums o.y (pN d) ys }

/-- What a pass leaves in the array, from what its chain carries (03 R61). Positions and columns beyond its M × N compute
zeros (03 R58), so the accumulators that the chain holds there stay (DEDUCED, log 155: 03 R61 does not say). -/
def passAcc (w : Work) (front : List Byte) (d e : Nat) (h : List Byte) (c : Cursor) (kept : Option Accs) : Accs :=
  let k := kept.getD { m := 0, n := 0, els := [], sums := none }
  let carried := fun m n => if m < k.m ∧ n < k.n then nth accZero k.els (m * k.n + n) else accZero
  let el := fun m n =>
    let a := carried m n
    if pM d ≤ m ∨ pN d ≤ n then (if pFloat d then { a with acc := fAdd a.acc.toNat 0 } else a)
    else if pFloat d then bfSum w front d e h c m n a kept.isSome
    else if pOpKind d = 4 then maxPool w d e h c m n a
    else exactSum w front d e h c m n a
  let mm := max k.m (pM d)
  let nn := max k.n (pN d)
  { m := mm, n := nn, els := (List.range mm).flatMap (fun m => (List.range nn).map (el m)),
    sums := if hasSums d then some (passSums w front d e h c k.sums) else none }

/-- An upset of the array: accumulator i changes by `delta` before the drain. -/
def upsetAcc (d i : Nat) (delta : Int) (a : Accs) : Accs :=
  let hit := fun (x : AccEl) => { x with acc := if pFloat d then (twos 32 (x.acc + delta) : Int) else sgn 64 (twos 64 (x.acc + delta)) }
  { a with els := a.els.mapIdx (fun j x => if j = i then hit x else x) }

/-- Whether a row's or column's checksum differs from its accumulators by more than its truncations can (15 R386). -/
def sumBad (w : Int) (x : Int × Int) (l : List AccEl) : Bool :=
  let s := l.foldl (fun a e => a + e.acc) (0 : Int)
  let t := l.foldl (fun a e => a + e.trunc) (0 : Nat)
  let diff := dyAdd x (-s, w)
  let excess := dyAdd ((diff.1.natAbs : Int), diff.2) (-(t : Int), w)
  diff.1 != 0 && decide (0 ≤ excess.1)

/-- The comparison at the drain of a pass or chain: every position, and at level 2 and above every column, over the
accumulators that the chain holds (15 R386). -/
def sumsMismatch (d : Nat) (a : Accs) : Bool :=
  match a.sums with
  | none => false
  | some s =>
    let at_ := fun m n => nth accZero a.els (m * a.n + n)
    (List.range a.m).any (fun m => sumBad (pAccLsb d) (nth (0, 0) s.x m) ((List.range a.n).map (at_ m))) ||
    (pLevel d != 1 && (List.range a.n).any (fun n =>
      sumBad (pAccLsb d) (nth (0, 0) s.y n) ((List.range a.m).map (fun m => at_ m n))))

/-! ## The drain -/

/-- A quotient acc × 2^w / div in an output format, rounded once (05 R124). -/
def drainQuot (fmt : Nat) (lsb : Int) (acc w : Int) (div : Nat) : Nat × Bool :=
  if div ≤ 1 then drainExact fmt lsb acc w
  else
    let n := acc.natAbs * 2 ^ 96
    let q := 2 * (n / div) + b2n (n % div != 0)
    drainExact fmt lsb (signMul (decide (acc < 0)) q) (w - 97)

/-- One drained element: its encoding and whether it saturated. -/
def drainEl (d : Nat) (a : AccEl) : Nat × Bool :=
  if pFloat d then drainF32 (pFmtOut d) (pOutLsb d) a.acc.toNat
  else drainQuot (pFmtOut d) (pOutLsb d) a.acc (pAccLsb d) (if pOpKind d = 3 then pKh d * pKw d else 1)

/-- A drained tile: its encodings, position-major, and its PASS_STATUS, whose counts and ACC_SAT are those of the
chain's products (03 R72). -/
def drainTile (d : Nat) (half : Bool) (a : Accs) : List Nat × Nat :=
  let els := (List.range (pM d)).flatMap (fun m => (List.range (pN d)).map (fun n =>
    drainEl d (nth accZero a.els (m * a.n + n))))
  let special := a.els.foldl (fun n a => n + a.special) 0
  let trunc := if pFloat d then 0 else a.els.foldl (fun n a => n + a.trunc) 0
  let st := passStatus special trunc (half && pSplit d) (pSplit d) (els.any (·.2)) (a.els.any (·.sat))
  (els.map (·.1), st)

/-- Store a drained tile in the scratchpad of engine e, its PASS_STATUS after it (04 R89, 05 R131). -/
def storeTile (d e : Nat) (tile : List Nat) (st : Nat) (w : Work) : Work :=
  let rowKey := fun m => spmKey e (64 * (pDrainAddr d + m * pDrainPitch d))
  let row := fun m => (List.range (pN d)).map (fun n => nth 0 tile (m * pN d + n))
  let w := forAll (List.range (pM d)) (fun m w =>
    let vals := row m
    if pCmpOut d = 0 then put (rowKey m) (vals.flatMap (leBytes (outBytes (pFmtOut d)))) w
    else
      let xs := vals ++ List.replicate (32 - pN d) 0
      put (rowKey m) (blkEncode (outFp (pFmtOut d)) (pCmpOut d) xs) w) w
  put (rowKey (pM d)) (leBytes 8 st) w

/-- Whether a pass with CMP_A reads a malformed block, and how many (05 R132). -/
def badBlocks (w : Work) (d e : Nat) : Nat :=
  if pCmpA d = 0 then 0
  else
    let bits := fpWidth (inFp (pFmtA d))
    let n := cmpBytes bits (pCmpA d)
    let wd := cmpWidth bits (pCmpA d)
    let all := (List.range (pM d)).flatMap (fun m => (List.range (pK d / 32)).map (fun j =>
      blkBad (rdNat w (spmKey e (64 * (pAAddr d + m * pAPitch d) + j * n)) n) wd))
    (all.filter (fun b => b)).length

/-- The scratchpad byte address of the first malformed block a pass reads (16 R411 source 0x022). -/
def badBlockAt (w : Work) (d e : Nat) : Nat :=
  let bits := fpWidth (inFp (pFmtA d))
  let n := cmpBytes bits (pCmpA d)
  let wd := cmpWidth bits (pCmpA d)
  let all := (List.range (pM d)).flatMap (fun m => (List.range (pK d / 32)).map (fun j =>
    64 * (pAAddr d + m * pAPitch d) + j * n))
  (all.find? (fun a => blkBad (rdNat w (spmKey e a) n) wd)).getD 0

end Sys2Proof.Machine
end

