-- ==== Sys2Proof/Machine/Checks.lean ====
section
/-! DEFINITION. The checks of 04 R105 on pass and DMA descriptors and on synchronisation objects, used at load and
repeated at issue, and the facts about a context they need: class, rank, placement, scope. Where several checks fail the
lowest code is returned (DESIGN CHOICE, log 7). -/

namespace Sys2Proof.Machine

/-! ## Contexts -/

def ctxClass (b : Blk) (n : Nat) : Nat := ctxGet b n 0x02
/-- A Garnet context (02 R35). -/
def isGarnet (n : Nat) : Bool := decide (960 ≤ n) && decide (n < 1024)
/-- The service order of 02 R36 as a number: the smaller is served first. -/
def rank (b : Blk) (n : Nat) : Nat :=
  let c := ctxClass b n
  ((c * 2 + b2n (c == 1 && isGarnet n)) * 65536 + ctxGet b n 0x05) * 1024 + n
/-- Context i stands above context j in the order of R36. -/
def above (b : Blk) (i j : Nat) : Bool := decide (rank b i < rank b j)

/-- Holds admission (02 R46). -/
def holdsAdmission (b : Blk) (n : Nat) : Bool :=
  let s := ctxGet b n 0x0B
  s == 1 || s == 2 || s == 5

/-- The quads of a placement (02 R34 QUAD_GROUP). -/
def placeQuads (b : Blk) (n p : Nat) : Nat := ctxGet b n (0x10 + 16 * p)
/-- The placement in force; none is 0xFF. -/
def activePlace (b : Blk) (n : Nat) : Nat := ctxGet b n 0x0E
def activeQuads (b : Blk) (n : Nat) : Nat := if activePlace b n < 4 then placeQuads b n (activePlace b n) else 0
/-- A figure of the placement in force: 1 WORK_CYCLES, 2 LONGEST_PASS, 3 MEM_BYTES, 4 LINK_BYTES. -/
def activeFig (b : Blk) (n i : Nat) : Nat := if activePlace b n < 4 then ctxGet b n (0x10 + 16 * activePlace b n + i) else 0

def quadOf (e : Nat) : Nat := e / 4
/-- An engine of a placement. -/
def inPlace (quads e : Nat) : Bool := quads.testBit (quadOf e)

/-- Linked through CHAIN_PREDECESSOR in either direction (04 R95). -/
def linked (b : Blk) (i j : Nat) : Bool := i == j || ctxGet b i 0x07 == j || ctxGet b j 0x07 == i

/-- The image of a context and placement. -/
def imageOf (b : Blk) (n p : Nat) : Option Image := b.images.find? (fun i => i.ctx == n && i.placement == p)

/-- ENTRY of the Garnet program of an engine, in 32-byte units: DESIGN CHOICE (log 8), the first unit of the bytes 15
R382 gives it. -/
def garnetEntry : Nat := 0xB8000 / 32

/-- The engines a slice of a context runs on, with their entries (04 R104; Garnet: every engine of its quad). -/
def ctxEngines (b : Blk) (n : Nat) : List (Nat × Nat) :=
  if isGarnet n then (List.range 4).map (fun i => ((n - 960) * 4 + i, garnetEntry))
  else match imageOf b n (activePlace b n) with
    | some i => i.engines
    | none => []

/-- Bytes of an engine's scratchpad below its cache part (07 R160). -/
def spmLimit (b : Blk) (e : Nat) : Nat := 0x100000 - quadGet b (quadOf e) 0x60 * 1024

/-- A scratchpad range lies in the store, outside its cache part, and outside the Garnet bytes unless the context is a
Garnet one (15 R382). -/
def spmRangeOk (b : Blk) (n e a len : Nat) : Bool :=
  decide (a + len ≤ spmLimit b e) && (isGarnet n || decide (a + len ≤ 0xB8000) || decide (0xC0000 ≤ a))

/-! ## Synchronisation objects (04 R95) -/

def syncOf (b : Blk) (o : Nat) : Option SyncObj := tabGet none b.syncs o

/-- An object at the initial value of its table: a semaphore's count, no arrival at a barrier (04 R95, R97). -/
def SyncObj.fresh (s : SyncObj) : SyncObj :=
  { s with count := if s.kind = .barrier then 0 else s.init }

/-- A named object passes at load: not declared yet, or of the right kind and of a linked context. -/
def syncLoadOk (b : Blk) (n o : Nat) (k : SyncKind) : Bool :=
  decide (o / 4096 < dies b.fuses) &&
  match syncOf b o with
  | none => true
  | some s => s.kind == k && linked b n s.owner

/-- A named object passes at issue. -/
def syncIssueOk (b : Blk) (n o : Nat) (k : SyncKind) : Bool :=
  (syncOf b o).isSome && syncLoadOk b n o k

/-! ## Pass descriptors -/

/-- 04 R92: the length figure against the limits of the class, PREEMPTIBLE and LONGEST_PASS. -/
def lengthCheck (b : Blk) (n p : Nat) (preempt : Bool) (len : Nat) : Option Nat :=
  if len > (if preempt then 1024 else 4096) then some 0x05
  else if preempt = false ∧ (ctxClass b n = 3 ∨ isGarnet n = true) then some 0x05
  else if len > ctxGet b n (0x12 + 16 * p) then some 0x06
  else none

/-- The limits that a CHECK_LEVEL sets (15 R384, R386). -/
def levelOk (b : Blk) (n d : Nat) : Bool :=
  let l := pLevel d
  decide ((if holdsAdmission b n then (ctxRun b n).minLevel else fld (odGet b 0x2300 0x0B) (2 * n + 1) (2 * n)) ≤ l) &&
  (l == 0 || decide (pN d ≤ (if pSplit d then 15 else 31))) && (decide (l < 2) || decide (pM d ≤ 31)) &&
  !((l == 1 || l == 2) && (pBf d || pOpKind d == 1 || pOpKind d == 4))

/-- Fields in range and combinations allowed: what code 0x07 refuses (04 R87, R90; 05 R116, R121 to R125, R131; 15
R384). -/
def fieldsOk (b : Blk) (n d : Nat) : Bool :=
  decide (pDrainKind d < 3) && decide (pBorder d < 3) && decide (pASrc d < 2) && decide (pOpKind d < 5) &&
  decide (1 ≤ pK d) && decide (pK d ≤ 8000) && decide (1 ≤ pKw d) && decide (1 ≤ pKh d) &&
  (!(pSplit d) || decide (pN d ≤ 16)) && (pOpKind d == 1 || pGroup d == 0) && decide (pGroup d ≤ 5) &&
  (!(pDup d) || pLevel d == 3) && (isMx (pFmtA d) || pAScale d == 0) && (isMx (pFmtB d) || pBScale d == 0) &&
  (pDrainKind d == 1 || (pDrainAddr d == 0 && pDrainPitch d == 0)) && levelOk b n d &&
  (pASrc d != 0 || (pKw d == 1 && pKh d == 1 && pSx d == 1 && pSy d == 1 && pDx d == 1 && pDy d == 1 &&
    pBorder d == 0 && pOpKind d == 0)) &&
  (pASrc d != 1 || (pK d % pKset d == 0 && (!(isFour (pFmtA d)) || isFour (pFmtB d)))) &&
  (!(pOpKind d == 1 || pOpKind d == 3 || pOpKind d == 4) || !(isFour (pFmtA d) || isMx (pFmtA d))) &&
  (pOpKind d != 2 || pBorder d == 0) &&
  (decide (pOpKind d < 3) || (pBAddr d == 0 && pBScale d == 0 && pFmtB d == pFmtA d)) &&
  (pCmpA d == 0 || decide (pK d / 32 * cmpBytes (fpWidth (inFp (pFmtA d))) (pCmpA d) ≤ 64 * pAPitch d)) &&
  (pCmpOut d == 0 || decide (cmpBytes (fpWidth (outFp (pFmtOut d))) (pCmpOut d) ≤ 64 * pDrainPitch d))

/-- Operand and drain ranges in the store (code 0x08). -/
def rangesOk (b : Blk) (n e d : Nat) : Bool :=
  (if pASrc d = 0 then
    spmRangeOk b n e (64 * pAAddr d) (64 * ((pM d - 1) * pAPitch d) + pRowA d) &&
    (!(isMx (pFmtA d)) || spmRangeOk b n e (64 * pAScale d) (pM d * (pK d / 32)))
   else decide (pAAddr d < 2048)) &&
  (!(pReadsB d) || (spmRangeOk b n e (64 * pBAddr d) (pSets d * pSetBytes d) &&
    (!(isMx (pFmtB d)) || spmRangeOk b n e (64 * pBScale d) (32 * ceilDiv (pK d) 32)))) &&
  (pDrainKind d != 1 || (spmRangeOk b n e (64 * pDrainAddr d) (64 * ((pM d - 1) * pDrainPitch d) + pRowOut d) &&
    spmRangeOk b n e (64 * (pDrainAddr d + pM d * pDrainPitch d)) 8))

/-- 04 R91, 05 R131: what compression allows (code 0x0A). -/
def compressOk (d : Nat) : Bool :=
  (pCmpA d == 0 || ((pFmtA d == 0xA || pFmtA d == 2 || pFmtA d == 3) && pASrc d == 0 && pK d % 32 == 0)) &&
  (pCmpOut d == 0 || (fmtOutFp (pFmtOut d) && pDrainKind d == 1))

/-- The partner engine of duplicate execution (15 R387). -/
def partnerOf (e : Nat) : Nat := if quadOf e % 2 = 0 then e + 4 else e - 4

/-- The checks of a pass descriptor that need no run (04 R105), for a context, placement and engine. -/
def passCheck (b : Blk) (n p e d : Nat) (queued atLoad : Bool) : Option Nat :=
  if pVersion d ≠ 1 ∨ pReservedOk d = false then some 0x01
  else if fmtInOk (pFmtA d) = false ∨ fmtInOk (pFmtB d) = false ∨ fmtOutOk (pFmtOut d) = false ∨
      (pFmtA d == 0xA) ≠ (pFmtB d == 0xA) ∨ (pOutLsb d ≠ 0 ∧ fmtOutFp (pFmtOut d) = true) then some 0x03
  else if (isMx (pFmtA d) = true ∨ isMx (pFmtB d) = true) ∧ pK d % 32 ≠ 0 then some 0x04
  else match lengthCheck b n p (pPreempt d) (pLength d) with
    | some c => some c
    | none =>
      if fieldsOk b n d = false then some 0x07
      else if pDup d = true ∧ (placeQuads b n p).testBit (quadOf (partnerOf e)) = false then some 0x07
      else if (ctxRun b n).level ≠ none ∧ (ctxRun b n).level ≠ some (pLevel d) then some 0x07
      else if rangesOk b n e d = false then some 0x08
      else if queued = true ∧ (pStart d = false ∨ pDrainKind d = 0) then some 0x09
      else if compressOk d = false then some 0x0A
      else if pSemEn d = true ∧ (if atLoad then syncLoadOk b n (pSem d) .semaphore
          else syncIssueOk b n (pSem d) .semaphore) = false then some 0x0C
      else none

/-! ## Pools and the module address map (07 R171, R172) -/

/-- The channel of a main-memory byte address, and the offset within it (07 R171). -/
def memChannel (a : Nat) : Nat := a / 134217728
def memOffset (a : Nat) : Nat := a % 134217728

/-- The pool that a range lies in whole. -/
def poolOf (b : Blk) (a len : Nat) : Option Nat :=
  (List.range 128).find? (fun p =>
    let bytes := odGet b (0x2640 + p) 3
    let base := odGet b (0x2640 + p) 2
    decide (0 < bytes) && decide (base ≤ a) && decide (a + len ≤ base + bytes))

end Sys2Proof.Machine
end

