-- ==== Sys2Proof/Machine/Slices.lean ====
section
/-! DEFINITION. What happens to a slice as a whole: stopping it (04 R106, 16 R416), refusing its program, its budget
(02 R48), the work it has outstanding (04 R82), signals (04 R96), line-buffer retirement (05 R111). -/

namespace Sys2Proof.Machine

/-! ## Signals -/

/-- SIGNAL's effect on a semaphore (04 R96): a count that would pass 0xFFFF stays there and raises "semaphore
overflow" against the signalling engine. -/
def signalSync (e o amount : Nat) (w : Work) : Work :=
  match syncOf w.toBlk o with
  | none => w
  | some s =>
    let n := s.count + amount
    let w := { w with syncs := tabSet none w.syncs o (some { s with count := min n 0xFFFF }) }
    doIf (decide (0xFFFF < n)) (raise 0x01E o e) w

/-- Correctable words that a command meets are delivered corrected and counted on the quad of the store that holds each (07
R180, R185), where the command does something; `ce` names the engine of the store of each. -/
def withCorrected (ce : List Nat) (f : Work → Work) (w : Work) : Work :=
  let v := f w
  if v.engines = w.engines then v
  else forAll (ce.filter (fun e => decide (e < engineCount w.fuses))) (fun e w => quadAdd (quadOf e) 0x63 1 w) v

/-! ## Rings in the line buffer (05 R107, R111) -/

def ringHeader (w : Work) (e unit : Nat) : List Byte := rd w (lbKey e (64 * unit)) 64

/-- The image rows that output row y reads after border mapping (05 R113). -/
def rowsRead (d : Nat) (h : List Byte) (y : Nat) : List Nat :=
  ((List.range (pKh d)).filterMap (fun dy => (tapAt d h { frameBase := 0, y := y, x := 0, ng := 0, ks := 0 } 0 0 dy).2)).eraseDups

/-- The passes of an engine that have started on a ring and are neither complete nor withheld, abandoned ones that wait
for their rerun included (05 R111). -/
def ringPasses (b : Blk) (g : Engine) (unit : Nat) : List PassReq :=
  let of := fun (h : Half) =>
    (match h.run with | some r => if r.dead then [] else [r.req] | none => []) ++ h.rerun ++ h.waiting.flatten ++
    (match h.kept with | some r => [r.req] | none => [])
  (of g.h0 ++ of g.h1).filter (fun r => pASrc r.desc == 1 && pAAddr r.desc == unit && r.cur.isSome &&
    !(sliceOf b r.ctx).withheld)

/-- The lowest row sequence still read, and RETIRE_SEQ moved up to it (05 R111): recomputed at every pass start and
completion on the ring; it never falls. -/
def retireUpdate (e d : Nat) (w : Work) : Work :=
  if pASrc d ≠ 1 then w
  else
    let unit := pAAddr d
    let h := ringHeader w e unit
    let c := hCursor h
    let ahead := (List.range (hOutH h - c.y)).flatMap (fun i => (rowsRead d h (c.y + i)).map (c.frameBase + ·))
    let busy := (ringPasses w.toBlk (engineOf w.toBlk e) unit).flatMap (fun r => match r.cur with
      | some k => (rowsRead r.desc h k.y).map (k.frameBase + ·)
      | none => [])
    let all := ahead ++ busy
    let low := all.foldl min (if ahead.isEmpty then c.frameBase + hImgH h else nth 0 ahead 0)
    put (lbKey e (64 * unit + 56)) (leBytes 8 (max (hRetire h) low)) w

/-- The cursor after a pass has started (05 R117). -/
def advanceCursor (d : Nat) (h : List Byte) (c : Cursor) : Cursor :=
  let ks := c.ks + pSets d
  if ks < setsTotal d h then { c with ks := ks }
  else if c.ng + 1 < hGroups h then { c with ks := 0, ng := c.ng + 1 }
  else if c.x + pM d < hOutW h then { c with ks := 0, ng := 0, x := c.x + pM d }
  else if c.y + 1 < hOutH h then { c with ks := 0, ng := 0, x := 0, y := c.y + 1 }
  else { frameBase := c.frameBase + hImgH h, y := 0, x := 0, ng := 0, ks := 0 }

def storeCursor (e unit : Nat) (c : Cursor) (w : Work) : Work :=
  let w := put (lbKey e (64 * unit + 40)) (leBytes 8 c.frameBase) w
  let w := put (lbKey e (64 * unit + 48)) (leBytes 2 c.y ++ leBytes 2 c.x ++ leBytes 1 c.ng) w
  put (lbKey e (64 * unit + 54)) (leBytes 2 c.ks) w

/-! ## Work a slice has outstanding -/

def halves (g : Engine) : List Half := [g.h0, g.h1]
def halfOf (g : Engine) (h : Bool) : Half := if h then g.h1 else g.h0
def setHalf (g : Engine) (h : Bool) (x : Half) : Engine := if h then { g with h1 := x } else { g with h0 := x }
def modHalf (e : Nat) (h : Bool) (f : Half → Half) (w : Work) : Work :=
  modEngine e (fun g => setHalf g h (f (halfOf g h))) w

/-- The passes a half holds: running, next, waiting for a rerun. -/
def halfReqs (h : Half) : List PassReq :=
  (match h.run with | some r => [r.req] | none => []) ++ (match h.next with | some r => [r] | none => []) ++ h.rerun ++
  h.waiting.flatten

/-- Every pass that has been issued or placed and is not complete, wherever it runs or waits. -/
def allReqs (b : Blk) : List PassReq :=
  b.engines.flatMap (fun p => (halves p.2).flatMap halfReqs ++ p.2.slots.flatMap (·.returned)) ++ b.tileq.flatMap (·.2)

/-! ## Drain targets that are not complete (03 R77, 04 R94) -/

/-- The rows of a drain target in the owner's scratchpad, PASS_STATUS included: address and length. -/
def drainRanges (d : Nat) : List (Nat × Nat) :=
  if pDrainKind d = 1 then
    (List.range (pM d)).map (fun m => (64 * (pDrainAddr d + m * pDrainPitch d), pRowOut d)) ++
    [(64 * (pDrainAddr d + pM d * pDrainPitch d), 8)]
  else []

/-- The drain targets in the scratchpad of engine e of passes that were issued before `stamp` and are not complete. -/
def pendingDrains (b : Blk) (e stamp : Nat) : List (Nat × Nat) :=
  ((allReqs b).filter (fun r => r.owner == e && decide (r.stamp < stamp))).flatMap (fun r => drainRanges r.desc)

def meets (a b : List (Nat × Nat)) : Bool :=
  a.any (fun x => b.any (fun y => decide (x.1 < y.1 + y.2) && decide (y.1 < x.1 + x.2)))

/-- A unit of engine e that was given its work at `stamp` holds back reads of these ranges of the engine's scratchpad. -/
def heldBack (b : Blk) (e stamp : Nat) (reads : List (Nat × Nat)) : Bool := meets reads (pendingDrains b e stamp)

/-- The ranges of the owner's scratchpad that hold a pass's weights, and all that it reads (04 R89). -/
def weightReads (d : Nat) : List (Nat × Nat) :=
  if pReadsB d then (64 * pBAddr d, pSets d * pSetBytes d) ::
    (if isMx (pFmtB d) then [(64 * pBScale d, 32 * ceilDiv (pK d) 32)] else [])
  else []
def passReads (d : Nat) : List (Nat × Nat) :=
  (if pASrc d = 0 then (List.range (pM d)).map (fun m => (64 * (pAAddr d + m * pAPitch d), pRowA d)) ++
    (if isMx (pFmtA d) then [(64 * pAScale d, pM d * (pK d / 32))] else [])
   else []) ++ weightReads d

def mine (e n : Nat) (r : PassReq) : Bool := r.owner == e && r.ctx == n

/-- Passes of a context issued by engine e and not complete, wherever they run or wait (04 R102). -/
def passesOut (b : Blk) (e n : Nat) : Bool :=
  (allReqs b).any (mine e n)

def chainsOut (b : Blk) (e n : Nat) : Bool :=
  let v := (engineOf b e).vec
  v.issued.any (fun c => c.ctx == n) || (match v.running with | some r => r.req.ctx == n | none => false)

def dmaOut (b : Blk) (e n : Nat) : Bool := (engineOf b e).dma.any (fun j => j.ctx == n)

/-- The slot of a context on an engine. -/
def slotIx (b : Blk) (e n : Nat) : Option Nat :=
  (List.range 16).find? (fun k => let s := slotOf (engineOf b e) k; s.live && s.ctx == n)

/-- Free the finished-tile queue entries of a context on an engine (06 R137). -/
def freeEntries (e n : Nat) (w : Work) : Work :=
  modEngine e (fun g => { g with vec.queue := g.vec.queue.filter (fun q => q.ctx != n) }) w

/-! ## Stopping -/

/-- A half runs a pass of a context, or keeps the accumulators of its chain. -/
def halfRuns (h : Half) (n : Nat) : Bool := match h.run with | some r => r.req.ctx == n | none => false
def halfKeeps (h : Half) (n : Nat) : Bool := match h.kept with | some r => r.req.ctx == n | none => false

/-- Whether stopping a context's slice abandons a pass or chain on a half: a running one when `hard`, and one that only
its kept accumulators hold (03 R73). -/
def halfLoses (h : Half) (n : Nat) (hard : Bool) : Bool := if halfRuns h n then hard else halfKeeps h n

/-- A pass has started and is stalled: NEXT holds its own first set still. -/
def Half.stalled (h : Half) : Bool := match h.run with | some r => r.acc.isNone | none => false

/-- The half without its pass and chain. -/
def Half.cleared (h : Half) : Half :=
  { h with run := none, kept := none, chain := [], rerun := [], second := false, loaded := if h.stalled then [] else h.loaded }

/-- The half without its next pass, whose weights NEXT no longer holds (04 R81). -/
def Half.dropNext (h : Half) : Half := { h with next := none, loaded := if h.stalled then h.loaded else [] }

/-- Drop a context's work from a half: its unstarted passes always, its running pass and chain when `hard`; a running pass
that goes on ends without a continuation. -/
def dropHalf (n : Nat) (hard : Bool) (h : Half) : Half :=
  let h := match h.next with
    | some r => if r.ctx = n then h.dropNext else h
    | none => h
  let h := { h with waiting := h.waiting.filter (fun l => l.all (fun r => r.ctx != n)),
                    rerun := h.rerun.filter (fun r => r.ctx != n) }
  if halfLoses h n hard then h.cleared
  else if halfRuns h n then { h with run := h.run.map (fun r => { r with dead := true }) }
  else h

/-- Stop a slice on one engine: its slot ends, its unstarted work goes, its queue entries are freed (04 R106, 06
R137). -/
def stopOn (n : Nat) (hard : Bool) (e : Nat) (w : Work) : Work :=
  let w := freeEntries e n w
  let lost := ((halves (engineOf w.toBlk e)).filter (fun h => halfLoses h n hard)).length
  let w := doIf (decide (0 < lost)) (quadAdd (quadOf e) 0x24 lost) w
  let chain := match (engineOf w.toBlk e).vec.running with
    | some r => r.req.ctx == n && hard
    | none => false
  modEngine e (fun g =>
    let fresh : Slot := { Slot.idle with ctx := n }
    { g with slots := g.slots.map (fun s => if s.live && s.ctx == n then fresh else s), h0 := dropHalf n hard g.h0,
             h1 := dropHalf n hard g.h1, vec.issued := g.vec.issued.filter (fun c => c.ctx != n),
             vec.running := if chain then none else g.vec.running }) w

/-- Remove a context's waiters everywhere. -/
def dropWaiters (n : Nat) (w : Work) : Work :=
  let drop := fun (_ : Nat) (o : Option SyncObj) =>
    o.map (fun s => { s with waiters := s.waiters.filter (fun x => x.ctx != n), freed := s.freed.filter (fun x => x.ctx != n) })
  { w with syncs := tabMap none drop w.syncs }

/-! ## Content on output streams (10 R242, R243) -/

def outOf (b : Blk) (s : Nat) : OutStream := tabGet OutStream.idle b.res.outs s
def modOut (s : Nat) (f : OutStream → OutStream) (w : Work) : Work :=
  { w with res.outs := tabMod OutStream.idle w.res.outs s f }

/-- The enabled result streams that a context delivers to. -/
def streamsFor (b : Blk) (n : Nat) : List Nat :=
  (List.range 64).filter (fun s => odGet b (0x6000 + s) 2 == 1 && odGet b (0x6000 + s) 3 == 0 && odGet b (0x6000 + s) 4 == n)

/-- Withhold the content of a context's present slice that has not closed (10 R257): the record closes at the boundary
it would have closed at, for CLOSE_MODE 0 the next one (log 12). -/
def withholdDue (n : Nat) (w : Work) : Work :=
  let rel := (sliceOf w.toBlk n).rel
  let at_ := w.time.beat + 1
  let mark := fun (d : Due) => if d.rel = rel then { d with withheld := true, closeAt := some (d.closeAt.getD at_) } else d
  forAll (streamsFor w.toBlk n) (fun s w => modOut s (fun o => { o with due := o.due.map mark }) w) w

/-! ## Jobs (17 R443, R448) -/

/-- The collectives of whose job a context is a part (17 R443): it delivers the stream, consumes, or is linked to one that
does. -/
def jobsOf (b : Blk) (n : Nat) : List Nat :=
  (List.range 32).filter (fun k =>
    let kind := odGet b (0x2720 + k) 2
    let out := odGet b (0x2720 + k) 5
    let heads := (if out < 64 then [odGet b (0x6000 + out) 4] else []) ++ [odGet b (0x2720 + k) 6]
    kind != 0 && heads.any (fun j => decide (j < 1024) && linked b n j))

/-- A slice of a job context that is stopped or withheld aborts its jobs in the control flit of the next beat. -/
def noteAbort (n : Nat) (w : Work) : Work :=
  if odGet w.toBlk 0x2700 4 = 2 then
    { w with casc.abortOut := (jobsOf w.toBlk n).foldl (fun m k => setBit m k true) w.casc.abortOut }
  else w

/-- Stop a slice wherever it has work, on the engines of its placement and on those that took its passes (04 R106);
`hard` abandons its running passes and chains too (16 R416). Its results are withheld. -/
def stopSlice (n : Nat) (hard : Bool) (w : Work) : Work :=
  let w := forAll (w.engines.map (·.1)) (stopOn n hard) w
  let w := { w with tileq := tabMap [] (fun _ q => q.filter (fun r => r.ctx != n)) w.tileq }
  let w := dropWaiters n w
  let w := noteAbort n (withholdDue n w)
  modSlice n (fun s => { s with withheld := true, open_ := [], stopped := some w.time.beat }) w

/-- Withhold a slice's results (02 R37): its content and its finished-tile queue entries go (06 R137). -/
def withholdSlice (n : Nat) (w : Work) : Work :=
  let w := forAll ((ctxEngines w.toBlk n).map (·.1)) (fun e w => freeEntries e n w) w
  modSlice n (fun s => { s with withheld := true }) (noteAbort n (withholdDue n w))

/-- A run-time refusal (04 R106). -/
def refuseProgram (e n code : Nat) (w : Work) : Work :=
  let w := raiseBy e 3 0x018 e (n * 256 + code) w
  let w := quadAdd (quadOf e) 0x33 1 w
  let w := quadPut (quadOf e) 0x34 (n * 2 ^ 20 + e % 4 * 2 ^ 18 + code) w
  stopSlice n false w

/-- A budget overrun (02 R48): counted, reported, the slice stopped as R106 states. -/
def budgetOverrun (e n : Nat) (w : Work) : Work :=
  let w := ctxAdd n 0x52 1 w
  let w := raiseBy e 0 0x019 n e w
  stopSlice n false w

/-- Charge cycles to a slice's slot on an engine (04 R86). -/
def charge (e n c : Nat) (w : Work) : Work :=
  match slotIx w.toBlk e n with
  | some k => modSlot e k (fun s => { s with charge := s.charge + c }) w
  | none => w

def chargeOf (b : Blk) (e n : Nat) : Nat :=
  match slotIx b e n with
  | some k => (slotOf (engineOf b e) k).charge
  | none => 0

/-- Progress of a slot restarts its watchdog (16 R417). -/
def progress (e n : Nat) (w : Work) : Work :=
  match slotIx w.toBlk e n with
  | some k => modSlot e k (fun s => { s with progress := w.time.beat }) w
  | none => w

/-! ## A pass that does not finish (03 R78, R79) -/

/-- Abandon the pass and chain of a half: the accumulators go; the chain waits for its one rerun, or, when it was
already the rerun, its slice's results are withheld. A pass of a stopped slice is not rerun. -/
def abandonHalf (e : Nat) (h : Bool) (w : Work) : Work :=
  let x := halfOf (engineOf w.toBlk e) h
  match x.chain ++ (match x.run with | some r => [r.req] | none => []) with
  | [] => w
  | r :: rest =>
    let w := quadAdd (quadOf e) 0x24 1 w
    let ended := match x.run with | some p => p.dead | none => false
    if x.second then withholdSlice r.ctx (modHalf e h Half.cleared w)
    else if ended then modHalf e h Half.cleared w
    else modHalf e h (fun y => { y.cleared with waiting := y.waiting ++ [r :: rest] }) w

/-- An engine loses everything on its halves without a rerun (03 R78, R79: its quad is removed): each pass or chain in
progress is abandoned, and the results of every slice that it or a waiting rerun belongs to are withheld. -/
def loseArray (e : Nat) (w : Work) : Work :=
  let hs := halves (engineOf w.toBlk e)
  let ctxs := (hs.flatMap (fun h => (match h.run with | some r => if r.dead then [] else [r.req.ctx] | none => []) ++
    (match h.kept with | some r => [r.req.ctx] | none => []) ++ (h.rerun ++ h.waiting.flatten).map (·.ctx))).eraseDups
  let lost := (hs.filter (fun h => h.run.isSome || h.kept.isSome)).length
  let w := doIf (decide (0 < lost)) (quadAdd (quadOf e) 0x24 lost) w
  let w := forAll [false, true] (fun h w => modHalf e h (fun y => { y.cleared with waiting := [], loaded := [] }) w) w
  forAll ctxs withholdSlice w

end Sys2Proof.Machine
end

