-- ==== Sys2Proof/Machine/Net.lean ====
section
/-! DEFINITION. The data network's routes (02 R41), what counts against a declaration (02 R48), the cache part (07 R160,
R161), main memory by pools (07 R171 to R173), and the line buffer's write port (05 R110). -/

namespace Sys2Proof.Machine

/-! ## Routes -/

def quadCol (q : Nat) : Nat := q % 8
def quadRow (q : Nat) : Nat := q % 32 / 8
def quadDie (q : Nat) : Nat := q / 32
def quadAt (die row col : Nat) : Nat := 32 * die + 8 * row + col

/-- A step of `k` places towards a target. -/
def toward (a b k : Nat) : Nat := if a < b then min b (a + k) else max b (a - k)

/-- The quads a route visits: along the row first, then along the column, then across the die crossing (02 R41). The
crossing is taken at the target's place of the mesh: DEDUCED (log 11). -/
def routeQuads (a b : Nat) : List Nat :=
  let ca := quadCol a
  let cb := quadCol b
  let ra := quadRow a
  let rb := quadRow b
  let dc := max ca cb - min ca cb
  let dr := max ra rb - min ra rb
  (List.range (dc + 1)).map (fun i => quadAt (quadDie a) ra (toward ca cb i)) ++
  (List.range dr).map (fun i => quadAt (quadDie a) (toward ra rb (i + 1)) cb) ++
  (if quadDie a = quadDie b then [] else [b])

/-- The directed links of a route, each as from × 64 + to. -/
def route (a b : Nat) : List Nat :=
  let qs := routeQuads a b
  (List.zip qs (qs.drop 1)).map (fun p => p.1 * 64 + p.2)

/-- A link that crosses the dies. -/
def isCrossing (l : Nat) : Bool := quadDie (l / 64) != quadDie (l % 64)

/-- The quads of a mask. -/
def maskQuads (m : Nat) : List Nat := maskList 64 m

/-- The quads that share a mesh edge with a quad on its die (02 R50). -/
def meshNeighbours (q : Nat) : List Nat :=
  (List.range 64).filter (fun p => quadDie p == quadDie q && (route q p).length == 1)

/-! ## Use beyond a declaration (02 R48) -/

/-- How many of `k` further items lie beyond a limit. -/
def beyond (limit old k : Nat) : Nat := (old + k - limit) - (old - limit)

def countBursts (n ch k : Nat) (w : Work) : Work :=
  let old := tabGet 0 (ctxRun w.toBlk n).bursts ch
  let w := modCtx n (fun c => { c with bursts := tabSet 0 c.bursts ch (old + k) }) w
  let d := beyond (ceilDiv (activeFig w.toBlk n 3) 64) old k
  doIf (decide (0 < d)) (ctxAdd n 0x53 d) w

def countPackets (n : Nat) (links : List Nat) (k : Nat) (w : Work) : Work :=
  forAll links (fun l w =>
    let old := tabGet 0 (ctxRun w.toBlk n).packets l
    let w := modCtx n (fun c => { c with packets := tabSet 0 c.packets l (old + k) }) w
    let d := beyond (ceilDiv (activeFig w.toBlk n 4) 256) old k
    doIf (decide (0 < d)) (ctxAdd n 0x54 d) w) w

/-! ## Channels -/

def chanOf (b : Blk) (c : Nat) : Chan := tabGet Chan.idle b.chans c
def modChan (c : Nat) (f : Chan → Chan) (w : Work) : Work := { w with chans := tabMod Chan.idle w.chans c f }
def chanQuad (c : Nat) : Nat := c / 3

/-- A quad removed from service (15 R399). -/
def quadRemoved (b : Blk) (q : Nat) : Bool := quadGet b q 0xA0 == 2
def quadSuspect (b : Blk) (q : Nat) : Bool := quadGet b q 0xA0 == 1

/-- A main-memory range below the top, every channel of it on a quad that is there (07 R171). -/
def memThere (b : Blk) (a len : Nat) : Bool :=
  decide (a + len ≤ memTop b.fuses) &&
  (List.range (memChannel (a + len - 1) + 1 - memChannel a)).all (fun i => !quadRemoved b (chanQuad (memChannel a + i)))

def memberOf (b : Blk) (g n : Nat) : Bool := decide (g < 64) && (odGet b (0x4800 + g) 0xE1).testBit n

/-- A context may read a range (07 R173). -/
def memReadOk (b : Blk) (n a len : Nat) : Bool :=
  memThere b a len && match poolOf b a len with
  | none => false
  | some p => odGet b (0x2640 + p) 4 == n || memberOf b (odGet b (0x2640 + p) 5) n

def memWriteOk (b : Blk) (n a len : Nat) : Bool :=
  memThere b a len && match poolOf b a len with
  | none => false
  | some p => odGet b (0x2640 + p) 4 == n

/-- A foreground write to a burst cancels its pending write-back, on every channel that the range touches (07 R178). -/
def cancelBack (a len : Nat) (w : Work) : Work :=
  let lo := a / 64
  let hi := (a + len - 1) / 64
  forAll ((List.range (memChannel (a + len - 1) + 1 - memChannel a)).map (· + memChannel a)) (fun ch w =>
    modChan ch (fun c =>
      { c with queue := c.queue.filter (fun x => decide (x + ch * 2097152 < lo) || decide (hi < x + ch * 2097152)) }) w) w

/-- Write bytes of main memory. -/
def memStore (a : Nat) (bs : List Byte) (w : Work) : Work := cancelBack a bs.length (put a bs w)

/-! ## The cache part (07 R160, R161) -/

def cacheSets (kib : Nat) : Nat := kib * 4

/-- One 64-byte unit through the cache part: whether it hits, and the set afterwards. -/
def cacheTouch (lines : List (Nat × Nat)) (tag : Nat) : Bool × List (Nat × Nat) :=
  match lines.find? (fun l => l.2 == tag) with
  | some l => (true, l :: lines.filter (fun m => m.2 != tag))
  | none =>
    let way := if lines.length < 4 then ((List.range 4).find? (fun k => !(lines.any (fun l => l.1 == k)))).getD 0
      else (nth (0, 0) lines 3).1
    (false, (way, tag) :: lines.filter (fun l => l.1 != way))

/-- The units of a range through engine e's cache part; hits and misses are counted; the misses are the bursts. -/
def cacheRead (e a len : Nat) (w : Work) : Nat × Work :=
  let sets := cacheSets (quadGet w.toBlk (quadOf e) 0x60)
  (List.range (len / 64)).foldl (fun (p : Nat × Work) i =>
    let line := a / 64 + i
    let old := tabGet [] (engineOf p.2.toBlk e).cache (line % sets)
    let t := cacheTouch old (line / sets)
    let w := modEngine e (fun g => { g with cache := tabSet [] g.cache (line % sets) t.2 }) p.2
    if t.1 then (p.1, quadAdd (quadOf e) 0x61 1 w) else (p.1 + 1, quadAdd (quadOf e) 0x62 1 w)) (0, w)

/-- Invalidate every cache part (07 R162). -/
def cacheFlush (w : Work) : Work :=
  { w with engines := tabMap Engine.idle (fun _ g => { g with cache := [] }) w.engines }

/-- Invalidate one line everywhere, before a host write to a cacheable pool (07 R162). -/
def cacheDrop (a : Nat) (w : Work) : Work :=
  let drop := fun (e : Nat) (g : Engine) =>
    let sets := cacheSets (quadGet w.toBlk (quadOf e) 0x60)
    let key := a / 64 % sets
    let left := (tabGet [] g.cache key).filter (fun l => l.2 != a / 64 / sets)
    { g with cache := tabSet [] g.cache key left }
  { w with engines := tabMap Engine.idle drop w.engines }

/-! ## The line buffer's write port (05 R110) -/

/-- The ring whose row slots hold a unit, with the slot. -/
def ringAt (w : Work) (e u : Nat) : Option (RingRun × Nat) :=
  ((engineOf w.toBlk e).rings.find? (fun r =>
    let h := ringHeader w e r.unit
    decide (r.unit < u) && decide (u < r.unit + 1 + hRows h * hSlotUnits h))).map (fun r =>
      (r, (u - r.unit - 1) / hSlotUnits (ringHeader w e r.unit)))

def modRing (e unit : Nat) (f : RingRun → RingRun) (w : Work) : Work :=
  modEngine e (fun g => { g with rings := g.rings.map (fun r => if r.unit == unit then f r else r) }) w

/-- ROWS_IN advances over every row that is whole, in order; `fuel` rows at most. -/
def rowsAdvance (e unit : Nat) : Nat → Work → Work
  | 0, w => w
  | k + 1, w =>
    let h := ringHeader w e unit
    match (engineOf w.toBlk e).rings.find? (fun r => r.unit == unit) with
    | none => w
    | some r =>
      if hSlotUnits h ≤ tabGet 0 r.counts (hRowsIn h) then
        let w := put (lbKey e (64 * unit + 32)) (leBytes 8 (hRowsIn h + 1)) w
        rowsAdvance e unit k (modRing e unit (fun r => { r with counts := tabErase r.counts (hRowsIn h) }) w)
      else w

/-- 64 bytes that read as a whole ring header as a program writes it, the line buffer's fields at 0 (05 R107). -/
def isHeader (bs : List Byte) : Bool :=
  hVersion bs == 1 && hReservedOk bs && (bs.drop 32).all (· == 0) && decide (1 ≤ hChannels bs) &&
  decide (hChannels bs ≤ 4096) && decide (1 ≤ hImgW bs) && decide (1 ≤ hImgH bs) && decide (1 ≤ hSlotW bs) &&
  decide (1 ≤ hSlotUnits bs) && decide (hSlotUnits bs ≤ 1023) && decide (1 ≤ hRows bs) && decide (hRows bs ≤ 2047) &&
  decide (1 ≤ hGroups bs)

/-- A ring header is written at unit u: the ring restarts, and the rings whose units it takes are gone (05 R107). -/
def setRing (e u : Nat) (bs : List Byte) (w : Work) : Work :=
  let top := u + 1 + hRows bs * hSlotUnits bs
  let stays := fun (r : RingRun) =>
    let h := ringHeader w e r.unit
    decide (top ≤ r.unit) || decide (r.unit + 1 + hRows h * hSlotUnits h ≤ u)
  let w' := put (lbKey e (64 * u)) bs w
  modEngine e (fun g => { g with rings := { unit := u, counts := [] } :: g.rings.filter stays }) w'

/-- The write port takes a unit as a ring header where a ring's header stands, where no ring's slots lie, and where the
bytes read as a whole header, which sets up a new layout (DESIGN CHOICE, log 131: 05 R107 and R110 do not say how the port
tells a header from a row). -/
def headerWrite (w : Work) (e u : Nat) (bs : List Byte) : Bool :=
  (engineOf w.toBlk e).rings.any (fun r => r.unit == u) || (ringAt w e u).isNone || isHeader bs

/-- One unit of 64 bytes to a line buffer: none when the port holds it (05 R110). -/
def lbUnit (e u : Nat) (bs : List Byte) (w : Work) : Option Work :=
  if headerWrite w e u bs then some (setRing e u bs w)
  else match ringAt w e u with
  | some (r, slot) =>
    let h := ringHeader w e r.unit
    let d : Int := (slot : Int) - hRowsIn h
    let s := hRowsIn h + (d % (hRows h : Int)).toNat
    if hRetire h + hRows h ≤ s then none
    else
      let w := put (lbKey e (64 * u)) bs w
      let w := modRing e r.unit (fun r => { r with counts := tabSet 0 r.counts s (tabGet 0 r.counts s + 1) }) w
      some (rowsAdvance e r.unit (hRows h) w)
  | none => none

/-- A run of units: those written, and those that wait from the first held one on. -/
def lbUnits (e : Nat) : List (Nat × List Byte) → Work → List (Nat × List Byte) × Work
  | [], w => ([], w)
  | (u, bs) :: r, w =>
    match lbUnit e u bs w with
    | some w' => lbUnits e r w'
    | none => ((u, bs) :: r, w)

/-- Bytes at a line-buffer byte address, as units. -/
def asUnits (a : Nat) (bs : List Byte) : List (Nat × List Byte) :=
  (List.range (bs.length / 64)).map (fun i => (a / 64 + i, (bs.drop (64 * i)).take 64))

end Sys2Proof.Machine
end

