-- ==== Sys2Proof/Machine/Health.lean ====
section
/-! DEFINITION. What a fault against a unit does to the work and the results that used it: retraction (10 R256), a
suspect quad (15 R397), a removed quad (15 R399, 14 R356), and the recomputation these ask for (02 R52). -/

namespace Sys2Proof.Machine

/-! ## Results in doubt (10 R256) -/

/-- RETRACT_FROM of a stream's next record takes the earliest of its causes. -/
def retractFrom (s sq : Nat) (w : Work) : Work :=
  modOut s (fun o => { o with retract := some (seqMin sq (o.retract.getD sq)) }) w

/-- Content that a slice has delivered and that has not closed, as a result: of a slice in flight, the work goes on. -/
def Due.result (b : Blk) (n : Nat) (d : Due) : Unsettled :=
  { seq := 0, work := d.work, partners := [],
    beat := if (sliceOf b n).live && (sliceOf b n).rel == d.rel then b.time.beat else d.doneAt }

/-- A fault puts in doubt the results that satisfy a test: of every stream the lowest unconfirmed one is where its
retraction begins (R256), and held content is withheld (R257). -/
def doubt (used : Unsettled → Bool) (w : Work) : Work :=
  forAll (List.range 64) (fun s w =>
    let n := odGet w.toBlk (0x6000 + s) 4
    let held := fun (d : Due) => if d.row.isSome && used (d.result w.toBlk n) then { d with withheld := true } else d
    let w := doIf ((outOf w.toBlk s).due != []) (modOut s (fun o => { o with due := o.due.map held })) w
    match (outOf w.toBlk s).unsettled.find? used with
    | none => w
    | some u => retractFrom s u.seq w) w

/-- Results that used a quad after its clean-through beat. -/
def doubtQuad (q : Nat) (w : Work) : Work :=
  let clean := quadGet w.toBlk q 0xA1
  doubt (fun u => match tabFind u.work q with | some t => decide (clean ≤ t) | none => false) w

/-! ## Quads -/

/-- The contexts with a slice in flight that has work on a quad. -/
def liveOn (b : Blk) (q : Nat) : List Nat :=
  (b.slices.filter (fun p => p.2.live && (activeQuads b p.1).testBit q)).map (·.1)

/-- A quad becomes suspect (15 R397). -/
def makeSuspect (q : Nat) (w : Work) : Work :=
  if quadGet w.toBlk q 0xA0 ≠ 0 then w
  else
    let w := quadPut q 0xA0 1 w
    let w := quadAdd q 0xA7 1 w
    let w := modQuad q (fun r => { r with remedy := 1 }) w
    let w := forAll (liveOn w.toBlk q) (fun n w => stopSlice n false w) w
    doubtQuad q w

/-- Ask pair 2 for a recomputation (02 R52): 1 quad removed, 2 quad stepped down, 3 cascade member lost. -/
def askRecompute (cause : Nat) (w : Work) : Work :=
  let w := odPut 0x2010 2 1 w
  let w := odPut 0x2010 3 cause w
  { w with sched.recompute := some (cause, w.time.beat), sched.commitAt := none }

/-- The contexts that hold admission. -/
def admitted (b : Blk) : List Nat :=
  (List.range 1024).filter (fun n => ctxExists b.fuses n && (ctxGet b n 0x0B == 2 || ctxGet b n 0x0B == 5))

/-- Remove a quad from service (15 R399): its clock and LDO off, its channels' contents lost, its work stopped, its
contexts suspended until the recomputation. -/
def removeQuad (q cause : Nat) (w : Work) : Work :=
  if quadGet w.toBlk q 0xA0 = 2 then w
  else
    let w := forAll (liveOn w.toBlk q) (fun n w => stopSlice n true w) w
    let w := forAll (List.range 4) (fun i w => loseArray (4 * q + i) w) w
    let w := doubtQuad q w
    let w := quadPut q 0xA0 2 w
    let w := quadPut q 0x9D 0 w
    let w := modQuad q (fun r => { r with gated := true, remedy := 0, retestAt := none }) w
    let w := { w with tileq := tabErase w.tileq q, dev.quadLost := true }
    let w := odPut 0x2600 2 (odGet w.toBlk 0x2600 2 - 3) w
    let w := forAll (admitted w.toBlk) (fun n w =>
      doIf ((activeQuads w.toBlk n).testBit q && !(n == 0)) (ctxPut n 0x0B 5) w) w
    let w := raise 0x016 q cause w
    askRecompute 1 w

/-- A checksum or duplicate mismatch against a quad (15 R386, R387, R397): the fault, and the quad becomes suspect when
the rerun mismatches too or the fault is lasting. -/
def mismatch (source unit detail q : Nat) (rerun : Bool) (w : Work) : Work :=
  let lasting := wouldLast w.toBlk source unit
  let w := raise source unit detail w
  doIf (rerun || lasting) (makeSuspect q) w

/-! ## The checkers of a quad (15 R390)

Items 2 × i + h the checksum comparator of half h of engine i of the quad, 8 + i its duplicate comparator, 12 + 3 × i + j
the decoders of its scratchpad, line buffer and vector queues, 24 the droop detector, 25 the Garnet checker, 26 + j the
decoder of channel j. -/

def testMark (item : Nat) (l : List Nat) : List Nat := if l.contains item then l else item :: l

def allItems : List Nat := List.range 29

/-- The checkers of a quad that the present cycle has still to exercise; a removed quad has none. The Garnet checker is
exercised by slices, which only the active states release (DEDUCED, log 152). -/
def untested (b : Blk) (q : Nat) : List Nat :=
  if quadGet b q 0xA0 = 2 then []
  else allItems.filter (fun i => (i != 25 || activeState b) && !(quadRun b q).tested.contains i)

/-- The source that an item's checker guards, and its unit on quad q. -/
def testSource (q item : Nat) : Nat × Nat :=
  if item < 8 then (0x012, 4 * q + item / 2)
  else if item < 12 then (0x013, 4 * q + (item - 8))
  else if item < 24 then (0x030, 0x100 * ((item - 12) % 3) + 4 * q + (item - 12) / 3)
  else if item = 24 then (0x020, q)
  else if item = 25 then (0x011, q)
  else (0x041, 3 * q + (item - 26))

/-! ## Where an engine works -/

/-- Engine e can work: its compute part runs (01 R17, 16 R419), its quad is in service and its clock is open (02 R47,
15 R397). -/
def engineRuns (b : Blk) (e : Nat) : Bool :=
  activeState b && !resetting b && !(quadRun b (quadOf e)).gated && quadGet b (quadOf e) 0xA0 == 0

/-- The slices of a quad that are released and not finished. -/
def quadBusy (b : Blk) (q : Nat) : Bool :=
  b.slices.any (fun p => p.2.live && p.2.doneAt.isNone && p.2.stopped.isNone && p.1 != 0 && (activeQuads b p.1).testBit q)

end Sys2Proof.Machine
end

