-- ==== Sys2Proof/Machine/Power.lean ====
section
/-! DEFINITION. Clocks, voltage, droop, the power cap, throttling, heat, cooling and the power hold (14), and the codes of
the compute rails (18 R460). -/

namespace Sys2Proof.Machine

/-! ## Set points and rail codes (14 R357, 18 R460) -/

/-- The fused set point of a clock. -/
def fusedMv (b : Blk) (q mhz : Nat) : Nat :=
  quadGet b q (if mhz = 1000 then 0x93 else if mhz = 900 then 0x94 else if mhz = 800 then 0x95 else 0x96)

/-- VOLT_OFFSET_STEPS: the suspect-unit raise and the heavy-phase raise. -/
def offsetSteps (b : Blk) (q : Nat) : Nat := b2n (quadRun b q).raised + b2n (quadRun b q).heavy

/-- The set point of a quad at a clock with so many offset steps. -/
def setPoint (b : Blk) (q mhz steps : Nat) : Nat := min 825 (fusedMv b q mhz + 25 * steps)

/-- The quads of a die that are present and powered. -/
def dieQuads (b : Blk) (die : Nat) : List Nat :=
  (List.range 32).filterMap (fun i =>
    let q := 32 * die + i
    if q < quadCount b.fuses ∧ quadGet b q 0x9D = 1 then some q else none)

/-- The least code at least 45 mV above a set point. -/
def vidFor (mv : Nat) : Nat := ceilDiv (mv + 45 - 600) 5

/-- The clock of a quad. -/
def clockOf (b : Blk) (q : Nat) : Nat := quadGet b q 0x91

/-! ## Throttling (14 R363) -/

/-- The actions in the order of PROTECT_ORDER: 1 C1, 2 C2, 3 C3, 4 M1, 5 L1, 6 L2. -/
def throttleOrder (b : Blk) : List Nat :=
  let p := odGet b 0x2200 4
  let dom : Nat → List Nat := fun k =>
    if k = 0 then [1, 2, 2, 2, 3, 3, 3] else if k = 1 then [4] else if k = 2 then [5, 6] else []
  dom (fld p 1 0) ++ dom (fld p 3 2) ++ dom (fld p 5 4)

/-- How many times an action is in force at the present level. -/
def actionCount (b : Blk) (a : Nat) : Nat := (((throttleOrder b).take (odGet b 0x2200 8)).filter (· == a)).length

/-- C1: Elastic slices are not released; it also holds for as long as an emergency lasts in CONFIG and ADAPT (R373). -/
def elasticHeld (b : Blk) : Bool := decide (0 < actionCount b 1)

/-- An admitted Safety context, or outside SQUALL an admitted Timed one, is placed on the quad. The Garnet contexts, which
stand on every quad, protect none: DEDUCED (log 21), for C2 would otherwise name no quad. -/
def quadProtected (b : Blk) (q : Nat) : Bool :=
  (admitted b).any (fun n => !(n == 0) && !isGarnet n && (activeQuads b n).testBit q &&
    (ctxClass b n == 1 || (ctxClass b n == 2 && b.dev.state != .squall)))

/-- The clock `k` steps below 1,000 MHz. -/
def stepsDown (k : Nat) : Nat := if k = 0 then 1000 else if k = 1 then 900 else if k = 2 then 800 else 500

/-- The clock that the throttle and the retest's step ask for (14 R352, R363, R375). -/
def wantClock (b : Blk) (q : Nat) : Nat :=
  let top := (quadRun b q).cap
  if quadProtected b q then min top (max (stepsDown (actionCount b 3)) (quadRun b q).admitClock)
  else min top (stepsDown (actionCount b 2))

/-- The highest set point among a die's quads, each at the greater of its own and the one it is to rise to. -/
def dieTop (b : Blk) (die : Nat) : Nat :=
  (dieQuads b die).foldl (fun m q =>
    let steps := max (offsetSteps b q) (match b.pow.hint with
      | some h => if h.quads.testBit q ∧ b.time.beat < h.stop then b2n (quadRun b q).raised + 1 else 0
      | none => 0)
    max m (max (quadGet b q 0x92) (setPoint b q (wantClock b q) steps))) 0

/-- Give a die's rail the code its quads need. -/
def vidSet (die : Nat) (w : Work) : Work :=
  let c := vidFor (dieTop w.toBlk die)
  if c = nth 0 w.pow.vid die then w
  else { w with pow.vid := setNth w.pow.vid die c, pow.vidAt := setNth w.pow.vidAt die w.time.beat }

/-- The code on a rail's pins (18 R460). -/
def vidPins (b : Blk) (die : Nat) : Nat :=
  if dies b.fuses ≤ die then 0
  else if b.dev.state = .porst ∨ b.dev.state = .lull ∨ b.dev.state = .safe then 40
  else nth 0 b.pow.vid die

/-! ## Steps (14 R352, R360) -/

/-- A step or a lowering of the LDO has to wait for a droop. -/
def droopHolds (b : Blk) (q : Nat) : Bool :=
  (quadRun b q).droop || decide (b.time.ns < (quadRun b q).cleared + 1000 ∧ 0 < (quadRun b q).cleared)

/-- Count a deferral once. -/
def deferStep (q : Nat) (w : Work) : Work :=
  if (quadRun w.toBlk q).deferred then w else modQuad q (fun r => { r with deferred := true }) (quadAdd q 0x9C 1 w)

def setVolt (q mv : Nat) (w : Work) : Work :=
  modQuad q (fun r => { r with deferred := false, stepAt := some w.time.beat }) (quadPut q 0x92 mv w)

def setClock (q mhz : Nat) (w : Work) : Work :=
  modQuad q (fun r => { r with deferred := false, stepAt := some w.time.beat, waitFrom := none }) (quadPut q 0x91 mhz w)

/-- The quad carries a job context (17 R443). -/
def carriesJob (b : Blk) (q : Nat) : Bool := (admitted b).any (fun n => (activeQuads b n).testBit q && !(jobsOf b n).isEmpty)

/-- This member is in a collective: from a close boundary until the consumer's slice released at the arrival is complete (17
R449). -/
def inCollective (b : Blk) : Bool :=
  (List.range 32).any (fun k =>
    let c := odGet b (0x2720 + k) 6
    let lag := if odGet b (0x2720 + k) 2 = 2 then 3 else 2
    let per := max 1 (ctxGet b c 3)
    let s := sliceOf b c
    odGet b (0x2720 + k) 2 != 0 && decide (c < 1024) && ctxGet b c 0x0B == 2 &&
    ((s.live && s.doneAt.isNone && s.stopped.isNone) || decide ((ctxGet b c 0x0F % per + per - b.time.beat % per) % per ≤ lag)))

/-- A step of the throttle waits for the collective, 8 beats at most; an emergency or a power hold does not (17 R449). -/
def clockWaits (b : Blk) (q : Nat) : Bool :=
  odGet b 0x2700 4 == 2 && clockOf b q != wantClock b q && carriesJob b q && b.dev.emergency == 0 && odGet b 0x2230 2 == 0 &&
  inCollective b && (match (quadRun b q).waitFrom with | some t => decide (b.time.beat < t + 8) | none => true)

/-- One boundary of a quad's way to its clock and set point: upward the rail's code, two beats later the LDO, a beat
later the clock; downward the clock, a beat later the LDO, a beat later the code. -/
def clockStep (q : Nat) (w : Work) : Work :=
  let b := w.toBlk
  let want := wantClock b q
  let have_ := clockOf b q
  let volt := quadGet b q 0x92
  let aim := setPoint b q (max want have_) (offsetSteps b q)
  let low := setPoint b q want (offsetSteps b q)
  let die := q / 32
  if quadGet b q 0xA0 = 2 ∨ quadGet b q 0x9D = 0 ∨ w.time.ns ≠ 2000 * w.time.beat then w
  else if (quadRun b q).stepAt = some w.time.beat then w
  else if clockWaits b q then modQuad q (fun r => { r with waitFrom := some (r.waitFrom.getD b.time.beat) }) w
  else if volt < aim then
    if nth 0 w.pow.vid die < vidFor aim then vidSet die w
    else if nth 0 w.pow.vidAt die + 2 ≤ w.time.beat then setVolt q aim w
    else w
  else if have_ ≠ want then (if droopHolds b q then deferStep q w else setClock q want w)
  else if low < volt then (if droopHolds b q then deferStep q w else setVolt q low w)
  else vidSet die w

/-- A raise that takes effect at once (14 R357, R360): the rail's margin counts it already (18 R460). -/
def raiseVolt (q : Nat) (w : Work) : Work :=
  let w := quadPut q 0x97 (offsetSteps w.toBlk q) w
  setVolt q (max (quadGet w.toBlk q 0x92) (setPoint w.toBlk q (clockOf w.toBlk q) (offsetSteps w.toBlk q))) w

/-! ## Droop (14 R358, R359) -/

/-- A droop that stretches `k` eighths in the present beat. -/
def droopDetect (q k : Nat) (w : Work) : Work :=
  let w := quadAdd q 0x99 1 w
  let w := quadAdd q 0x9A k w
  let r := quadRun w.toBlk q
  let total := r.stretched + k
  let spent := r.credit < k
  let w := modQuad q (fun r => { r with droop := true, stretched := total, credit := r.credit - k,
                                        spent := r.spent || decide spent }) w
  doIf (decide spent && !r.spent) (fun w => raise 0x020 q total (quadAdd q 0x9B 1 w)) w

def droopClear (q : Nat) (w : Work) : Work :=
  if (quadRun w.toBlk q).droop then modQuad q (fun r => { r with droop := false, cleared := w.time.ns }) w else w

/-- At a boundary the credit of a quad whose clock ran is full again: a beat holds at least 1,000 cycles. -/
def droopBeat (w : Work) : Work :=
  { w with quads := tabMap QuadRun.idle (fun _ r =>
      { r with stretched := 0, spent := false, credit := if r.gated then r.credit else 64 }) w.quads }

/-! ## PLLs (14 R353) -/

def pllLost (p : Nat) (w : Work) : Work :=
  let w := odAdd 0x2202 5 1 w
  let w := { w with pow.unlocked := if w.pow.unlocked.contains p then w.pow.unlocked else p :: w.pow.unlocked }
  if p = 4 then raise 0x083 0 0 w else raise 0x026 (p / 2) (p % 2) w

/-- A PLL relocks at the exit from LULL, at the release of WARM_RST_N (both stand in BOOT), or while the compute part is
held in reset and no quad of the die has drooped for 1 µs (R360). -/
def pllRelock (p : Nat) (w : Work) : Work :=
  let calm := (dieQuads w.toBlk (p / 2)).all (fun q => !droopHolds w.toBlk q)
  let when_ := (w.dev.state == .boot && !w.dev.warm) || (p != 4 && odGet w.toBlk 0x2430 3 == 3 && calm)
  if w.pow.unlocked.contains p && when_ then
    odAdd 0x2202 4 1 { w with pow.unlocked := w.pow.unlocked.filter (· != p) }
  else w

/-! ## The cap (14 R361 to R366) -/

def capW (b : Blk) : Nat := odGet b 0x2200 2
/-- Q_MAX and Q, exact, in nanojoules: BUDGET_UJ holds the whole microjoules of Q. -/
def qMax (b : Blk) : Int := capW b * 1000000
def budget (b : Blk) : Int := sgn 32 (odGet b 0x2200 6) * 1000 + b.pow.qRest

def setBudget (q : Int) (w : Work) : Work :=
  odPut 0x2200 6 (twos 32 (q / 1000)) { w with pow.qRest := (q % 1000).toNat }

/-- Pair 1 is present (R364). -/
def pair1Here (b : Blk) : Bool :=
  odGet b 0x2511 1 == 1 && (match b.pow.fwAt with | some t => decide (b.time.beat ≤ t + 64) | none => false)

def qLow (b : Blk) : Int := if pair1Here b then -(capW b * 64000 : Int) else 0

/-- The effective level (R364, R366, R373, R374). -/
def effLevel (b : Blk) : Nat :=
  let e := b.dev.emergency
  let forced := e.testBit 0 || e.testBit 4 || (decide (e ≠ 0) && (b.dev.state == .config || b.dev.state == .adapt))
  if forced then 10
  else max (odGet b 0x2200 9) (max (if pair1Here b then odGet b 0x2200 0xA else 0) (odGet b 0x2210 7))

/-- The energy of an estimate over two beats, in nanojoules. -/
def addEnergy (mw : Nat) (w : Work) : Work :=
  let t := w.pow.rest + 4 * mw
  odAdd 0x2200 0xB (t / 1000000) { w with pow.rest := t % 1000000 }

/-- Q's update (R362), exact: P_est over two beats is 4 µs. -/
def stepBudget (mw : Nat) (w : Work) : Work :=
  let b := w.toBlk
  setBudget (max (-2147483648000) (min (qMax b) (budget b + ((capW b * 1000 : Int) - mw) * 4))) w

/-- A committed cap: Q is clamped to the new Q_MAX (R362, R367). -/
def capCommit (w : Work) : Work := setBudget (min (qMax w.toBlk) (budget w.toBlk)) w

/-- A power emergency is in force, by its own entry or by a hold (R366, R374). -/
def powerBad (b : Blk) : Bool := b.dev.emergency.testBit 0 || b.dev.emergency.testBit 4

/-- HW_LEVEL's change (R364, R366). The lowering needs 256 estimates in a row with Q at least Q_MAX / 2, none of them before
the last change (DEDUCED, log 150). -/
def stepHardware (mw : Nat) (w : Work) : Work :=
  let b := w.toBlk
  let hw := odGet b 0x2200 9
  let since := if qMax b ≤ 2 * budget b then w.pow.since + 1 else 0
  let keep := { w with pow.since := since }
  let change := fun (l : Nat) (w : Work) => odPut 0x2200 9 l (if l = hw then { w with pow.since := since } else { w with pow.since := 0 })
  if powerBad b then change 10 w
  else if odGet b 0x2200 3 * 1000 < mw then change (min 10 (hw + 1)) w
  else if budget b < qLow b ∧ capW b * 1000 < mw then change (min 10 (hw + 1)) w
  else if 256 ≤ since then change (hw - 1) w
  else keep

/-- An emergency in ADAPT abandons the adaptation steps in progress (R373). -/
def adaptAbandoned (w : Work) : Work := if w.dev.state = .adapt then { w with dev.steps := [] } else w

/-- A cause of a power emergency begins; the first one counts, and HW_LEVEL is held at 10 from now on (R366, log 168). -/
def powerEmergency (bitNo : Nat) (w : Work) : Work :=
  let w := odPut 0x2200 9 10 (doIf (!powerBad w.toBlk) (odAdd 0x2200 0xC 1) (adaptAbandoned w))
  { w with dev.emergency := setBit w.dev.emergency bitNo true, pow.full := 0 }

/-- The entry and the clearing of a power emergency (R366); the hold's cause clears in the same way once the hold has
ended (R374). -/
def stepEmergency (mw : Nat) (w : Work) : Work :=
  let b := w.toBlk
  let overs := if effLevel b = 10 ∧ budget b < qLow b ∧ capW b * 1000 < mw then w.pow.overs + 1 else 0
  let full := if budget b = qMax b then w.pow.full + 1 else 0
  let w := { w with pow.overs := overs, pow.full := full }
  let w := doIf (decide (64 ≤ overs) && !w.dev.emergency.testBit 0) (powerEmergency 0) w
  if 512 ≤ w.pow.full then
    let e := setBit w.dev.emergency 0 false
    { w with dev.emergency := if odGet w.toBlk 0x2230 2 = 1 then e else setBit e 4 false }
  else w

/-! ## Heat (14 R369, R370) -/

/-- A sensor reading in quarter degrees as a REAL32. -/
def quarterF (t : Int) : Nat := fRound false t (-2)

/-- The sensors that are there: quads, then the hub's four. -/
def sensorThere (b : Blk) (s : Nat) : Bool := decide (s < quadCount b.fuses) || (decide (64 ≤ s) && decide (s < 68))

/-- The highest reading and the first sensor that shows it. -/
def hottest (l : List (Nat × Int)) : Option (Nat × Int) :=
  l.foldl (fun m p => match m with
    | none => some p
    | some (s, t) => if t < p.2 then some p else some (s, t)) none

/-- Count a thermal emergency when its first cause begins. -/
def thermalCause (bitNo : Nat) (w : Work) : Work :=
  if w.dev.emergency.testBit bitNo then w
  else
    let w := doIf (fld w.dev.emergency 3 1 == 0) (odAdd 0x2210 8 1) (adaptAbandoned w)
    { w with dev.emergency := setBit w.dev.emergency bitNo true, pow.calm := 0 }

/-- THERMAL_LEVEL's walk: quarter degrees of the hottest sensor. -/
def stepThermal (t : Int) (w : Work) : Work :=
  let thr := 4 * sgn 8 (odGet w.toBlk 0x2210 2)
  let lev := odGet w.toBlk 0x2210 7
  let up := if thr ≤ t then w.pow.up + 1 else 0
  let down := if t < thr - 12 then w.pow.down + 1 else 0
  let w := { w with pow.up := up % 64, pow.down := down % 256 }
  if up = 64 then odPut 0x2210 7 (min 10 (lev + 1)) w
  else if down = 256 then odPut 0x2210 7 (lev - 1) w
  else w

def adcMean (b : Blk) (c : Nat) : Nat := odGet b (0x2280 + c) 9
def adcValue (b : Blk) (c : Nat) : Nat := odGet b (0x2280 + c) 0xA

/-- The emergency causes of heat and coolant. -/
def stepCoolant (t : Int) (w : Work) : Work :=
  let b := w.toBlk
  let lim := 4 * sgn 8 (odGet b 0x2210 3)
  let inletHigh := !fIsNaN (adcValue b 1) && fLt 0x428C0000 (adcValue b 1)
  let flowMin := odGet b 0x2210 0xA
  let flowLow := !fIsZero flowMin && !fIsNaN (adcValue b 3) && fLt (adcValue b 3) flowMin
  let hot := if lim ≤ t then w.pow.hot + 1 else 0
  let inl := if inletHigh then w.pow.inlet + 1 else 0
  let flo := if flowLow then w.pow.flow + 1 else 0
  let calm := if t < lim - 20 ∧ inletHigh = false ∧ flowLow = false then w.pow.calm + 1 else 0
  let w := { w with pow.hot := hot, pow.inlet := inl, pow.flow := flo, pow.calm := calm }
  let w := doIf (decide (4 ≤ hot)) (thermalCause 1) w
  let w := doIf (inl == 256) (fun w => thermalCause 2 (raise 0x0A0 0 (adcMean b 1) w)) w
  let w := doIf (flo == 256) (fun w => thermalCause 3 (raise 0x0A1 0 (adcMean b 3) w)) w
  if 512 ≤ w.pow.calm then { w with dev.emergency := setFld w.dev.emergency 3 1 0 } else w

/-- The trip of one sensor. -/
def stepTrip (s : Nat) (t : Int) (w : Work) : Work :=
  let k := if 4 * sgn 8 (odGet w.toBlk 0x2210 4) ≤ t then tabGet 0 w.pow.trips s + 1 else 0
  let w := { w with pow.trips := tabSet 0 w.pow.trips s k }
  doIf (k == 4) (raise 0x0A2 s 0) w

/-- The states in which the hub is powered and out of the boot ROM. -/
def hubRuns (b : Blk) : Bool := servedState b

/-- An estimate (14 R361 to R370): P_est in milliwatts and the sensors' readings in quarter degrees, as the estimator and
the sensors give them. It is made once at an even boundary. -/
def powerEstimate (mw : Nat) (temps : List (Nat × Int)) (w : Work) : Work :=
  if w.time.beat % 2 = 1 ∨ w.time.ns ≠ 2000 * w.time.beat ∨ w.pow.lastEst = some w.time.beat ∨ hubRuns w.toBlk = false then w
  else
    let w := { w with pow.lastEst := some w.time.beat }
    let w := addEnergy mw (odPut 0x2200 5 mw w)
    let seen := temps.filter (fun p => sensorThere w.toBlk p.1)
    let w := forAll seen (fun p w => doIf (decide (p.1 < 64)) (quadPut p.1 0x90 (quarterF p.2)) w) w
    let w := stepBudget mw w
    let w := stepHardware mw w
    let w := match hottest seen with
      | none => w
      | some (s, t) =>
        let w := odPut 0x2210 5 (quarterF t) w
        let w := odPut 0x2210 6 s w
        stepCoolant t (stepThermal t w)
    let w := forAll seen (fun p w => stepTrip p.1 p.2 w) w
    let w := stepEmergency mw w
    odPut 0x2200 8 (effLevel w.toBlk) w

/-- Pair 1's write of FW_LEVEL, at an even boundary (14 R365). -/
def fwLevelWrite (l : Nat) (w : Work) : Work :=
  if w.time.beat % 2 = 1 ∨ odGet w.toBlk 0x2511 1 ≠ 1 then w
  else { odPut 0x2200 0xA l w with pow.fwAt := some w.time.beat }

/-! ## Heavy phases (14 R368) -/

/-- The quads a hint names. -/
def hintQuads (b : Blk) (m : Nat) : Nat := if m = 0 then 2 ^ quadCount b.fuses - 1 else m

/-- The quads lose the heavy-phase raise. -/
def loseHeavy (w : Work) : Work :=
  forAll ((List.range 64).filter (fun q => (quadRun w.toBlk q).heavy)) (fun q w =>
    let w := modQuad q (fun r => { r with heavy := false, stepAt := none }) w
    clockStep q (quadPut q 0x97 (offsetSteps w.toBlk q) w)) w

/-- A hint of 56 bytes: the completion's status, and the hint taken. The phase of a hint that it replaces is over. -/
def hint (args : List Byte) (w : Work) : Nat × Work :=
  let ahead := leAt args 2 2
  let dur := leAt args 4 4
  let watts := leAt args 8 2
  if leAt args 1 1 ≠ 0 ∨ leAt args 10 6 ≠ 0 ∨ leNat ((args.drop 24).take 32) ≠ 0 ∨ leAt args 0 1 ≠ 1 then (1, w)
  else if ahead < 8 ∨ 4096 < ahead ∨ dur < 1 ∨ 65536 < dur ∨ odGet w.toBlk 0x2200 3 < watts then (3, w)
  else if (w.dev.state ≠ .run ∧ w.dev.state ≠ .adapt) ∨ pair1Here w.toBlk = false then (4, odAdd 0x2200 0xE 1 w)
  else
    let start := w.time.beat + ahead
    let w := odAdd 0x2200 0xD 1 w
    let quads := Nat.land (hintQuads w.toBlk (leAt args 16 8)) (2 ^ quadCount w.fuses - 1)
    let w := loseHeavy { w with pow.hint := some { start, stop := start + dur, quads } }
    (0, (List.range (dies w.fuses)).foldl (fun w d => vidSet d w) w)

/-- Two beats before the phase the quads take the raise. -/
def heavyRaise (w : Work) : Work :=
  match w.pow.hint with
  | none => w
  | some h =>
    if h.start ≤ w.time.beat + 2 ∧ w.time.beat < h.stop then
      forAll ((maskQuads h.quads).filter (fun q => quadGet w.toBlk q 0xA0 != 2 && !(quadRun w.toBlk q).heavy)) (fun q w =>
        raiseVolt q (modQuad q (fun r => { r with heavy := true }) w)) w
    else w

/-- At the first boundary after the phase they lose it. -/
def heavyEnd (w : Work) : Work :=
  match w.pow.hint with
  | none => w
  | some h =>
    if h.stop < w.time.beat then { loseHeavy w with pow.hint := none } else w

/-! ## Cooling (14 R371) -/

/-- min + (x − t0) × slope, clamped to min … 1,024 and rounded to nearest; x a REAL32. -/
def coolLaw (x : Nat) (min_ slope : Nat) (t0 : Int) : Nat :=
  if fIsSpecial x then 1024
  else
    let v := fpVal fp32 x
    let y := dyAdd (v.1 * slope, v.2) ((min_ : Int) - t0 * slope, 0)
    if y.1 < 0 then min min_ 1024 else max (min min_ 1024) (min 1024 (rneNat y.1.toNat y.2))

/-- Both duties, every 500 beats (R371). -/
def coolingUpdate (w : Work) : Work :=
  if w.time.beat % 500 ≠ 0 ∨ w.dev.state = .porst then w
  else
    let b := w.toBlk
    let forced := !w.pow.coolOn || (w.dev.state != .lull && (fld w.dev.emergency 3 1 != 0 || fIsNaN (adcValue b 2) ||
      w.dev.state == .boot || w.dev.state == .safe))
    let pump := if forced then 1024 else if w.dev.state = .lull then odGet b 0x2220 9
      else coolLaw (odGet b 0x2210 5) (odGet b 0x2220 3) (odGet b 0x2220 5) (sgn 8 (odGet b 0x2220 4))
    let valve := if forced ∨ w.dev.state = .lull then 1024
      else coolLaw (adcValue b 2) (odGet b 0x2220 6) (odGet b 0x2220 8) (sgn 8 (odGet b 0x2220 7))
    odPut 0x2290 3 pump (odPut 0x2291 3 valve (odPut 0x2220 0xA (b2n forced) w))

/-- A PWM period begins with the present frequency and duty (11 R292). -/
def pwmPeriod (p : Nat) (w : Work) : Work :=
  if clockRuns w.toBlk = false then w
  else
    let period := rneRatio 25000000 (odGet w.toBlk (0x2290 + p) 2)
    let on := rneRatio (odGet w.toBlk (0x2290 + p) 3 * period) 1024
    odAdd (0x2290 + p) 4 1 { w with pow.pwm := setNth w.pow.pwm p (period, on) }

/-! ## The power hold (14 R374) -/

/-- A power-fail event at device time h: one hold, from the earlier event. -/
def powerFail (h : Nat) (w : Work) : Work :=
  let w := odAdd 0x2230 3 1 w
  let st := w.dev.state
  if (st = .config ∨ st = .run ∨ st = .adapt ∨ st = .squall) ∧ odGet w.toBlk 0x2230 2 = 0 ∧ w.pow.holdDue = none then
    { w with pow.holdDue := some h }
  else w

/-- The event that held has gone. -/
def powerBack (w : Work) : Work :=
  if w.pow.pfw ∨ w.pow.netLow then w else odPut 0x2230 2 0 { w with pow.holdAt := none }

/-- The first boundary after the event begins the hold. -/
def holdBegin (w : Work) : Work :=
  match w.pow.holdDue with
  | none => w
  | some h =>
    let st := w.dev.state
    let w := { w with pow.holdDue := none }
    if st = .config ∨ st = .run ∨ st = .adapt ∨ st = .squall then
      let w := odPut 0x2230 4 h (odPut 0x2230 2 1 { w with pow.holdAt := some w.time.beat })
      let w := if w.dev.emergency.testBit 4 then { w with pow.full := 0 } else powerEmergency 4 w
      powerBack (odPut 0x2200 8 (effLevel w.toBlk) w)
    else w

/-- A hold still asserted after 500 beats. -/
def holdExpire (w : Work) : Work :=
  match w.pow.holdAt with
  | some t => if t + 500 ≤ w.time.beat then raise 0x0A3 0 0 { w with pow.holdAt := none } else w
  | none => w

/-- The grade has a quad, and a PLL: two on each die and the hub's (00 R3, R353). -/
def isQuad (q : Nat) (s : State) : Bool := decide (q < quadCount s.blk.fuses)
def pllThere (p : Nat) (s : State) : Bool := p == 4 || decide (p < 2 * dies s.blk.fuses)

end Sys2Proof.Machine
end

