-- ==== Sys2Proof/Machine/Time.lean ====
section
/-! DEFINITION. Network time, triggers, conditioned inputs and the monitoring ADC (11). -/

namespace Sys2Proof.Machine

/-! ## The map (11 R273) -/

/-- Forward: network time of a device time. -/
def mapNet (t : TimeBase) (x : Int) : Int := t.n0 + (x - t.t0) + (x - t.t0) * t.rate / 2 ^ 40

/-- Inverse: device time of a network time. -/
def mapDev (t : TimeBase) (n : Int) : Int := t.t0 + (n - t.n0) * 2 ^ 40 / (2 ^ 40 + t.rate)

/-- A map takes effect. -/
def setMap (t0 : Nat) (n0 rate : Int) (w : Work) : Work :=
  { w with time := { w.time with t0 := t0, n0 := n0, rate := rate, gen := (w.time.gen + 1) % 2 ^ 32 } }

/-- A map is in force: one has been formed since power-up or MAP_RESET (R274). -/
def hasMap (t : TimeBase) : Bool := decide (t.gen ≠ 0) && !(t.sync == 0 && t.stepOk)

/-- The map that waits takes effect at the first boundary after what asked for it (R273, R275), the grandmaster's own with its
state (R274); that of a cascade's master two beats later, on every member (17 R437). -/
def mapUpdate (w : Work) : Work :=
  match w.time.newMap with
  | none => w
  | some m =>
    if w.time.ns ≠ 2000 * w.time.beat ∨ w.time.beat < m.due then w
    else
      let t : Int := w.time.ns
      let n0 := match m.first with
        | some (ti, ni) => ni + (t - ti) + (t - ti) * m.rate / 2 ^ 40
        | none => mapNet w.time t + m.delta
      let map : Nat × Int × Int := match m.own with | some n => (0, n, 0) | none => (w.time.ns, n0, m.rate)
      let w := { w with time.newMap := none, time.sync := if m.own.isSome then 5 else w.time.sync }
      if odGet w.toBlk 0x2700 4 = 2 then
        { w with casc.map := some (w.time.beat + 2, map.1, map.2.1, map.2.2, (w.time.gen + 1) % 2 ^ 32) }
      else setMap map.1 map.2.1 map.2.2 w

/-! ## The servo (11 R275, R276) -/

/-- Rounded to nearest, ties to even, of a quotient of integers. -/
def rneInt (a : Int) (b : Nat) : Int := if a < 0 then -(rneRatio a.natAbs b : Int) else rneRatio a.natAbs b

/-- RATE between two samples. -/
def servoRate (i j : Sample) : Int :=
  let d : Int := (i.dev : Int) - j.dev
  if d ≤ 0 then 0 else clampInt (-2147483648) 2147483647 (rneInt ((i.net - j.net - d) * 2 ^ 40) d.toNat)

/-- The port a network-time fault names. -/
def timePort (b : Blk) : Nat := odGet b 0x2101 3

/-- HOLDOVER begins, unless it is the state already. -/
def holdover (w : Work) : Work :=
  { w with time.sync := 4, time.holdoverFrom := if w.time.sync = 4 then w.time.holdoverFrom else w.time.ns }

/-- A sample that the servo accepts: `st` is the locked state its source leads to. The first sample keeps RATE at 0, and where
no map has been formed it sets the map outright. -/
def acceptSample (st : Nat) (i : Sample) (e : Int) (w : Work) : Work :=
  let t := w.time
  let first := decide (t.samples = []) && t.stepOk
  let list := ((i :: t.samples).take 8)
  let rate := if t.samples = [] then 0 else servoRate i (nth i list (list.length - 1))
  let good := if e.natAbs ≤ 1000 then t.good + 1 else 0
  let delta := if t.stepOk then e else clampInt (-1000) 1000 e
  let newMap : NewMap := { due := t.beat + 1, delta, rate, first := if first then some (i.dev, i.net) else none, own := none }
  let locks := decide (8 ≤ good) && decide (t.sync ≤ 1)
  let back := decide (t.sync = 4)
  let sync := if locks || back then st else if t.sync = 0 then 1 else t.sync
  odAdd 0x2101 9 1 { w with time := { t with samples := list, newMap := some newMap, good := good, bad := 0,
                                             lastSample := i.dev, sync := sync,
                                             stepOk := t.stepOk && !(locks || back) } }

/-- A sample (R275): rejected beyond 10 ms once the map no longer steps. Before a map is formed there is none to form e with:
its value is one that the spec does not state (log 147). -/
def servoSample (st : Nat) (i : Sample) (w : Work) : Work :=
  let (k, w) := takeFree w
  let e : Int := if w.time.samples = [] ∧ w.time.stepOk = true then sgn 32 (Config.freeValue k % 2 ^ 32) else i.net - mapNet w.time i.dev
  let w := odPut 0x2100 8 (twos 32 (clampInt (-2147483648) 2147483647 e)) w
  if w.time.stepOk = false ∧ 10000000 < e.natAbs then
    let bad := w.time.bad + 1
    let w := odAdd 0x2101 0xA 1 { w with time.bad := bad, time.good := 0 }
    if bad = 3 then
      raise 0x090 (timePort w.toBlk) 0 { holdover w with time.bad := 0 }
    else w
  else acceptSample st i e w

/-- The sync interval in nanoseconds. -/
def syncInterval (b : Blk) : Nat := 1000000000 / 2 ^ (-(sgn 8 (odGet b 0x2101 5))).toNat

/-- No accepted sample for three intervals, or for 3 s with PPS (R276). -/
def syncTimeout (w : Work) : Work :=
  let lim := if w.time.sync = 3 then 3000000000 else 3 * syncInterval w.toBlk
  if (w.time.sync = 2 ∨ w.time.sync = 3) ∧ w.time.lastSample + lim ≤ w.time.ns then
    raise 0x091 (timePort w.toBlk) 0 (holdover w)
  else w

/-- A cascade member whose master's map still arrives: its state is the master's (17 R437). -/
def mapArrives (b : Blk) : Bool :=
  odGet b 0x2700 4 == 2 && odGet b 0x2700 2 % 4 != 0 && decide (b.time.ns < b.time.lastSample + 3 * syncInterval b)

/-- After HOLDOVER_LIMIT_S the state becomes NONE (R276). -/
def holdoverExpire (w : Work) : Work :=
  if mapArrives w.toBlk = false ∧ w.time.sync = 4 ∧ w.time.holdoverFrom + odGet w.toBlk 0x2100 0xD * 1000000000 ≤ w.time.ns then
    { w with time := { w.time with sync := 0, samples := [], good := 0, bad := 0 } }
  else w

/-- MAP_RESET committed (R275). -/
def mapReset (w : Work) : Work :=
  { w with time := { w.time with sync := 0, samples := [], good := 0, bad := 0, newMap := none, stepOk := true } }

/-- A commit of PTP_ROLE or of GM_OFFSET_NS (R274): the grandmaster's map is its own and takes effect in step 1 of the next
boundary (R273). Once it is grandmaster no more, no map is formed. -/
def roleCommit (w : Work) : Work :=
  if odGet w.toBlk 0x2101 2 = 2 then
    { w with time.newMap := some { due := w.time.beat + 1, delta := 0, rate := 0, first := none, own := some (odGet w.toBlk 0x2101 8) } }
  else if w.time.sync = 5 ∨ (w.time.newMap.bind (·.own)).isSome then mapReset w
  else w

/-! ## 802.1AS messages (11 R277) -/

/-- The ports work: the hub is powered and its clock runs. -/
def ptpRuns (b : Blk) : Bool := b.dev.state != .lull && clockRuns b

/-- A message of the slave port's domain, to a follower. -/
def follows (b : Blk) (port domain : Nat) : Bool :=
  ptpRuns b && odGet b 0x2101 2 == 1 && port == odGet b 0x2101 3 && domain == 0

def gptpSync (port domain seq t : Nat) (w : Work) : Work :=
  if follows w.toBlk port domain then { atTime t w with time.openSync := some (seq, moment t w) } else w

def gptpFollowUp (port domain seq : Nat) (origin corr : Int) (w : Work) : Work :=
  match w.time.openSync with
  | some (s, t) =>
    if follows w.toBlk port domain ∧ s = seq then
      let delay : Int := if odGet w.toBlk 0x2101 6 = 1 then (odGet w.toBlk 0x2101 7 : Int) else w.time.pathDelay
      servoSample 2 { dev := t, net := origin + corr + delay } { w with time.openSync := none }
    else w
  | none => w

/-- A completed exchange of peer delay messages: half of what the link adds both ways. -/
def gptpPdelay (port : Nat) (t1 t2 t3 t4 : Int) (w : Work) : Work :=
  if follows w.toBlk port 0 then { w with time.pathDelay := ((t4 - t1) - (t3 - t2)) / 2 } else w

/-- The device sends on a port of its own as grandmaster. -/
def sends (b : Blk) (port : Nat) : Bool := ptpRuns b && odGet b 0x2101 2 == 2 && (odGet b 0x2101 4).testBit port

/-- Sync, and its Follow_Up with the precise time, at each interval of a master port. -/
def gptpSyncSend (port t : Nat) (w : Work) : Work :=
  let at_ := moment t w
  let w := atTime t w
  if sends w.toBlk port = false then w
  else if (match tabFind w.pins.syncSent port with | some l => decide (at_ < l + syncInterval w.toBlk) | none => false) then w
  else
    let w := { w with pins.syncSent := tabInsert w.pins.syncSent port at_ }
    let n := (mapNet w.time at_).toNat
    send (.ether port 2 (leBytes 8 n)) (send (.ether port 1 []) w)

def gptpAnnounceSend (port t : Nat) (w : Work) : Work :=
  let at_ := moment t w
  let w := atTime t w
  if sends w.toBlk port then send (.ether port 3 []) { w with pins.annSent := tabInsert w.pins.annSent port at_ } else w

/-! ## Triggers and PPS_OUT (11 R280, R281) -/

def trigOf (b : Blk) (k : Nat) : Trig := tabGet Trig.idle b.pins.trigs k
def modTrig (k : Nat) (f : Trig → Trig) (w : Work) : Work :=
  { w with pins.trigs := tabMod Trig.idle w.pins.trigs k f }

/-- The first REFCLK edge at or after a device time. -/
def refEdge (t : Nat) : Nat := ceilDiv t 40 * 40

/-- A trigger runs in network time; PPS_OUT (32) always does. -/
def trigNet (b : Blk) (k : Nat) : Bool := k == 32 || odGet b (0x2120 + k) 3 == 1

/-- The period in units of 2⁻¹⁶ ns, and the phase. -/
def trigStep (b : Blk) (k : Nat) : Nat :=
  if k = 32 then 1000000000 * 65536 else odGet b (0x2120 + k) 4 * 65536 + odGet b (0x2120 + k) 5
def trigPhase (b : Blk) (k : Nat) : Nat := if k = 32 then 0 else odGet b (0x2120 + k) 6
def trigWidth (b : Blk) (k : Nat) : Nat := if k = 32 then odGet b 0x2102 4 else odGet b (0x2120 + k) 7
def trigOn (b : Blk) (k : Nat) : Bool :=
  (if k = 32 then odGet b 0x2102 3 == 1 else odGet b (0x2120 + k) 2 == 1) && b.dev.state != .lull && clockRuns b

/-- E_i. -/
def trigEdge (b : Blk) (k i : Nat) : Nat := trigPhase b k + i * trigStep b k / 65536

/-- A commit that enables or disables an output. -/
def trigCommit (k : Nat) (w : Work) : Work :=
  if (if k = 32 then odGet w.toBlk 0x2102 3 == 1 else odGet w.toBlk (0x2120 + k) 2 == 1) then
    modTrig k (fun t => match t.since with | some _ => t | none => { t with since := some w.time.ns, next := none }) w
  else modTrig k (fun t => { t with since := none, next := none, sched := none }) w

/-- A commit that changes the edges of an output that is enabled: it starts anew under the start rule (DESIGN CHOICE, log 173). -/
def trigAnew (k : Nat) (w : Work) : Work :=
  modTrig k (fun t => match t.since with
    | some _ => { t with since := some w.time.ns, next := none, sched := none }
    | none => t) w

/-- The first edge (R281). -/
def trigStart (k : Nat) (w : Work) : Work :=
  let t := trigOf w.toBlk k
  match t.since with
  | none => w
  | some c =>
    let ok := !trigNet w.toBlk k || w.time.sync == 2 || w.time.sync == 3 || w.time.sync == 5
    if trigOn w.toBlk k = false ∨ t.next.isSome = true ∨ ok = false then w
    else
      let x : Int := if trigNet w.toBlk k then mapNet w.time (max c w.time.ns : Nat) else (c : Int)
      let from_ := ((x + 4000 - trigPhase w.toBlk k) * 65536).toNat
      modTrig k (fun t => { t with next := some (ceilDiv from_ (trigStep w.toBlk k)) }) w

/-- Two beats before the edge its time is converted to device time (R280). -/
def trigSchedule (k : Nat) (w : Work) : Work :=
  let t := trigOf w.toBlk k
  match t.next with
  | none => w
  | some i =>
    let e := trigEdge w.toBlk k i
    let d := refEdge (if trigNet w.toBlk k then (mapDev w.time e).toNat else e)
    let runs := k != 32 || (decide (2 ≤ w.time.sync) && decide (w.time.sync ≤ 5))
    if t.sched.isSome = true ∨ trigOn w.toBlk k = false ∨ w.time.beat + 2 < d / 2000 then w
    else if runs = false then modTrig k (fun t => { t with next := some (i + 1) }) w
    else modTrig k (fun t => { t with sched := some d }) w

/-- The scheduled edge is driven (R280). -/
def trigDrive (k : Nat) (w : Work) : Work :=
  let t := trigOf w.toBlk k
  match t.sched with
  | none => w
  | some d =>
    if w.time.beat < d / 2000 ∨ trigOn w.toBlk k = false then w
    else
      let w := modTrig k (fun t => { t with sched := none, next := t.next.map (· + 1),
                                            until_ := some (refEdge (d + trigWidth w.toBlk k)) }) (atTime d w)
      if k = 32 then w else odAdd (0x2120 + k) 9 1 (odPut (0x2120 + k) 0xA d w)

/-- The pulse ends at its width. -/
def trigEnd (k t : Nat) (w : Work) : Work :=
  let at_ := moment t w
  let w := atTime t w
  match (trigOf w.toBlk k).until_ with
  | some e => if e ≤ at_ then modTrig k (fun t => { t with until_ := none }) w else w
  | none => w

/-- The level on a trigger output's pin: active high or low by POLARITY (R282). -/
def trigPin (b : Blk) (k : Nat) : Bool :=
  let active := (trigOf b k).until_.isSome && b.dev.state != .lull
  if k = 32 then active else active != (odGet b (0x2120 + k) 8 == 1)

/-- At the entry to LULL the outputs go inactive; an enabled one starts anew after it (R281). -/
def trigsLull (w : Work) : Work :=
  { w with pins.trigs := tabMap Trig.idle (fun _ t => { t with next := none, sched := none, until_ := none }) w.pins.trigs }

/-! ## Conditioned inputs (11 R283 to R286) -/

def inputOf (b : Blk) (i : Nat) : Input := tabGet Input.idle b.pins.inputs i
def modInput (i : Nat) (f : Input → Input) (w : Work) : Work :=
  { w with pins.inputs := tabMod Input.idle w.pins.inputs i f }

/-- The active reading of a pin level. -/
def activeLevel (b : Blk) (i : Nat) (lv : Bool) : Bool := lv != (odGet b (0x2140 + i) 3 == 1)

/-- CAP_IN15 in the stationary role. -/
def stationaryRole (b : Blk) (i : Nat) : Bool := i == 15 && odGet b 0x214F 8 == 1

/-- Inputs whose level counts: WAKE, ERR_IN_N, PFW_N and CAP_IN15 in the stationary role. -/
def isLevel (b : Blk) (i : Nat) : Bool := decide (17 ≤ i) || stationaryRole b i

def inputOn (b : Blk) (i : Nat) : Bool := odGet b (0x2140 + i) 2 == 1

/-- Both conditions of 01 R25 show stationary. -/
def stationary (b : Blk) : Bool :=
  stationaryRole b 15 && inputOn b 15 && (inputOf b 15).reported && !(inputOf b 15).stuck && odGet b 0x2003 1 == 1

/-- A device whose start-up checks have failed stays in CONFIG (15 R389; DEDUCED, log 151: no request leaves it). -/
def mayLeaveConfig (b : Blk) : Bool := odGet b 0x2300 5 != 3

/-- What a PPS_IN edge does (11 R277): its offset, and a sample where PPS is used. Without a seconds count or a map the
offset is a value the spec does not state. -/
def ppsEdge (t : Nat) (w : Work) : Work :=
  match w.time.ppsSeconds with
  | none => let (v, w) := takeFree w; odPut 0x2100 0xC (Config.freeValue v) w
  | some s =>
    let n : Int := s * 1000000000
    let w := { w with time.ppsSeconds := some (s + 1) }
    let e := clampInt (-2147483648) 2147483647 (n - mapNet w.time t)
    let w := if hasMap w.time = false then (let (v, w) := takeFree w; odPut 0x2100 0xC (Config.freeValue v) w)
      else odPut 0x2100 0xC (twos 32 e) w
    if odGet w.toBlk 0x2101 2 ≠ 1 ∧ odGet w.toBlk 0x2101 2 ≠ 2 ∧ odGet w.toBlk 0x2102 1 = 1 then
      servoSample 3 { dev := t, net := n } w
    else w

/-- The level that WAKE and PFW_N show outside the conditioning. -/
def inputLevel (i : Nat) (active : Bool) (w : Work) : Work :=
  if i = 17 then { w with dev.wake := active }
  else if i = 19 then (if active then { w with pow.pfw := true } else powerBack { w with pow.pfw := false })
  else w

/-- What an accepted change does outside the conditioning: a PPS_IN edge, ERR_IN_N and PFW_N asserted are events. -/
def inputEffect (i : Nat) (active : Bool) (t : Nat) (w : Work) : Work :=
  let w := inputLevel i active w
  if active = false then w
  else if i = 16 then ppsEdge t w
  else if i = 18 then raise 0x095 0 0 w
  else if i = 19 then powerFail t w
  else w

/-- An event that is accepted: counted, stamped, queued by a capture (R286). -/
def acceptEvent (i : Nat) (active : Bool) (t : Nat) (w : Work) : Work :=
  let w := odPut (0x2140 + i) 0x15 t (odAdd (0x2140 + i) 0x10 1 w)
  let w := modInput i (fun x => { x with lastEvent := some t, reported := active }) w
  let queues := decide (i ≤ 15) && !stationaryRole w.toBlk i
  let w := if queues = false then w
    else if 16 ≤ (inputOf w.toBlk i).fifo.length then modInput i (fun x => { x with lost := x.lost + 1 }) w
    else modInput i (fun x => { x with fifo := x.fifo ++ [t / 2 * 2 + b2n x.level] }) w
  inputEffect i active t w

/-- An event too soon after the last one (R284). -/
def dropEvent (i : Nat) (w : Work) : Work :=
  let w := odAdd (0x2140 + i) 0x11 1 w
  let cyc := w.time.beat / 8192
  if (inputOf w.toBlk i).dropCycle = some cyc then w
  else raise 0x092 i 0 (modInput i (fun x => { x with dropCycle := some cyc }) w)

/-- Within the minimum interval of the last accepted event. -/
def tooSoon (b : Blk) (i t : Nat) : Bool :=
  match (inputOf b i).lastEvent with
  | some l => decide (t < l + odGet b (0x2140 + i) 5)
  | none => false

/-- A raw transition at device time t to a level that stood for so many samples (R283): a glitch below FILTER_SAMPLES,
otherwise the filtered level changes. No sample is taken without REFCLK. -/
def inputChange (i : Nat) (lv : Bool) (t samples : Nat) (w : Work) : Work :=
  if clockRuns w.toBlk = false then w
  else if samples < odGet w.toBlk (0x2140 + i) 4 then odAdd (0x2140 + i) 0x12 1 w
  else if (inputOf w.toBlk i).level = lv then w
  else
    let w := atTime (t + 40 * odGet w.toBlk (0x2140 + i) 4) w
    let active := activeLevel w.toBlk i lv
    let w := modInput i (fun x => { x with level := lv, raw := t, active := if active then some t else none,
                                           stuck := x.stuck && active }) w
    if inputOn w.toBlk i = false then w
    else
      let isEvent := active || odGet w.toBlk (0x2140 + i) 7 == 1
      if isEvent = false then inputEffect i active t (modInput i (fun x => { x with reported := active }) w)
      else if tooSoon w.toBlk i t then dropEvent i w
      else acceptEvent i active t w

/-- At the end of the interval a level input is sampled again (R284). -/
def intervalExpire (i t : Nat) (w : Work) : Work :=
  let at_ := moment t w
  let w := atTime t w
  let x := inputOf w.toBlk i
  let active := activeLevel w.toBlk i x.level
  if isLevel w.toBlk i = false ∨ tooSoon w.toBlk i at_ = true ∨ active = x.reported ∨ inputOn w.toBlk i = false then w
  else acceptEvent i active x.raw w

/-- An input held active for STUCK_MS (R285). -/
def inputStuck (i t : Nat) (w : Work) : Work :=
  let at_ := moment t w
  let w := atTime t w
  let x := inputOf w.toBlk i
  match x.active with
  | none => w
  | some a =>
    if x.stuck ∨ inputOn w.toBlk i = false ∨ at_ < a + odGet w.toBlk (0x2140 + i) 6 * 1000000 then w
    else raise 0x093 i 0 (odAdd (0x2140 + i) 0x13 1 (modInput i (fun x => { x with stuck := true }) w))

/-- A read of CAP_FIFO_POP (R286). -/
def capPop (c : Nat) (w : Work) : Nat × Work :=
  match (inputOf w.toBlk c).fifo with
  | [] => (0, w)
  | v :: r => (v, modInput c (fun x => { x with fifo := r }) w)

/-- A commit that changes an input's configuration resets its filter, interval and stuck timer, starting from the present
raw level (R287). -/
def inputCommit (i : Nat) (w : Work) : Work :=
  let active := activeLevel w.toBlk i (inputOf w.toBlk i).level
  inputLevel i active (modInput i (fun x => { x with lastEvent := none, stuck := false, reported := active,
                                                     active := if active then some w.time.ns else none }) w)

/-! ## The ADC (11 R288 to R290) -/

def adcOf (b : Blk) (c : Nat) : Adc := tabGet Adc.idle b.pins.adc c
def modAdc (c : Nat) (f : Adc → Adc) (w : Work) : Work := { w with pins.adc := tabMod Adc.idle w.pins.adc c f }

/-- One conversion, in every state from the release of PORST_N. -/
def adcConvert (c code : Nat) (w : Work) : Work :=
  if clockRuns w.toBlk = false then w
  else
  let w := odPut (0x2280 + c) 8 code w
  let w := modAdc c (fun a => { a with codes := (code :: a.codes).take 16 }) w
  let lim := odGet w.toBlk 0x2280 0xC
  if c ≠ 0 ∨ lim = 0 then w
  else if code < lim then modAdc 0 (fun a => { a with low := a.low + 1 }) w
  else
    let w := modAdc 0 (fun a => { a with low := 0 }) w
    if w.pow.netLow then powerBack { w with pow.netLow := false } else w

/-- The fourth low code in a row is the net-low event (R290). -/
def netLowEvent (t : Nat) (w : Work) : Work :=
  let at_ := moment t w
  let w := atTime t w
  if 4 ≤ (adcOf w.toBlk 0).low ∧ w.pow.netLow = false then powerFail at_ { w with pow.netLow := true } else w

/-- The table's points: code and value. -/
def adcPoints (t : Nat) : List (Nat × Nat) :=
  (List.range 16).map (fun i => (fld t (64 * i + 15) (64 * i), fld t (64 * i + 63) (64 * i + 32)))

/-- The interpolation between two points, exact and rounded once; a special value among them leaves it open. -/
def adcBetween (p q : Nat × Nat) (m : Nat) : Option Nat :=
  if fIsSpecial p.2 || fIsSpecial q.2 then none
  else
    let v0 := fpVal fp32 p.2
    let v1 := fpVal fp32 q.2
    let s := dyAdd (v0.1 * ((q.1 : Int) - m), v0.2) (v1.1 * ((m : Int) - p.1), v1.2)
    some (fRoundQuot (decide (s.1 < 0)) s.1.natAbs (q.1 - p.1) s.2)

/-- VALUE with KIND 0x01. -/
def adcTable (pts : List (Nat × Nat)) (m : Nat) : Option Nat :=
  let below := pts.filter (fun p => decide (p.1 ≤ m))
  let above_ := pts.filter (fun p => decide (m < p.1))
  match below.reverse, above_ with
  | [], q :: _ => some q.2
  | p :: _, [] => some p.2
  | p :: _, q :: _ => if p.1 = m then some p.2 else adcBetween p q m
  | [], [] => none

/-- At a boundary, one input's mean and value (R288, R289). Before 16 codes there is no mean of 16: a free value. -/
def adcBeat (c : Nat) (w : Work) : Work :=
  let codes := (adcOf w.toBlk c).codes
  if codes.isEmpty then w
  else
    let (mean, w) := if codes.length < 16 then (let (v, w) := takeFree w; (Config.freeValue v % 4096, w))
      else (rneRatio (codes.foldl (· + ·) 0) 16, w)
    let i := 0x2280 + c
    let w := odPut i 9 mean w
    let b := w.toBlk
    let out := decide (mean < odGet b i 6) || decide (odGet b i 7 < mean)
    let left := out && !(adcOf b c).out
    let w := modAdc c (fun a => { a with out := out }) w
    let w := doIf left (fun w => raise 0x094 c mean (odAdd i 0xB 1 w)) w
    if odGet b i 2 = 0xFF ∨ out = true then odPut i 0xA fNaN w
    else if odGet b i 2 = 0 then odPut i 0xA (fMulAdd (odGet b i 3) (fOfInt mean) (odGet b i 4)) w
    else match adcTable (adcPoints (odGet b i 5)) mean with
      | some v => odPut i 0xA v w
      | none => let (v, w) := takeFree w; odPut i 0xA (Config.freeValue v) w

/-- The time base's own step of a boundary: SYNC_STATE, and the ADC's means. -/
def timeBeat (w : Work) : Work :=
  let w := odPut 0x2100 3 w.time.sync w
  forAll (List.range 8) adcBeat w

end Sys2Proof.Machine
end

