-- ==== Sys2Proof/Machine/ObjRange.lean ====
section
/-! DEFINITION. The range check of a write (12 R297): what each object's table or rule accepts for one sub-index on its
own, and the states in which a rule locks a sub-index. -/

namespace Sys2Proof.Machine

/-- lo ≤ v ≤ hi. -/
def within (v lo hi : Nat) : Bool := decide (lo ≤ v) && decide (v ≤ hi)

/-- A clock step (02 R55). -/
def isClock (v : Nat) : Bool := v == 1000 || v == 900 || v == 800 || v == 500

/-- A conditioned input (11 R287). -/
def rangeInput (i sub v : Nat) : Bool :=
  match sub with
  | 1 => v == 1
  | 4 => within v 1 255
  | 6 => decide (1 ≤ v)
  | 7 => decide (v ≤ 1)
  | 8 => v == 0 || (v == 1 && i == 15)
  | _ => true

/-- TABLE of an ADC input: codes ascend strictly, the reserved bytes are 0 (11 R289, R291). -/
def adcTableOk (v : Nat) : Bool :=
  (List.range 16).all (fun i => fld v (64 * i + 31) (64 * i + 16) == 0) &&
  (List.range 15).all (fun i => decide (fld v (64 * i + 15) (64 * i) < fld v (64 * i + 79) (64 * i + 64)))

def rangeAdc (c sub v : Nat) : Bool :=
  match sub with
  | 1 => v == 1
  | 2 => v == 0 || v == 1 || v == 0xFF
  | 5 => adcTableOk v
  | 0xC => v == 0 || c == 0
  | _ => true

/-- SEVERITY and LASTING_SEVERITY (16 R410): per source within its minimum and 5, 0 for a reserved source. -/
def severityOk (v : Nat) : Bool :=
  (List.range 512).all (fun s =>
    let x := fld v (8 * s + 7) (8 * s)
    if faultListed s then within x (fld sevMinimum (8 * s + 7) (8 * s)) 5 else x == 0)

/-- A gate control list (12 R319): entries until one of duration 0. -/
def gclEntries (v : Nat) : List (Nat × Nat) :=
  ((List.range 8).map (fun i => (fld v (32 * i + 31) (32 * i + 24), fld v (32 * i + 23) (32 * i)))).takeWhile (fun e => e.2 != 0)
def gclCycle (v : Nat) : Nat := (gclEntries v).foldl (fun n e => n + e.2) 0

/-- MEMBERS names no absent context (12 R302). -/
def membersOk (f : Fuses) (v : Nat) : Bool := (maskList 1024 v).all (ctxExists f)

/-- PROTECT_ORDER is a permutation (14 R376). -/
def orderOk (v : Nat) : Bool :=
  decide (v < 64) && ([0, 1, 2].all (fun d => fld v 1 0 == d || fld v 3 2 == d || fld v 5 4 == d))

/-- A pixel or Ethernet stream's shared sub-indices (09 R238). -/
def rangeStream (sub v : Nat) : Bool :=
  match sub with
  | 0x10 => within v 1 65535
  | 0x15 => decide (v ≤ 1)
  | 0x17 => decide (v ≤ 3) || v == 0xFF
  | 0x1C => decide (v ≤ 3)
  | 0x1E => within v 2 4
  | 0x20 => v == 0 || v == 2 || v == 0xA
  | 0x21 => v == 1 || v == 3
  | 0x22 => decide (v ≤ 8)
  | 0x23 => v == 0 || v == 1 || v == 2 || v == 4 || v == 8
  | 0x24 => decide (v ≤ 8)
  | 0x2E => isPow2 v && decide (v ≤ 64)
  | 0x2F => v == none16 || decide (v < 8192)
  | 0x31 => within v 1 16
  | 0x32 => within v 1 1024
  | 0x35 => decide (v < 128) || v == 0xFF
  | _ => !(decide (0x25 ≤ sub) && decide (sub ≤ 0x2C)) || fld v 23 11 == 0

/-- Camera streams (09 R239): DATA_TYPE is a code of R218. -/
def rangeCamera (sub v : Nat) : Bool :=
  match sub with
  | 1 => v == 1
  | 4 => decide (v ≤ 1)
  | 5 => v == 1 || v == 2 || v == 4
  | 6 => within v 80 2500
  | 7 => decide (v ≤ 15)
  | 8 => within v 0x2A 0x2E || v == 0x1E || v == 0x24
  | 0xB => decide (v ≤ 31) || v == 0xFF
  | _ => rangeStream sub v

/-- Ethernet streams (09 R240): JXS_PROFILE is a code of R226. The ranges of LAYOUT and DECODER depend on KIND, so the commit
checks them (12 R297). -/
def rangeEther (sub v : Nat) : Bool :=
  match sub with
  | 1 => v == 1
  | 4 => decide (v ≤ 1)
  | 5 => decide (v ≤ 3)
  | 6 => decide (v < 2 ^ 48)
  | 0xA => within v 2 4
  | 0xD => decide (v ≤ 31) || v == 0xFF
  | 0xF => decide (v ≤ 5)
  | _ => rangeStream sub v

/-- A temporal slot (08 R209). What R202 checks is stored as written (12 R297). -/
def rangeSlot (sub v : Nat) : Bool :=
  match sub with
  | 1 => v == 1
  | 2 | 3 => decide (v < 1024) || v == none16
  | 5 => v == 2 || v == 0xA
  | 6 | 7 => within v 32 256
  | 8 => within v 1 32768
  | 9 => within v 1 32
  | 0xA => decide (v ≤ 4)
  | 0xB => decide (v ≤ 32)
  | 0xC => isPow2 v && decide (v ≤ 64)
  | 0xD => fLe 0 v && fLe v 0x3F800000
  | 0x17 => fld v 61 42 == 0
  | _ => true

/-- A field spec's reserved bits are 0 (09 R222). -/
def fieldSpecOk (v : Nat) : Bool := fld v 15 8 == 0 && fld v 3 1 == 0

/-- A layout (09 R225), with TIME_FIELD's WIDTH and SIGNED 0 (R222). -/
def rangeLayout (sub v : Nat) : Bool :=
  match sub with
  | 1 => v == 1
  | 2 => v == 2 || v == 4
  | 8 | 0xD => fieldSpecOk v
  | 0xA => decide (v ≤ 1)
  | 0xB => fieldSpecOk v && fld v 7 5 == 0
  | 0xC => decide (v ≤ 2)
  | _ => !(decide (0x10 ≤ sub) && decide (sub ≤ 0x17)) || fieldSpecOk v

/-- An output stream (10 R270). -/
def rangeOut (sub v : Nat) : Bool :=
  match sub with
  | 1 => v == 1
  | 3 => decide (v ≤ 1)
  | 6 => decide (v ≤ 5)
  | 7 => decide (v ≤ 65536)
  | 8 => decide (v ≤ 16)
  | 9 => decide (v ≤ 1)
  | _ => if 0xC ≤ sub ∧ sub ≤ 0x3F then v == 0 else true

/-- A collective (17 R456). -/
def rangeColl (sub v : Nat) : Bool :=
  match sub with
  | 1 => v == 1
  | 2 => decide (v ≤ 3)
  | 3 => decide (v ≤ 15)
  | 4 => decide (v ≤ 3)
  | 5 => decide (v ≤ 63) || v == 0xFF
  | 8 => decide (v < 8192) || v == none16
  | 9 => isPow2 v && decide (v ≤ 16)
  | _ => true

/-- The reserved placement fields of a declaration, and ADMIT_REQUEST (02 R34); the rest is stored as written (R297). -/
def rangeCtx (sub v : Nat) : Bool :=
  if sub = 0xA then decide (v ≤ 1)
  else if 0x16 ≤ sub ∧ sub < 0x50 ∧ 6 ≤ sub % 16 then v == 0
  else true

/-- The hub's own objects. -/
def rangeHub (b : Blk) (idx sub v : Nat) : Bool :=
  match idx with
  | 0x1017 => within v 10 1000
  | 0x2000 => sub != 2 || v == 2 || v == 3 || v == 4 || v == 7
  | 0x2001 => decide (v ≤ 1)
  | 0x2101 => (match sub with
    | 1 => v == 1
    | 2 => decide (v ≤ 2)
    | 3 => decide (v ≤ 4)
    | 4 => decide (v < 32)
    | 5 => v == 0 || within v 0xFB 0xFF
    | 6 => decide (v ≤ 1)
    | _ => true)
  | 0x2200 => (match sub with
    | 2 => within v 60 (odGet b 0x2200 3)
    | 4 => orderOk v
    | _ => true)
  | 0x2202 => sub != 2 || within v 20 60
  | 0x2210 => (match sub with
    | 2 => within v 60 108
    | 3 => decide (sgn 8 v ≤ 113)
    | _ => true)
  | 0x2220 => (match sub with
    | 1 => v == 1
    | 3 => decide (v ≤ 1024)
    | _ => true)
  | 0x2300 => sub != 9 || within v 500 50000
  | 0x2320 => (match sub with
    | 1 => v == 1
    | 5 => v % 2 == 0 && within v 5000 250000
    | 8 => within v 2 255
    | _ => true)
  | 0x2330 => (match sub with
    | 3 => v % 2 == 0
    | 6 => within v 1 32
    | 7 => within v 1 255
    | _ => true)
  | 0x2390 => (match sub with
    | 2 => let n := b.dev.nodeId
           within v 1 0x7FF && v != 0x580 + n && v != 0x600 + n && v != 0x700 + n
    | 3 => within v 250 50000
    | _ => true)
  | 0x2400 => (match sub with
    | 2 => within v 2 8
    | 3 => within v 16 1000000
    | 0xA => decide (v ≤ 5)
    | _ => true)
  | 0x2401 => severityOk v
  | 0x2420 => sub != 1 || within v 16 65535
  | 0x2430 => (match sub with
    | 1 => within v 1 16
    | 2 => within v 500000 300000000
    | _ => true)
  | 0x2540 => sub != 6 || decide (v ≤ 3)
  | 0x2800 => sub != 3 || within v 100 60000
  | 0x2801 => sub != 3 || decide (v < 32)
  | 0x6090 => sub != 1 || v == 1 || v == 2
  | _ => true

/-- An Ethernet port (12 R319). -/
def rangePort (sub v : Nat) : Bool :=
  match sub with
  | 1 => v == 1
  | 6 => decide (v < 2 ^ 48)
  | 9 => decide (v ≤ 7)
  | 0xA => gclCycle v % 2000 == 0
  | _ => true

/-- A CAN FD controller (12 R307). -/
def rangeCan (sub v : Nat) : Bool :=
  match sub with
  | 1 => v == 1
  | 3 => v == 125 || v == 250 || v == 500 || v == 1000
  | 4 => v == 1000 || v == 2000 || v == 4000 || v == 5000 || v == 8000
  | 5 | 6 => within v 500 900
  | _ => true

/-- A pool (07 R172). -/
def rangePool (sub v : Nat) : Bool :=
  match sub with
  | 1 => v == 1
  | 2 => v % 1024 == 0
  | 3 => v % 1024 == 0 && decide (v ≤ 134217728)
  | 4 => decide (v < 1024) || v == none16
  | 5 => decide (v < 64) || v == 0xFF
  | _ => true

/-- A quad's writable sub-indices (02 R55, 07 R185). -/
def rangeQuad (sub v : Nat) : Bool :=
  match sub with
  | 0x10 => isClock v
  | 0x60 => v == 0 || v == 64 || v == 128 || v == 192 || v == 256
  | _ => true

/-- The value that a sub-index accepts on its own. -/
def valueOk (b : Blk) (idx sub v : Nat) : Bool :=
  if 0x2120 ≤ idx ∧ idx < 0x2140 then (match sub with
    | 1 => v == 1
    | 3 | 8 => decide (v ≤ 1)
    | _ => true)
  else if 0x2140 ≤ idx ∧ idx < 0x2154 then rangeInput (idx - 0x2140) sub v
  else if 0x2280 ≤ idx ∧ idx < 0x2288 then rangeAdc (idx - 0x2280) sub v
  else if 0x2290 ≤ idx ∧ idx < 0x2292 then (match sub with
    | 1 => v == 1
    | 2 => within v 20 25000
    | _ => true)
  else if 0x2640 ≤ idx ∧ idx < 0x26C0 then rangePool sub v
  else if 0x26E0 ≤ idx ∧ idx < 0x2700 then rangeSlot sub v
  else if 0x2720 ≤ idx ∧ idx < 0x2800 then rangeColl sub v
  else if 0x2810 ≤ idx ∧ idx < 0x2812 then rangeCan sub v
  else if 0x2820 ≤ idx ∧ idx < 0x2825 then rangePort sub v
  else if 0x3000 ≤ idx ∧ idx < 0x3010 then rangeCamera sub v
  else if 0x3010 ≤ idx ∧ idx < 0x3020 then rangeEther sub v
  else if 0x3100 ≤ idx ∧ idx < 0x3140 then rangeLayout sub v
  else if 0x4000 ≤ idx ∧ idx < 0x4400 then rangeCtx sub v
  else if 0x4800 ≤ idx ∧ idx < 0x4840 then (if sub = 0xE0 then v == 1 else if sub = 0xE1 then membersOk b.fuses v else true)
  else if 0x5000 ≤ idx ∧ idx < 0x5040 then rangeQuad sub v
  else if 0x6000 ≤ idx ∧ idx < 0x6040 then rangeOut sub v
  else rangeHub b idx sub v

/-! ## Locks -/

/-- A context holds admission (02 R46). -/
def lockedCtx (b : Blk) (n : Nat) : Bool := decide (n < 1024) && holdsAdmission b n

/-- The members of a reader group. -/
def groupMembers (b : Blk) (g : Nat) : List Nat := if g < 64 then maskList 1024 (odGet b (0x4800 + g) 0xE1) else []

/-- A rule refuses the write in the present state with 0x0800_0022: declarations (02 R34), pools (07 R172), temporal
slots (08 R209), a reader group's members (12 R302). -/
def writeLocked (b : Blk) (idx sub v : Nat) : Bool :=
  if 0x4000 ≤ idx ∧ idx < 0x4400 then sub != 0xA && lockedCtx b (idx - 0x4000)
  else if 0x2640 ≤ idx ∧ idx < 0x26C0 then
    lockedCtx b (odGet b idx 4) || (groupMembers b (odGet b idx 5)).any (lockedCtx b)
  else if 0x26E0 ≤ idx ∧ idx < 0x2700 then
    decide (sub ≤ 0x11) && (lockedCtx b (odGet b idx 2) || lockedCtx b (odGet b idx 3))
  else if 0x4800 ≤ idx ∧ idx < 0x4840 ∧ sub = 0xE1 then
    (List.range 128).any (fun p => odGet b (0x2640 + p) 5 == idx - 0x4800) &&
      (groupMembers b (idx - 0x4800) ++ maskList 1024 v).any (lockedCtx b)
  else false

end Sys2Proof.Machine
end

