-- ==== Sys2Proof/Machine/Objects.lean ====
section
/-! DEFINITION. The object service (12 R295 to R304): reads with the values that stand elsewhere in the state, the reads
that remove what they return, the checks of a write, the stages, broadcast writes, and the configuration digest. -/

namespace Sys2Proof.Machine

/-! ## Reads -/

/-- The configuration digest (R304). -/
def digestExcluded (idx sub : Nat) : Bool :=
  (idx == 0x2000 && sub == 2) || (idx == 0x2003 && sub == 1) || (decide (0x4000 ≤ idx) && decide (idx < 0x4400) && sub == 0xA) ||
  (idx == 0x2001 && sub == 1) || (idx == 0x2100 && sub == 9) || (idx == 0x2102 && sub == 2) ||
  (decide (0x26E0 ≤ idx) && decide (idx < 0x2700) && (sub == 0x14 || sub == 0x17)) ||
  (idx == 0x6090 && (sub == 1 || sub == 2))

/-- A configuration sub-index: it exists on the grade, may be written, and is not excluded. -/
def isConfigSub (b : Blk) (idx sub : Nat) : Bool :=
  subExists b.fuses idx sub && within (objAccess idx sub) 1 4 && !digestExcluded idx sub

/-- Every index of the dictionary, ascending. -/
def allIndices (f : Fuses) : List Nat :=
  (objTables.flatMap (fun t => (List.range t.2.1).map (t.1 + ·))).filter (idxExists f)

def digestEntries (b : Blk) : List Byte :=
  (allIndices b.fuses).flatMap (fun idx => ((List.range 256).filter (isConfigSub b idx)).flatMap (fun sub =>
    let n := odBytes idx sub
    leBytes 2 idx ++ leBytes 1 sub ++ leBytes 4 n ++ leBytes n (odGet b idx sub)))

/-- CONFIG_DIGEST: bytes 0 to 15 of SHA3-512 over the version and the entries. -/
def configDigest (b : Blk) : Nat := leNat ((sha3 (1 :: digestEntries b)).take 16)

/-- The committed entries that CONFIG_DIGEST is taken over; every other configuration sub-index is at its default. -/
def configOf (b : Blk) : Tab Nat := b.od.filter (fun p => isConfigSub b (p.1 / 256) (p.1 % 256))

/-- CONFIG_DIGEST over entries kept from an earlier beat. -/
def digestOf (b : Blk) (t : Tab Nat) : Nat := configDigest { b with od := t }

/-- The stage of a link: 0 USB, 1 UDP, 2 and 3 the CAN FD controllers. -/
def stageOf (b : Blk) (link : Nat) : Stage := nth Stage.empty b.links.stages link
def modStage (link : Nat) (f : Stage → Stage) (w : Work) : Work :=
  { w with links.stages := setNth w.links.stages link (f (stageOf w.toBlk link)) }

def stageBytes (s : Stage) : Nat := s.writes.foldl (fun n x => n + 8 + x.len) 0

/-- The latched sources, one bit per source (16 R427). -/
def latchedBits (b : Blk) : Nat := b.coll.latches.foldl (fun n p => n + 2 ^ p.1) 0

/-- The handle that HANDLE_KIND and HANDLE_SELECT name, while it is held (10 R271). -/
def handleSelected (b : Blk) : Option Handle :=
  b.res.handles.find? (fun h => h.kind == odGet b 0x6090 1 && h.handle == odGet b 0x6090 2)

/-- The value of a sub-index as a read on a link finds it: the committed value, or what the state holds elsewhere. -/
def odRead (b : Blk) (link idx sub : Nat) : Nat :=
  match idx, sub with
  | 0x2000, 1 => stateCode b.dev.state
  | 0x2000, 3 => b.dev.prev
  | 0x2000, 4 => b.dev.cause
  | 0x2001, 2 => (stageOf b link).writes.length
  | 0x2001, 3 => stageBytes (stageOf b link)
  | 0x2002, 2 => configDigest b
  | 0x2100, 1 => b.time.ns
  | 0x2100, 2 => b.time.beat
  | 0x2100, 4 => b.time.gen
  | 0x2100, 5 => b.time.t0
  | 0x2100, 6 => twos 64 b.time.n0
  | 0x2100, 7 => twos 32 b.time.rate
  | 0x2200, 7 => odGet b 0x2200 2 * 1000
  | 0x2210, 0xB => b.dev.emergency
  | 0x2300, 2 => b.time.beat / 8192
  | 0x2400, 7 => b.coll.latches.length
  | 0x2400, 8 => (match b.coll.latches with | p :: _ => p.1 | [] => none16)
  | 0x2400, 9 => highestLatched b
  | 0x2401, 4 => latchedBits b
  | 0x2410, 7 => if odGet b 0x2410 1 = 1 then odGet b 0x2410 2 else 0
  | 0x2540, 3 => b.log.length
  | 0x2540, 8 => (match b.log with | e :: _ => leNat (logBytes e) | [] => 0)
  | 0x2800, 6 => b2n b.links.usb.up
  | 0x2800, 7 => b2n b.links.udp.up
  | 0x2801, 4 => leNat b.links.udp.peer
  | 0x6090, 3 => (handleSelected b).elim 0 (·.digest)
  | 0x6090, 4 => (handleSelected b).elim 0 (·.beat)
  | 0x6090, 5 => if odGet b 0x6090 1 = 1 then b.res.nextProg else b.res.nextWeight
  | _, _ =>
    if 0x2140 ≤ idx ∧ idx < 0x2154 ∧ sub = 0x14 then
      b2n (activeLevel b (idx - 0x2140) (inputOf b (idx - 0x2140)).level)
    else if 0x2140 ≤ idx ∧ idx < 0x2154 ∧ sub = 0x16 then
      (match (inputOf b (idx - 0x2140)).fifo with | v :: _ => v | [] => 0)
    else if 0x4800 ≤ idx ∧ idx < 0x4840 ∧ sub = 0xE2 then popCount 1024 (odGet b idx 0xE1)
    else odGet b idx sub

/-- A read of FAULT_ACK clears the lowest latch (16 R414), outside SAFE. -/
def faultAckPop (w : Work) : Work :=
  if w.dev.state = .safe then w else { w with coll.latches := w.coll.latches.drop 1 }

/-- A read of FE_RELEASE empties the capture (16 R415). -/
def feReleasePop (w : Work) : Work :=
  if odGet w.toBlk 0x2410 1 = 1 then
    odPut 0x2410 1 0 (odPut 0x2410 2 0 (odPut 0x2410 3 none16 (odPut 0x2410 4 0 (odPut 0x2410 5 0 (odPut 0x2410 6 0 w)))))
  else w

/-- What a read removes, beside what it returns: FAULT_ACK, FE_RELEASE, LOG_POP, CAP_FIFO_POP. -/
def odPop (idx sub : Nat) (w : Work) : Work :=
  match idx, sub with
  | 0x2400, 8 => faultAckPop w
  | 0x2410, 7 => feReleasePop w
  | 0x2540, 8 => { w with log := w.log.drop 1 }
  | _, _ => if 0x2140 ≤ idx ∧ idx < 0x2154 ∧ sub = 0x16 then (capPop (idx - 0x2140) w).2 else w

/-- The index is an "all" index or a group's broadcast sub-index (R301, R302). -/
def isBroadcast (idx sub : Nat) : Bool :=
  idx == 0x30FF || idx == 0x47FF || idx == 0x50FF ||
  (decide (0x4800 ≤ idx) && decide (idx < 0x4840) && decide (1 ≤ sub) && decide (sub ≤ 0xDF))

/-- The abort code of a read, 0 where it is served (R295 to R297, R301). -/
def readCheck (b : Blk) (idx sub : Nat) : Nat :=
  let exists_ := if isBroadcast idx sub then 0x06010001
    else if idxExists b.fuses idx = false then 0x06020000
    else if subExists b.fuses idx sub = false then 0x06090011
    else if 3 ≤ objAccess idx sub ∧ objAccess idx sub ≤ 4 then 0x06010001
    else if idx = 0x6090 ∧ sub = 3 ∧ (handleSelected b).isNone = true then 0x08000024
    else 0
  if b.dev.state = .boot then (if idx = 0x1018 ∨ idx = 0x2000 then exists_ else 0x08000022)
  else exists_

/-- A read on a link: abort code, the value's bytes, and what it removes. -/
def serveRead (link idx sub : Nat) (w : Work) : Nat × List Byte × Work :=
  let c := readCheck w.toBlk idx sub
  if c ≠ 0 then (c, [], w)
  else
    (0, leBytes (odBytes idx sub) (odRead w.toBlk link idx sub), odPop idx sub w)

/-! ## Writes -/

/-- The state's refusal of a write to an existing object (R297). -/
def stateRefuses (b : Blk) (idx sub v : Nat) : Bool :=
  let a := objAccess idx sub
  (match b.dev.state with
   | .config => false
   | .run => a == 2 || a == 4
   | .adapt => a == 2 || a == 4
   | .squall => a == 2 || a == 4
   | _ => true) || writeLocked b idx sub v

/-- The checks of a write to one sub-index (R297): the abort code, 0 where it passes. -/
def writeCheck (b : Blk) (idx sub : Nat) (bs : List Byte) : Nat :=
  let v := leNat bs
  let isBool := ((objRow idx sub).map rowBool).getD false
  if b.dev.state = .boot then 0x08000022
  else if idxExists b.fuses idx = false then 0x06020000
  else if subExists b.fuses idx sub = false then 0x06090011
  else if objAccess idx sub = 0 ∨ objAccess idx sub = 5 then 0x06010002
  else if bs.length ≠ odBytes idx sub then 0x06070010
  else if isBool && decide (1 < v) then 0x06090030
  else if valueOk b idx sub v = false then 0x06090030
  else if stateRefuses b idx sub v then 0x08000022
  else 0

/-- The members of a broadcast (R301, R302). -/
def broadcastMembers (b : Blk) (idx : Nat) : List Nat :=
  if idx = 0x30FF then (List.range 32).map (0x3000 + ·)
  else if idx = 0x47FF then ((List.range 1024).filter (ctxExists b.fuses)).map (0x4000 + ·)
  else if idx = 0x50FF then (List.range (quadCount b.fuses)).map (0x5000 + ·)
  else (groupMembers b (idx - 0x4800)).map (0x4000 + ·)

/-- The writes that a write stands for, or the code that refuses it. -/
def expandWrite (b : Blk) (idx sub : Nat) (bs : List Byte) : Nat × List StageWrite :=
  let one := fun (i : Nat) => ({ idx := i, sub, len := bs.length, val := leNat bs } : StageWrite)
  if isBroadcast idx sub = false then (writeCheck b idx sub bs, [one idx])
  else
    let has_ := (broadcastMembers b idx).filter (fun i => idxExists b.fuses i && subExists b.fuses i sub)
    let open_ := has_.filter (fun i => objAccess i sub != 5)
    if b.dev.state = .boot then (0x08000022, [])
    else if has_.isEmpty then (0x06090011, [])
    else if open_.isEmpty then (0x06010002, [])
    else match open_.find? (fun i => writeCheck b i sub bs != 0) with
      | some i => (writeCheck b i sub bs, [])
      | none => (0, open_.map one)

/-- A write put into a stage in ascending index and sub-index: it replaces an earlier one. -/
def stageInsert : List StageWrite → StageWrite → List StageWrite
  | [], x => [x]
  | y :: r, x =>
    if x.idx * 256 + x.sub < y.idx * 256 + y.sub then x :: y :: r
    else if x.idx = y.idx ∧ x.sub = y.sub then x :: r
    else y :: stageInsert r x

/-- Enter writes into a link's stage (R298). -/
def enterStage (link : Nat) (ws : List StageWrite) (w : Work) : Nat × Work :=
  let s := stageOf w.toBlk link
  if s.commitAt.isSome then (0x08000021, w)
  else
    let t : Stage := { s with writes := ws.foldl stageInsert s.writes }
    if 4096 < t.writes.length ∨ 262144 < stageBytes t then (0x05040005, w)
    else (0, modStage link (fun _ => t) w)

/-- Ask to commit a link's stage (R299): answered at once when it is empty. -/
def askCommit (link : Nat) (reply : Reply) (w : Work) : Option Nat × Work :=
  let s := stageOf w.toBlk link
  if s.commitAt.isSome then (some 0x08000021, w)
  else if s.writes.isEmpty then (some 0, w)
  else
    let at_ := w.time.beat + 2 + ceilDiv (stageBytes s) 2048
    let w := { w with links.orders := w.links.orders + 1 }
    (none, modStage link (fun s => { s with commitAt := some at_, order := w.links.orders, reply := some reply }) w)

/-- Discard a link's stage, unless its commit is pending. -/
def discardStage (link : Nat) (w : Work) : Nat × Work :=
  if (stageOf w.toBlk link).commitAt.isSome then (0x08000021, w) else (0, modStage link (fun _ => Stage.empty) w)

/-- A stage that goes with its session or with pair 3 (R300, R322): a pending commit survives a silent host. -/
def dropStage (link : Nat) (pendingToo : Bool) (w : Work) : Work :=
  if (stageOf w.toBlk link).commitAt.isSome ∧ pendingToo = false then w else modStage link (fun _ => Stage.empty) w

/-- A write on a link: the abort code to answer now, none where the answer waits for a commit's boundary. -/
def serveWrite (link idx sub : Nat) (bs : List Byte) (reply : Reply) (w : Work) : Option Nat × Work :=
  let e := expandWrite w.toBlk idx sub bs
  if e.1 ≠ 0 then (some e.1, w)
  else if idx = 0x2001 ∧ sub = 1 then
    (if leNat bs = 1 then askCommit link reply w else let r := discardStage link w; (some r.1, r.2))
  else let r := enterStage link e.2 w; (some r.1, r.2)

end Sys2Proof.Machine
end

