-- ==== Sys2Proof/Machine/Links.lean ====
section
/-! DEFINITION. The host links (12 R307 to R322): Crino sessions, frames and messages, the register window and its command
rings, USDO, heartbeats and safety-status frames, and a silent host. -/

namespace Sys2Proof.Machine

/-! ## Who serves a link (12 R297, R317, 13 R334) -/

/-- Pair k runs, joined or split. -/
def pairRuns (b : Blk) (k : Nat) : Bool := odGet b (0x2510 + k) 1 == 1 || odGet b (0x2510 + k) 1 == 2

/-- The object service runs: the boot ROM in BOOT, pair 0 in SAFE, pair 3 otherwise. -/
def serviceRuns (b : Blk) : Bool :=
  match b.dev.state with
  | .boot => true
  | .safe => pairRuns b 0
  | .config => pairRuns b 3
  | .run => pairRuns b 3
  | .adapt => pairRuns b 3
  | .squall => pairRuns b 3
  | _ => false

/-- A Crino link serves frames: USB (0), or UDP (1) on a selected port outside BOOT and SAFE. -/
def linkServes (b : Blk) (link port : Nat) : Bool :=
  serviceRuns b && !b.dev.warm && !b.dev.noRefclk &&
  (link == 0 || (link == 1 && b.dev.state != .boot && b.dev.state != .safe && odGet b 0x2801 1 == 1 &&
    (odGet b 0x2801 3).testBit port))

def sessionOf (b : Blk) (link : Nat) : Session := if link = 0 then b.links.usb else b.links.udp
def modSession (link : Nat) (f : Session → Session) (w : Work) : Work :=
  if link = 0 then { w with links.usb := f w.links.usb } else { w with links.udp := f w.links.udp }

/-! ## Answers -/

/-- A response: its frames are one Output; a UDP session keeps the responses of its latest 64 TAGs (R317). -/
def answer (link tag rtype status : Nat) (body : List Byte) (w : Work) : Work :=
  let o : Output := .crino link rtype tag status body
  let w := send o w
  if link = 1 then
    modSession 1 (fun s => { s with answers := ((tag, [o]) :: s.answers.filter (fun p => p.1 != tag)).take 64 }) w
  else w

/-- Close a session (R317, R322): its incomplete messages are abandoned. -/
def closeSession (link : Nat) (w : Work) : Work := modSession link (fun _ => Session.closed) w

/-! ## Frames and messages (12 R313) -/

/-- The most payload a frame carries. -/
def frameMax (hd : Hdr) : Nat :=
  if hd.link = 0 then 65536 else if (hd.peer.take 12) == (List.replicate 10 0 ++ [0xFF, 0xFF]) then 1448 else 1428

/-- The answer that a request with REPEAT receives again: the session still holds that of its TAG (R317). -/
def heldAnswer (b : Blk) (hd : Hdr) : Option (List Output) :=
  if hd.link = 1 ∧ b.links.udp.up = true ∧ hd.flags.testBit 1 = true then (b.links.udp.answers.find? (fun p => p.1 == hd.tag)).map (·.2) else none

/-- Drop a message in assembly. -/
def dropPartial (link ftype tag : Nat) (w : Work) : Work :=
  modSession link (fun s => { s with partials := s.partials.filter (fun m => !(m.ftype == ftype && m.tag == tag)) }) w

/-- A frame joins its message; `f` serves the message once LAST has come. -/
def assemble (ftype rtype : Nat) (hd : Hdr) (payload : List Byte) (f : List Byte → Work → Work) (w : Work) : Work :=
  let s := sessionOf w.toBlk hd.link
  let open_ := s.partials.find? (fun m => m.ftype == ftype && m.tag == hd.tag)
  let have_ := (open_.map (·.bytes)).getD []
  if frameMax hd < payload.length ∨ hd.offset ≠ have_.length then
    answer hd.link hd.tag rtype 3 [] (dropPartial hd.link ftype hd.tag w)
  else if hd.flags.testBit 0 then f (have_ ++ payload) (dropPartial hd.link ftype hd.tag w)
  else if open_.isNone ∧ 16 ≤ s.partials.length then answer hd.link hd.tag rtype 7 [] w
  else
    let m : OpenMsg := { ftype, tag := hd.tag, bytes := have_ ++ payload }
    modSession hd.link (fun s => { s with partials := s.partials.filter (fun m => !(m.ftype == ftype && m.tag == hd.tag)) ++ [m] }) w

/-- A datagram on UDP from a sender that is not the session's peer (R317). -/
def stranger (b : Blk) (hd : Hdr) : Bool := hd.link == 1 && b.links.udp.up && b.links.udp.peer != hd.peer

/-- A frame that the session's checks pass over or answer: none where it is valid (R313 to R317, 00 R8). -/
def frameRefused (rtype : Nat) (hd : Hdr) (w : Work) : Option Work :=
  if linkServes w.toBlk hd.link hd.port = false then some w
  else if stranger w.toBlk hd then some (odAdd (0x2820 + hd.port) 0xC 1 w)
  else if (sessionOf w.toBlk hd.link).up = false then some (answer hd.link hd.tag rtype 0xA [] w)
  else if hd.version ≠ (sessionOf w.toBlk hd.link).version ∨ hd.reserved ≠ 0 ∨ 4 ≤ hd.flags then
    some (answer hd.link hd.tag rtype 1 [] w)
  else none

/-- A valid frame keeps its session from falling silent (R322). -/
def heard (link : Nat) (w : Work) : Work := modSession link (fun s => { s with last := w.time.ns }) w

/-- A response leaves once more. -/
def sendAgain (os : List Output) (w : Work) : Work := os.foldl (fun w o => send o w) w

/-- A frame of a type other than HELLO, its answer of type `rtype`. A valid one keeps the session from falling silent
(R322; log 145). -/
def crino (ftype rtype : Nat) (hd : Hdr) (payload : List Byte) (f : List Byte → Work → Work) (w : Work) : Work :=
  match frameRefused rtype hd w with
  | some w => w
  | none =>
    let w := heard hd.link w
    match heldAnswer w.toBlk hd with
    | some os => sendAgain os w
    | none => assemble ftype rtype hd payload f w

/-- HELLO (R314). One on an open session restarts it, so that one without a common version leaves it closed (log 145). -/
def hello (hd : Hdr) (payload : List Byte) (w : Work) : Work :=
  if linkServes w.toBlk hd.link hd.port = false then w
  else if stranger w.toBlk hd then odAdd (0x2820 + hd.port) 0xC 1 w
  else match heldAnswer w.toBlk hd with
  | some os => sendAgain os (heard hd.link w)
  | none =>
  if payload.length ≠ 4 ∨ hd.offset ≠ 0 ∨ hd.flags.testBit 0 = false then answer hd.link hd.tag 2 3 [] w
  else if hd.reserved ≠ 0 ∨ 4 ≤ hd.flags ∨ leAt payload 2 2 ≠ 0 ∨ hd.version ≠ 1 then answer hd.link hd.tag 2 1 [] w
  else
    let common := decide (leAt payload 0 1 ≤ 1) && decide (1 ≤ leAt payload 1 1)
    let b := w.toBlk
    let body := leBytes 1 (b2n common) ++ leBytes 1 (stateCode b.dev.state) ++ leBytes 2 0 ++
      leBytes 4 (odGet b 0x1018 2) ++ leBytes 4 (odGet b 0x1018 4) ++ leBytes 4 (odGet b 0x2002 1)
    if common then
      let w := dropStage hd.link false w
      let w := modSession hd.link (fun _ => { Session.closed with up := true, version := 1, last := w.time.ns, peer := hd.peer }) w
      answer hd.link hd.tag 2 0 body (odPut 0x2800 8 1 w)
    else
      let w := doIf (sessionOf b hd.link).up (fun w => closeSession hd.link (dropStage hd.link false w)) w
      answer hd.link hd.tag 2 1 body w

/-- KEEPALIVE: it has no payload, and a valid one is not answered. -/
def keepalive (hd : Hdr) (w : Work) : Work := crino 3 3 hd [] (fun _ w => w) w

/-- The types of R315 that a host sends. -/
def hostType (t : Nat) : Bool := [0x01, 0x03, 0x10, 0x12, 0x20, 0x30, 0x32, 0x40, 0x41, 0x50, 0x70].contains t

/-- A reserved type is answered with status 0x0002. -/
def unknownType (ftype : Nat) (hd : Hdr) (w : Work) : Work :=
  match frameRefused ftype hd w, heldAnswer w.toBlk hd with
  | some w, _ => w
  | none, some os => sendAgain os w
  | none, none => answer hd.link hd.tag ftype 2 [] w

/-- A frame whose CRC fails is dropped and counted. -/
def crcFail (hd : Hdr) (w : Work) : Work :=
  if linkServes w.toBlk hd.link hd.port then odAdd 0x2800 4 1 w else w

/-! ## OD_READ and OD_WRITE (12 R315) -/

def odReadMsg (link tag : Nat) (m : List Byte) (w : Work) : Work :=
  if m.length ≠ 4 then answer link tag 0x11 3 [] w
  else if leAt m 3 1 ≠ 0 then answer link tag 0x11 1 [] w
  else
    let r := serveRead link (leAt m 0 2) (leAt m 2 1) w
    answer link tag 0x11 (if r.1 = 0 then 0 else 9) (m ++ leBytes 4 r.1 ++ r.2.1) r.2.2

def odReadFrame (hd : Hdr) (payload : List Byte) (w : Work) : Work :=
  crino 0x10 0x11 hd payload (odReadMsg hd.link hd.tag) w

/-- The first four bytes of an object request. -/
def objHead (idx sub : Nat) : List Byte := leBytes 2 idx ++ leBytes 1 sub ++ leBytes 1 0

def odWriteMsg (link tag : Nat) (m : List Byte) (w : Work) : Work :=
  if m.length < 4 then answer link tag 0x13 3 [] w
  else if leAt m 3 1 ≠ 0 then answer link tag 0x13 1 [] w
  else
    let r := serveWrite link (leAt m 0 2) (leAt m 2 1) (m.drop 4) (.crino link tag) w
    match r.1 with
    | none => r.2
    | some c => answer link tag 0x13 (if c = 0 then 0 else 9) (m.take 4 ++ leBytes 4 c) r.2

def odWriteFrame (hd : Hdr) (payload : List Byte) (w : Work) : Work :=
  crino 0x12 0x13 hd payload (odWriteMsg hd.link hd.tag) w

/-! ## The register window (12 R320) -/

/-- SSF_FLAGS bits 5:0 (R310). -/
def ssfFlags (b : Blk) : Nat :=
  odGet b 0x2300 7 % 2 + 2 * b2n (faultLow b) + 4 * b2n (inputOf b 18).reported + 8 * b2n b.dev.quadLost +
  16 * b2n b.dev.safetyShed + 32 * b2n (b.time.sync == 2 || b.time.sync == 3 || b.time.sync == 5)

def ringOf (b : Blk) (r : Nat) : Ring := nth Ring.off b.links.win.rings r
def modRing_ (r : Nat) (f : Ring → Ring) (w : Work) : Work :=
  { w with links.win.rings := setNth w.links.win.rings r (f (ringOf w.toBlk r)) }

/-- One word as a link reads it. -/
def winRead (link off : Nat) (w : Work) : Nat :=
  let b := w.toBlk
  let v := b.links.win
  if 0x1000 ≤ off ∧ off < 0xF000 then rdNat w (winKey (off - 0x1000)) 4
  else if 0x100 ≤ off ∧ off < 0x180 then
    let r := ringOf b ((off - 0x100) / 0x20)
    match (off - 0x100) % 0x20 with
    | 0x00 => r.base
    | 0x04 => r.entries
    | 0x08 => r.tail
    | 0x0C => r.head
    | 0x14 => r.status + 256 * r.code
    | _ => 0
  else match off with
    | 0x00 => 1
    | 0x04 => (sessionOf b link).version
    | 0x08 => stateCode b.dev.state + 256 * b.dev.prev + 65536 * b.dev.cause
    | 0x0C => ssfFlags b
    | 0x10 => b.time.beat % 2 ^ 32
    | 0x14 => v.beatHi
    | 0x18 => odGet b 0x2002 1
    | 0x20 => irqView b
    | 0x24 => v.irqEnable
    | 0x200 => v.cqBase
    | 0x204 => v.cqEntries
    | 0x208 => v.cqHead
    | 0x20C => v.cqTail
    | _ => 0

/-- BEAT_HI is latched when BEAT_LO is read. -/
def winReadEffect (off : Nat) (w : Work) : Work :=
  if off = 0x10 then { w with links.win.beatHi := w.time.beat / 2 ^ 32 % 2 ^ 32 } else w

/-- The regions of ring memory that the rings and the completion ring take: base and bytes. -/
def ringSpans (v : Window) : List (Nat × Nat) :=
  (v.rings.map (fun r => (r.base, 64 * r.entries))) ++ [(v.cqBase, 16 * v.cqEntries)]

/-- No two rings overlap, and each lies in ring memory. -/
def ringsOk (v : Window) : Bool :=
  let s := (ringSpans v).filter (fun p => p.2 != 0)
  s.all (fun p => decide (p.1 + p.2 ≤ 0xE000)) &&
  (List.range s.length).all (fun i => (List.range i).all (fun j =>
    let p := nth (0, 0) s i
    let q := nth (0, 0) s j
    decide (p.1 + p.2 ≤ q.1) || decide (q.1 + q.2 ≤ p.1)))

/-- An entry count: 0, or a power of two from 16. -/
def ringSize (v top : Nat) : Bool := v == 0 || (isPow2 v && within v 16 top)

/-- Whether every ring is idle, as the completion ring's registers ask. -/
def ringsIdle (v : Window) : Bool := v.rings.all (fun r => r.status == 0)

/-- One word written: none where it is answered with status 0x000B. -/
def winWrite (link off v : Nat) (w : Work) : Option Work :=
  let win := w.links.win
  if 0x1000 ≤ off ∧ off < 0xF000 then some (put (winKey (off - 0x1000)) (leBytes 4 v) w)
  else if 0x100 ≤ off ∧ off < 0x180 then
    let k := (off - 0x100) / 0x20
    let r := ringOf w.toBlk k
    match (off - 0x100) % 0x20 with
    | 0x00 =>
      let w' := modRing_ k (fun r => { r with base := v }) w
      if r.status = 0 ∧ v % 64 = 0 ∧ ringsOk w'.links.win = true then some w' else none
    | 0x04 =>
      let w' := modRing_ k (fun r => { r with entries := v, head := 0, tail := 0 }) w
      if r.status = 0 ∧ ringSize v 256 = true ∧ ringsOk w'.links.win = true then some w' else none
    | 0x08 => some (modRing_ k (fun r => { r with tail := if r.entries = 0 then 0 else v % r.entries }) w)
    | 0x0C => some w
    | 0x10 => some (modRing_ k (fun r => { r with status := if r.entries = 0 ∨ r.head = r.tail then 0 else 1, code := 0, link }) w)
    | 0x14 => some w
    | _ => if v = 0 then some w else none
  else match off with
    | 0x00 => some w
    | 0x04 => some w
    | 0x08 => some w
    | 0x0C => some w
    | 0x10 => some w
    | 0x14 => some w
    | 0x18 => some w
    | 0x1C => some (modSession link (fun s => { s with last := w.time.ns }) w)
    | 0x20 => if 32 ≤ v then none else some { w with links.win.irq := Nat.land win.irq (31 - v) }
    | 0x24 => if 32 ≤ v then none else some { w with links.win.irqEnable := v }
    | 0x200 =>
      let w' := { w with links.win.cqBase := v }
      if ringsIdle win = true ∧ v % 64 = 0 ∧ ringsOk w'.links.win = true then some w' else none
    | 0x204 =>
      let w' := { w with links.win.cqEntries := v, links.win.cqHead := 0, links.win.cqTail := 0 }
      if ringsIdle win = true ∧ ringSize v 1024 = true ∧ ringsOk w'.links.win = true then some w' else none
    | 0x208 => some { w with links.win.cqHead := if win.cqEntries = 0 then 0 else v % win.cqEntries }
    | 0x20C => some w
    | _ => if v = 0 then some w else none

/-- REG_READ: OFFSET and WORDS. -/
def regReadMsg (link tag : Nat) (m : List Byte) (w : Work) : Work :=
  let off := leAt m 0 2
  let n := leAt m 2 2
  if m.length ≠ 4 ∨ n = 0 ∨ 256 < n then answer link tag 0x42 3 [] w
  else if off % 4 ≠ 0 ∨ 0x10000 < off + 4 * n then answer link tag 0x42 0xB [] w
  else
    let r := (List.range n).foldl (fun (p : List Byte × Work) i =>
      (p.1 ++ leBytes 4 (winRead link (off + 4 * i) p.2), winReadEffect (off + 4 * i) p.2)) ([], w)
    answer link tag 0x42 0 r.1 r.2

/-- The words of a write, all or none. -/
def winWrites (link off : Nat) (bs : List Byte) (n : Nat) (w : Work) : Option Work :=
  (List.range n).foldl (fun (p : Option Work) i => p.bind (fun w => winWrite link (off + 4 * i) (leAt bs (4 * i) 4) w)) (some w)

def regWriteMsg (link tag : Nat) (m : List Byte) (w : Work) : Work :=
  let off := leAt m 0 2
  let n := leAt m 2 2
  if m.length < 4 ∨ n = 0 ∨ 256 < n ∨ m.length ≠ 4 + 4 * n then answer link tag 0x42 3 [] w
  else if off % 4 ≠ 0 ∨ 0x10000 < off + 4 * n then answer link tag 0x42 0xB [] w
  else match winWrites link off (m.drop 4) n w with
    | some w' => answer link tag 0x42 0 [] w'
    | none => answer link tag 0x42 0xB [] w

def regReadFrame (hd : Hdr) (payload : List Byte) (w : Work) : Work := crino 0x40 0x42 hd payload (regReadMsg hd.link hd.tag) w
def regWriteFrame (hd : Hdr) (payload : List Byte) (w : Work) : Work := crino 0x41 0x42 hd payload (regWriteMsg hd.link hd.tag) w

/-- The payload of a write of one register. -/
def regOne (off v : Nat) : List Byte := leBytes 2 off ++ leBytes 2 1 ++ leBytes 4 v

/-! ## Command rings (12 R321) -/

/-- The completion ring has room. -/
def cqRoom (v : Window) : Bool := decide (v.cqEntries ≠ 0) && (v.cqTail + 1) % v.cqEntries != v.cqHead

/-- Write a completion entry; bit 0 of IRQ_STATUS rises with the ring's first entry. -/
def complete (tag status ctype detail beat : Nat) (w : Work) : Work :=
  let v := w.links.win
  if v.cqEntries = 0 then w
  else
    let was := v.cqHead == v.cqTail
    let e := leBytes 4 tag ++ leBytes 2 status ++ leBytes 1 ctype ++ leBytes 1 0 ++ leBytes 4 detail ++ leBytes 4 (beat % 2 ^ 32)
    let w := put (winKey (v.cqBase + 16 * v.cqTail)) e w
    let w := { w with links.win.cqTail := (v.cqTail + 1) % v.cqEntries }
    doIf (was && bit v.irqEnable 0) sendEvent w

/-- The entry that is consumed next: the lowest running ring with one. -/
def nextCmd (w : Work) : Option (Nat × List Byte) :=
  if cqRoom w.links.win && serviceRuns w.toBlk then
    ((List.range 4).find? (fun r => let x := ringOf w.toBlk r; x.status == 1 && x.head != x.tail)).map (fun r =>
      let x := ringOf w.toBlk r
      (r, rd w (winKey (x.base + 64 * x.head)) 64))
  else none

/-- Move a ring past its entry: idle once it is empty. -/
def ringPast (r : Nat) (w : Work) : Work :=
  modRing_ r (fun x =>
    let h := (x.head + 1) % x.entries
    { x with head := h, status := if h = x.tail then 0 else x.status }) w

/-- Why an entry stops its ring: 1 a version or reserved field, 2 a reserved type. -/
def cmdStops (e : List Byte) : Option Nat :=
  let t := leAt e 1 1
  let args := e.drop 8
  if leAt e 0 1 ≠ 1 ∨ leAt e 2 2 ≠ 0 then some 1
  else if t = 0 ∨ 4 < t then some 2
  else if t = 3 ∧ (leAt args 1 1 ≠ 0 ∨ leNat (args.drop 4) ≠ 0) then some 1
  else if (t = 1 ∨ t = 4) ∧ leNat args ≠ 0 then some 1
  else none

/-- Consume the next entry when it is of a type and stops nothing; `f` serves it, given link, TAG and arguments. -/
def cmdRow (t : Nat) (f : Nat → Nat → List Byte → Work → Work) (w : Work) : Work :=
  match nextCmd w with
  | none => w
  | some (r, e) =>
    if leAt e 1 1 = t ∧ (cmdStops e).isNone then f (ringOf w.toBlk r).link (leAt e 4 4) (e.drop 8) (ringPast r w) else w

/-- COMMIT: completes when R299 answers. -/
def cmdCommit (w : Work) : Work :=
  cmdRow 1 (fun link tag _ w =>
    let r := askCommit link (.ring tag link) w
    match r.1 with
    | none => r.2
    | some c => complete tag (if c = 0 then 0 else 9) 1 c w.time.beat r.2) w

def cmdHint (w : Work) : Work :=
  cmdRow 2 (fun _ tag args w => let r := hint args w; complete tag r.1 2 0 w.time.beat r.2) w

def cmdNop (w : Work) : Work := cmdRow 4 (fun _ tag _ w => complete tag 0 4 0 w.time.beat w) w

/-- A reserved or malformed entry completes with an error and stops its ring. -/
def cmdReserved (w : Work) : Work :=
  match nextCmd w with
  | none => w
  | some (r, e) =>
    match cmdStops e with
    | none => w
    | some c =>
      let w := modRing_ r (fun x => { x with head := (x.head + 1) % x.entries, status := 2, code := c }) w
      complete (leAt e 4 4) c (leAt e 1 1) 0 w.time.beat w

/-- The device stops consuming the command rings (R322). -/
def ringsStop (w : Work) : Work :=
  { w with links.win.rings := w.links.win.rings.map (fun r => if r.status = 1 then { r with status := 0 } else r) }

/-! ## CAN FD (12 R307 to R310) -/

def canOf (b : Blk) (c : Nat) : CanCtrl := nth CanCtrl.reset b.links.can c
def modCan (c : Nat) (f : CanCtrl → CanCtrl) (w : Work) : Work :=
  { w with links.can := setNth w.links.can c (f (canOf w.toBlk c)) }

/-- A controller transmits: enabled, a valid node-ID, not bus-off, and in a state of R307. -/
def canActive (b : Blk) (c : Nat) : Bool :=
  servedState b && odGet b (0x2810 + c) 2 == 1 && b.dev.nodeId != 0 && !(canOf b c).busOff && !b.dev.warm && !b.dev.noRefclk

def canSend (c cob : Nat) (bs : List Byte) (w : Work) : Work := if canActive w.toBlk c then send (.can c cob bs) w else w

/-- The state byte of the heartbeat (01 R17). -/
def nmtState : DevState → Nat
  | .config => 0x7F
  | .adapt => 0x7F
  | .run => 0x05
  | .squall => 0x05
  | .safe => 0x04
  | _ => 0

/-- The heartbeat of a controller, at device time t of the present beat (R309). -/
def heartbeat (c t : Nat) (w : Work) : Work :=
  let at_ := moment t w
  let w := atTime t w
  let x := canOf w.toBlk c
  if canActive w.toBlk c = false ∨ (0 < x.beatSent ∧ at_ < x.beatSent + odGet w.toBlk 0x1017 0 * 1000000) then w
  else canSend c (0x700 + w.dev.nodeId) (leBytes 1 (nmtState w.dev.state)) (modCan c (fun x => { x with beatSent := at_ }) w)

/-- The quads that are neither absent nor removed. -/
def quadsInService (b : Blk) : Nat := ((List.range (quadCount b.fuses)).filter (fun q => !quadRemoved b q)).length

/-- The safety-status frame (R310). -/
def ssfBytes (b : Blk) : List Byte :=
  let body := leBytes 1 1 ++ leBytes 1 (stateCode b.dev.state) ++ leBytes 2 b.links.ssfCount ++ leBytes 4 (ssfFlags b) ++
    leBytes 8 b.time.beat ++ leBytes 4 (odGet b 0x2002 1) ++ leBytes 16 (configDigest b) ++ leBytes 4 (odGet b 0x2010 1) ++
    leBytes 1 (quadsInService b) ++ leBytes 1 (odGet b 0x2100 3) ++ leBytes 2 0
  body ++ leBytes 4 (crc32c (leBytes 1 b.dev.nodeId ++ body))

/-- At a boundary of its period one frame goes out on each enabled controller; it counts where a controller sends it. -/
def safetyStatus (w : Work) : Work :=
  let b := w.toBlk
  if servedState b = false ∨ odGet b 0x2390 1 ≠ 1 ∨ w.time.beat % odGet b 0x2390 3 ≠ 0 ∨ w.time.ns ≠ 2000 * w.time.beat then w
  else
    let f := ssfBytes b
    if [0, 1].any (canActive b) = false then w else
    let w := canSend 1 (odGet b 0x2390 2) f (canSend 0 (odGet b 0x2390 2) f w)
    odAdd 0x2390 4 1 { w with links.ssfCount := (w.links.ssfCount + 1) % 65536 }

def busOff (c : Nat) (w : Work) : Work :=
  if (canOf w.toBlk c).busOff then w
  else raise 0x0B0 c 0 (odAdd (0x2810 + c) 8 1 (modCan c (fun x => { x with busOff := true }) w))

/-- After 128 × 11 recessive bits the controller rejoins with its error counters at 0. -/
def busOffRecover (c : Nat) (w : Work) : Work :=
  if (canOf w.toBlk c).busOff then odPut (0x2810 + c) 9 0 (odPut (0x2810 + c) 0xA 0 (modCan c (fun x => { x with busOff := false }) w))
  else w

def nmtCommand (c : Nat) (w : Work) : Work := if canActive w.toBlk c then odAdd (0x2810 + c) 0xB 1 w else w

/-! ## USDO (12 R308) -/

def usdoAnswer (c client abort : Nat) (bs : List Byte) (w : Work) : Work :=
  canSend c (0x580 + w.dev.nodeId) (leBytes 1 client ++ leBytes 4 abort ++ bs) w

/-- A write served for a USDO client. -/
def usdoWrite (c client idx sub : Nat) (data : List Byte) (w : Work) : Work :=
  let r := serveWrite (2 + c) idx sub data (.usdo c client) w
  match r.1 with
  | none => r.2
  | some a => usdoAnswer c client a [] r.2

/-- One USDO service of a client. -/
def usdoRequest (c client : Nat) (q : UsdoReq) (w : Work) : Work :=
  if canActive w.toBlk c = false ∨ serviceRuns w.toBlk = false then w
  else
    let now := w.time.ns
    match (canOf w.toBlk c).usdo with
    | some o =>
      if o.client ≠ client then usdoAnswer c client 0x08000021 [] w
      else match q with
        | .segment last data =>
          let bytes := o.bytes ++ data
          if last then
            let w := modCan c (fun x => { x with usdo := none }) w
            if bytes.length ≠ o.size then usdoAnswer c client 0x06070010 [] w else usdoWrite c client o.idx o.sub bytes w
          else usdoAnswer c client 0 [] (modCan c (fun x => { x with usdo := some { o with bytes := bytes, last := now } }) w)
        | _ => usdoAnswer c client 0x05040001 [] (modCan c (fun x => { x with usdo := none }) w)
    | none =>
      match q with
      | .read idx sub => let r := serveRead (2 + c) idx sub w; usdoAnswer c client r.1 r.2.1 r.2.2
      | .write idx sub data => usdoWrite c client idx sub data w
      | .start idx sub size =>
        let o : UsdoOpen := { client, session := 0, write := true, idx, sub, size, bytes := [], last := now }
        usdoAnswer c client 0 [] (modCan c (fun x => { x with usdo := some o }) w)
      | .segment _ _ => usdoAnswer c client 0x05040001 [] w
      | .invalid => usdoAnswer c client 0x05040001 [] w

/-- A segmented transfer without a frame for 100 ms is aborted. -/
def usdoTimeout (c t : Nat) (w : Work) : Work :=
  let at_ := moment t w
  let w := atTime t w
  match (canOf w.toBlk c).usdo with
  | some o => if o.last + 100000000 ≤ at_ then
      usdoAnswer c o.client 0x05040000 [] (modCan c (fun x => { x with usdo := none }) w) else w
  | none => w

/-! ## The ports -/

/-- USB attaches at a speed code of R312, or detaches. -/
def usbPresent (b : Blk) : Bool := b.dev.state != .lull && b.dev.state != .porst && !b.dev.warm && !b.dev.noRefclk

def usbAttach (speed : Nat) (w : Work) : Work := if usbPresent w.toBlk then odPut 0x2800 2 speed w else w

def ethLink (p : Nat) (up : Bool) (w : Work) : Work := odPut (0x2820 + p) 0xB (b2n up) w

/-- ARP and neighbour solicitation are answered for the port's own address (R317). -/
def ethAnswers (b : Blk) (p : Nat) : Bool :=
  linkServes b 1 p && odGet b (0x2820 + p) 3 != 0 && odGet b (0x2820 + p) 0xB == 1

def arpRequest (p : Nat) (target : List Byte) (w : Work) : Work :=
  let ip := leBytes 16 (odGet w.toBlk (0x2820 + p) 3)
  if ethAnswers w.toBlk p ∧ ip.take 12 = List.replicate 10 0 ++ [0xFF, 0xFF] ∧ ip.drop 12 = target then
    send (.ether p 4 (leBytes 6 (odGet w.toBlk (0x2820 + p) 2) ++ target)) w
  else w

def neighbourSolicit (p : Nat) (target : List Byte) (w : Work) : Work :=
  let ip := leBytes 16 (odGet w.toBlk (0x2820 + p) 3)
  if ethAnswers w.toBlk p ∧ ip = target then send (.ether p 5 (leBytes 6 (odGet w.toBlk (0x2820 + p) 2) ++ target)) w else w

/-! ## The log on EP3 (13 R347) -/

/-- A bulk transfer of `n` entries completes: they are removed. -/
def logDrain (n : Nat) (w : Work) : Work :=
  if odGet w.toBlk 0x2540 7 = 1 ∧ w.links.usb.up = true then send (.log (w.log.take n)) { w with log := w.log.drop n } else w

/-- The answer of a COMMIT after its boundary (12 R299), where its link can still carry one. -/
def commitAnswer (r : Reply) (code : Nat) (w : Work) : Work :=
  match r with
  | .crino link tag =>
    doIf (sessionOf w.toBlk link).up (answer link tag 0x13 (if code = 0 then 0 else 9) (objHead 0x2001 1 ++ leBytes 4 code)) w
  | .usdo c client => usdoAnswer c client code [] w
  | .ring tag _ => complete tag (if code = 0 then 0 else 9) 1 code w.time.beat w

end Sys2Proof.Machine
end

