-- ==== Sys2Proof/Machine/Output.lean ====
section
/-! DEFINITION. What engines send to the output unit: delivered rows (10 R242) and Garnet result blocks (15 R383). -/

namespace Sys2Proof.Machine

/-- The bit of a slice's record of what it has sent that stands for a destination of space 3. -/
def outBit (e dst : Nat) : Nat := if dst < 64 then dst else 64 + e % 4

/-- Whether a context may deliver a row of a length to a destination of space 3; at issue its slice has sent no other there
(10 R242). -/
def outputOk (b : Blk) (n e dst bytes : Nat) (atIssue : Bool) : Bool :=
  if dst < 64 then
    odGet b (0x6000 + dst) 4 == n && odGet b (0x6000 + dst) 3 == 0 && decide (256 ≤ bytes) &&
    decide (bytes - 256 ≤ odGet b (0x6000 + dst) 7) && !(atIssue && (sliceOf b n).outs.testBit (outBit e dst))
  else decide (0x100 ≤ dst) && decide (dst < 0x100 + quadCount b.fuses) && n == 960 + (dst - 0x100) && bytes == 256 &&
    !(atIssue && (sliceOf b n).outs.testBit (outBit e dst))

/-- One Garnet result block of the engine at position `pos` of quad q (15 R383): compared with the expected CRC, where a
mismatch is one of the quad, and at position k mod 4 with the expected value XOR 1 too, where a match is a fault of the
checker (DEDUCED, log 153). -/
def garnetBlock (q pos : Nat) (bs : List Byte) (w : Work) : Work :=
  match (quadRun w.toBlk q).garnet with
  | none => w
  | some (k, blocks) =>
    if blocks.any (fun p => p.1 == pos) then w
    else
      let good := crc32c bs == Config.garnetCrc (k % 16) pos
      let inverted := crc32c bs == Nat.xor (Config.garnetCrc (k % 16) pos) 1
      let w := doIf (pos == k % 4 && inverted) (raise 0x011 q 0) w
      let w := doIf (pos == k % 4 && !inverted) (modQuad q (fun r => { r with tested := testMark 25 r.tested })) w
      let w := modQuad q (fun r => { r with garnet := some (k, blocks ++ [(pos, good)]) }) w
      if good then w
      else
        let w := quadAdd q 0xA3 1 w
        makeSuspect q (raise 0x010 q (k % 16) w)

/-- A row arrives at the output unit. -/
def outputRow (e n dst : Nat) (bs : List Byte) (w : Work) : Work :=
  if dst < 64 then
    let rel := (sliceOf w.toBlk n).rel
    modOut dst (fun o =>
      let fill := fun (d : Due) => if d.rel = rel ∧ d.row = none then { d with row := some bs } else d
      { o with due := o.due.map fill }) w
  else garnetBlock (dst - 0x100) (e % 4) bs w

end Sys2Proof.Machine
end

