-- ==== Sys2Proof/Machine/Sequencer.lean ====
section
/-! DEFINITION. The sequencer (04 R80 to R86): which slot issues, what it fetches, how the program counter moves, and
the one frame in which every control instruction is issued, checked and charged. -/

namespace Sys2Proof.Machine

/-! ## Fetch -/

/-- The instruction at a program counter. -/
def fetchWord (w : Work) (e pc : Nat) : Nat := rdNat w (spmKey e (4 * pc)) 4

/-- A program counter inside the engine's store. -/
def fetchOk (b : Blk) (e pc : Nat) : Bool := decide (4 * pc + 4 ≤ spmLimit b e)

/-- The byte address of the descriptor an instruction names (04 R83). -/
def descAddr (s : Slot) (i : Nat) : Nat := 32 * (if iUseDp i then s.dp else iAddr i)

def descAt (w : Work) (e : Nat) (s : Slot) (i : Nat) : Nat := rdNat w (spmKey e (descAddr s i)) 32

/-! ## Where a pass goes -/

/-- The context whose chain is in progress on a half: its accumulators are kept, or its next or running pass keeps them. -/
def chainOn (h : Half) : Option Nat :=
  match h.kept with
  | some r => some r.req.ctx
  | none =>
    match h.next with
    | some r => if pDrainKind r.desc = 0 then some r.ctx else runs h
    | none => runs h
where
  runs (h : Half) : Option Nat :=
    match h.run with
    | some r => if pDrainKind r.req.desc = 0 ∧ r.dead = false then some r.req.ctx else none
    | none => none

/-- The last passes of the abandoned chains that a half reruns or is still to rerun, where they keep their accumulators:
the chains go on after the rerun. -/
def openReruns (h : Half) : List PassReq :=
  (h.rerun :: h.waiting).filterMap (fun l => l.getLast?.filter (fun r => pDrainKind r.desc == 0))

/-- A half holds a chain of a context that a further pass continues, in progress or to be rerun. -/
def holdsChain (h : Half) (n : Nat) : Bool := chainOn h == some n || (openReruns h).any (fun r => r.ctx == n)

/-- The half of a context's chain (04 R93). -/
def chainHalf (g : Engine) (n : Nat) : Option Bool :=
  if holdsChain g.h0 n then some false else if holdsChain g.h1 n then some true else none

/-- A pass of a context that starts from zero finds room in a half's queue (04 R81): no next pass, no chain in progress, and
no chain to be rerun that stands as high. -/
def halfRoom (b : Blk) (h : Half) (n : Nat) : Bool :=
  h.next.isNone && (chainOn h).isNone && (openReruns h).all (fun r => above b n r.ctx)

/-- The half a new pass of a context is placed on, when there is room (03 R74, R75; 04 R81, R93): a pass that continues a
chain takes the chain's half, and half 0 when no half holds it, where its issue refuses it; a whole-array pass takes half 0
and needs both halves; a SPLIT pass takes the half that is idle, and half 0 of two (DEDUCED, log 13). -/
def halfFor (b : Blk) (g : Engine) (n d : Nat) : Option Bool :=
  if pStart d = false then
    match chainHalf g n with
    | some h => if (halfOf g h).next.isNone then some h else none
    | none => some false
  else if pSplit d = false then
    if halfRoom b g.h0 n && halfRoom b g.h1 n then some false else none
  else if halfRoom b g.h0 n && g.h0.run.isNone then some false
  else if halfRoom b g.h1 n && g.h1.run.isNone then some true
  else if halfRoom b g.h0 n then some false
  else if halfRoom b g.h1 n then some true
  else none

/-! ## Which slot issues (04 R80) -/

/-- Chains of a context issued and not complete (06 R149). -/
def chainsOf (v : VecEng) (n : Nat) : Nat :=
  (v.issued.filter (fun c => c.ctx == n)).length +
  (match v.running with | some r => b2n (r.req.ctx == n) | none => 0)

/-- A slot has an instruction that it can issue now. -/
def issuable (w : Work) (e : Nat) (s : Slot) : Bool :=
  let g := engineOf w.toBlk e
  let i := fetchWord w e s.pc
  s.live && s.wait == .ready && !s.stopping && decide ((sliceOf w.toBlk s.ctx).startAt ≤ w.time.beat) &&
  (match iOp i with
   | 3 => (iCheck i).isSome || (s.returned.isEmpty && (halfFor w.toBlk g s.ctx (descAt w e s i)).isSome)
   | 4 => decide ((tabGet [] w.tileq (quadOf e)).length < 64)
   | 5 => decide (chainsOf g.vec s.ctx < 2)
   | 6 => decide (g.dma.length < 8)
   | 0xC => match s.last with
     | some l => !l.drains || l.status.isSome
     | none => true
   | _ => true)

/-- The best of the slots that satisfy a test, in the order of R36. -/
def bestSlot (b : Blk) (g : Engine) (ok : Slot → Bool) : Option Nat :=
  (List.range 16).foldl (fun best k =>
    let s := slotOf g k
    if ok s then
      match best with
      | none => some k
      | some j => if above b s.ctx (slotOf g j).ctx then some k else best
    else best) none

/-- The slot that issues at this moment. -/
def pickSlot (w : Work) (e : Nat) : Option Nat :=
  if engineRuns w.toBlk e then bestSlot w.toBlk (engineOf w.toBlk e) (issuable w e) else none

/-! ## The program counter (04 R84) -/

/-- The place after an instruction: the innermost active loop that ends here goes round again, or ends. -/
def loopStep (pc : Nat) (loops : List (Option LoopCtr)) : Nat × List (Option LoopCtr) :=
  let ends := (List.range 4).filter (fun k => match nth none loops k with | some l => l.last == pc | none => false)
  let inner := ends.foldl (fun best k =>
    match nth none loops k, best with
    | some l, some (j, f) => if f < l.first then some (k, l.first) else some (j, f)
    | some l, none => some (k, l.first)
    | none, b => b) (none : Option (Nat × Nat))
  match inner with
  | none => (pc + 1, loops)
  | some (k, first) =>
    match nth none loops k with
    | some l => if 0 < l.left then (first, setNth loops k (some { l with left := l.left - 1 })) else (pc + 1, setNth loops k none)
    | none => (pc + 1, loops)

/-- After an instruction: up to four loops may end at one place. -/
def afterPc (pc : Nat) (loops : List (Option LoopCtr)) : Nat × List (Option LoopCtr) :=
  (List.range 4).foldl (fun (p : Nat × List (Option LoopCtr)) _ =>
    let more := (List.range 4).any (fun k => match nth none p.2 k with | some l => l.last == pc | none => false)
    if p.1 = pc + 1 ∧ more = true then loopStep pc p.2 else p) (pc + 1, loops)

def advancePc (s : Slot) : Slot := let p := afterPc s.pc s.loops; { s with pc := p.1, loops := p.2 }

/-- A place lies inside every active loop body. -/
def insideLoops (s : Slot) (pc : Nat) : Bool :=
  s.loops.all (fun l => match l with | some l => decide (pc ≤ l.last) | none => true)

/-! ## Issue -/

/-- Issue the next instruction of engine e when its opcode is the row's (`sel`); `f` is the instruction's own effect,
given slot, context and instruction, after the issue cycle is charged and the program counter moved on (04 R86). A fetch
outside the store or in its cache part is refused with code 0x0D, as a scan that leaves the segment is (DESIGN CHOICE, log
135: 04 R105 gives the run-time fetch no code). -/
def issueRow (e : Nat) (sel : Work → Slot → Nat → Bool) (f : Nat → Slot → Nat → Work → Work) (w : Work) : Work :=
  match pickSlot w e with
  | none => w
  | some k =>
    let s := slotOf (engineOf w.toBlk e) k
    let i := fetchWord w e s.pc
    if sel w s i then
      match (if fetchOk w.toBlk e s.pc then iCheck i else some 0x0D) with
      | some c => refuseProgram e s.ctx c w
      | none =>
        let w := modSlot e k (fun s => { advancePc s with charge := s.charge + 1, progress := w.time.beat }) w
        f k s i w
    else w

/-- The row of an opcode. -/
def isOp (op : Nat) : Work → Slot → Nat → Bool := fun _ _ i => iOp i == op

end Sys2Proof.Machine
end

