-- ==== Sys2Proof/Machine/Passes.lean ====
section
/-! DEFINITION. Passes: issue, the tile queue, start, completion and rerun (03, 04 R81 to R94, R101 to R103, 05). -/

namespace Sys2Proof.Machine

/-! ## Issue -/

/-- 04 R93 and R85's records: what a pass must follow on its slot. -/
def chainRule (s : Slot) (d : Nat) : Bool :=
  match s.last with
  | none => pStart d
  | some l => if l.drains then pStart d else !pStart d && l.lsb == pAccLsb d && l.bf == pBf d && l.split == pSplit d

/-- DP moves on after a use (04 R83). -/
def useDp (e k i : Nat) (w : Work) : Work :=
  doIf (iUseDp i) (modSlot e k (fun s => { s with dp := (s.dp + 1) % 2 ^ 15 })) w

/-- The row of a PASS whose descriptor has an OP_KIND; the row of OP_KIND 0 also refuses the reserved ones. -/
def passSel (e kind : Nat) : Work → Slot → Nat → Bool := fun w s i =>
  iOp i == 3 && (let k := pOpKind (descAt w e s i); k == kind || (kind == 0 && decide (5 ≤ k)))

/-- Put a pass in a half's queue. Behind a running pass, the weight front loads its first set into NEXT (03 R58, 04 R81),
unless a read is held back (04 R94). -/
def placeNext (e : Nat) (h : Bool) (r : PassReq) (w : Work) : Work :=
  let x := halfOf (engineOf w.toBlk e) h
  let load := x.run.isSome && !x.stalled && !heldBack w.toBlk r.owner r.stamp (weightReads r.desc)
  modHalf e h (fun x => { x with next := some r, loaded := if load then weightSet w r.desc r.owner 0 else x.loaded }) w

/-- A PASS instruction: the checks of R105 at issue, the chain rule, and a place in a half's pass queue. A continuing pass
whose chain is in no half, since the chain's rerun was abandoned as well, has nothing to continue and is refused by the
same code (DESIGN CHOICE, log 136). -/
def issuePass (e k : Nat) (s : Slot) (i : Nat) (w : Work) : Work :=
  let n := s.ctx
  let d := descAt w e s i
  if spmRangeOk w.toBlk n e (descAddr s i) 32 = false then refuseProgram e n 0x08 w
  else match passCheck w.toBlk n (activePlace w.toBlk n) e d false false with
    | some c => refuseProgram e n c w
    | none =>
      if chainRule s d = false ∨ (pStart d = false ∧ (chainHalf (engineOf w.toBlk e) n).isNone = true) then
        refuseProgram e n 0x09 w
      else match halfFor w.toBlk (engineOf w.toBlk e) n d with
        | none => w
        | some h =>
          let r : PassReq := { owner := e, ctx := n, desc := d, queued := false, mark := 0, cur := none, charged := false,
                               ord := s.charge, stamp := w.issues }
          let l : LastPass := { drains := pDrainKind d != 0, lsb := pAccLsb d, bf := pBf d, split := pSplit d,
                                status := none, ord := s.charge }
          useDp e k i (modSlot e k (fun s => { s with last := some l }) (placeNext e h r (issueStamp w)))

def passRow (kind e : Nat) (w : Work) : Work := issueRow e (passSel e kind) (issuePass e) w

/-! ## The tile queue (04 R101, R102) -/

/-- The mark that takes effect. -/
def effectiveMark (b : Blk) (n i d : Nat) : Nat :=
  if pPreempt d = false ∨ pASrc d = 1 then 0 else min (iMark i) (ctxGet b n 9)

def issuePassq (e k : Nat) (s : Slot) (i : Nat) (w : Work) : Work :=
  let n := s.ctx
  let d := descAt w e s i
  let q := quadOf e
  if spmRangeOk w.toBlk n e (descAddr s i) 32 = false then refuseProgram e n 0x08 w
  else match passCheck w.toBlk n (activePlace w.toBlk n) e d true false with
    | some c => refuseProgram e n c w
    | none =>
      if (match s.last with | some l => !l.drains | none => false) then refuseProgram e n 0x09 w
      else
        let r : PassReq := { owner := e, ctx := n, desc := d, queued := true, mark := effectiveMark w.toBlk n i d,
                             cur := none, charged := false, ord := s.charge, stamp := w.issues }
        let l := tabGet [] w.tileq q ++ [r]
        let w := { issueStamp w with tileq := tabSet [] w.tileq q l }
        let w := quadPut q 0x30 (max (quadGet w.toBlk q 0x30) l.length) w
        useDp e k i w

/-- Engine e may take a queue entry (02 R50, 04 R102). -/
def mayTake (b : Blk) (e : Nat) (r : PassReq) : Bool :=
  let q := quadOf e
  let p := quadOf r.owner
  (halfFor b (engineOf b e) r.ctx r.desc).isSome &&
  (match r.mark with
   | 0 => r.owner == e
   | 1 => q == p
   | _ => q == p || ((meshNeighbours p).contains q && !quadBusy b q && quadGet b p 0xA0 == 0 && b.dev.state != .squall))

/-- A slot has a pass to issue: one returned to it, or a PASS as its next instruction, whether or not it finds room. -/
def hasPass (w : Work) (e : Nat) (s : Slot) : Bool :=
  s.live && !s.stopping && decide ((sliceOf w.toBlk s.ctx).startAt ≤ w.time.beat) &&
  (!s.returned.isEmpty || (s.wait == .ready && iOp (fetchWord w e s.pc) == 3 && (iCheck (fetchWord w e s.pc)).isNone))

/-- The slots of an engine have no pass to issue. -/
def noPassToIssue (w : Work) (e : Nat) : Bool := (engineOf w.toBlk e).slots.all (fun s => !hasPass w e s)

/-- The pass of a list that is served first: the service order of 02 R36, then the order of issue. -/
def firstServed (b : Blk) (l : List PassReq) : Option PassReq :=
  l.foldl (fun best r => match best with
    | none => some r
    | some x => if above b r.ctx x.ctx || (r.ctx == x.ctx && decide (r.stamp < x.stamp)) then some r else some x) none

/-- TILE_TAKE: of all queues' entries that are open to engine e, it takes the one served first, when that is in the queue of
quad q (04 R102). -/
def takeTile (e q : Nat) (w : Work) : Work :=
  if engineRuns w.toBlk e && noPassToIssue w e then
    match firstServed w.toBlk ((w.tileq.flatMap (·.2)).filter (mayTake w.toBlk e)) with
    | none => w
    | some r =>
      if quadOf r.owner ≠ q then w
      else match halfFor w.toBlk (engineOf w.toBlk e) r.ctx r.desc with
        | none => w
        | some h => placeNext e h r { w with tileq := tabMod [] w.tileq q (fun l => l.erase r) }
  else w

/-! ## Window checks (05 R109) -/

def windowCheck (w : Work) (e d : Nat) : Option Nat :=
  let u := pAAddr d
  let h := ringHeader w e u
  let c := hCursor h
  let cols := (pixelsRead d h c).map (·.1)
  if hVersion h ≠ 1 ∨ hReservedOk h = false then some 0x01
  else if hFmt h ≠ pFmtA d then some 0x03
  else if pAPitch d ≠ hSlotUnits h ∨ hOutW h < c.x + pM d ∨ hGroups h ≤ c.ng ∨
      ((pOpKind d = 1 ∨ pOpKind d = 3 ∨ pOpKind d = 4) ∧ hGroups h ≠ hG h) then some 0x07
  else if 2048 < u + 1 + hRows h * hSlotUnits h ∨ hSlotUnits h < hG h * hPlaneUnits h ∨
      cols.any (fun x => decide (x < hX0 h) || decide (hX0 h + hSlotW h ≤ x)) = true ∨
      hRows h < (rowsRead d h c.y).length then some 0x08
  else if pStart d ≠ decide (c.ks = 0) ∨ setsTotal d h < c.ks + pSets d then some 0x09
  else none

/-- Every row that a pass reads from its cursor has been written (05 R110). -/
def rowsReady (w : Work) (e d : Nat) (c : Cursor) : Bool :=
  let h := ringHeader w e (pAAddr d)
  ((pixelsRead d h c).map (·.2)).eraseDups.all (fun y => decide (c.frameBase + y < hRowsIn h))

/-! ## Start -/

/-- Half h of an engine is free for a pass. -/
def halfFree (g : Engine) (h : Bool) (d : Nat) : Bool :=
  let x := halfOf g h
  let o := halfOf g (!h)
  let whole := fun (y : Half) => (match y.run with | some r => !pSplit r.req.desc | none => false) ||
    (match y.kept with | some r => !pSplit r.req.desc | none => false)
  x.run.isNone && !whole o && (pSplit d || (o.run.isNone && o.kept.isNone))

/-- The passes that wait to start on an engine: the next ones of both halves. -/
def waitingNext (g : Engine) : List PassReq := g.h0.next.toList ++ g.h1.next.toList

/-- Pass r may start on half h. The half is free, and its chain continues or none is open (04 R93). A pass that continues no
chain stands back behind a higher pass that waits for the array (03 R75), and behind an abandoned chain that waits for its
rerun and stands as high on the half, or higher on the other (03 R79). -/
def mayStart (b : Blk) (g : Engine) (h : Bool) (r : PassReq) : Bool :=
  let x := halfOf g h
  let o := halfOf g (!h)
  halfFree g h r.desc && (x.rerun.isEmpty || !x.second) &&
  (match x.kept with
   | some k => !pStart r.desc && k.req.ctx == r.ctx
   | none => pStart r.desc && (waitingNext g).all (fun p => !above b p.ctx r.ctx) &&
     (x.waiting.filterMap (·.head?)).all (fun p => above b r.ctx p.ctx) &&
     (o.waiting.filterMap (·.head?)).all (fun p => !above b p.ctx r.ctx))

/-- The pass that half h would start next: its own next pass, or of that and a SPLIT one that waits behind the other half,
which is busy, the one served first (03 R75). -/
def nextFor (b : Blk) (g : Engine) (h : Bool) : Option PassReq :=
  let x := halfOf g h
  let o := halfOf g (!h)
  let free := x.run.isNone && x.kept.isNone && (o.run.isSome || o.kept.isSome)
  firstServed b (x.next.toList ++ (o.next.filter (fun r => free && pSplit r.desc && pStart r.desc)).toList)

/-- The charge of a pass (04 R86, 15 R387). -/
def passCharge (d : Nat) : Nat := if pDup d then 2 * pLength d else pLength d

/-- The finished-tile entries a context holds on its engine, and its quota there (06 R135, R136). -/
def entriesOf (b : Blk) (e n : Nat) : List QEntry := (engineOf b e).vec.queue.filter (fun q => q.ctx == n)
def quotaOf (b : Blk) (e n : Nat) : Nat := ((tabFind (engineOf b e).vec.allot n).map (·.quota)).getD (b2n (isGarnet n))

/-- Which store and word an uncorrectable operand word of a pass names: from 2²⁰ on a byte of the line buffer, below it one of
the owner's scratchpad. -/
def operandUnit (e : Nat) (r : PassReq) (a : Nat) : Nat × Nat :=
  if 0x100000 ≤ a then (0x100 + e, (a - 0x100000) / 8 * 8) else (r.owner, a / 8 * 8)

/-- Compute the pass that runs on a half, from its captured cursor, unless its feeder waits for a row (03 R59, 05 R110) or a
read is held back (04 R94). The last set ends in ACTIVE (03 R58). A malformed block or an uncorrectable operand word
abandons the pass (03 R78, 05 R132, 07 R179). -/
def computeRun (e : Nat) (h : Bool) (ue : Option Nat) (w : Work) : Work :=
  let x := halfOf (engineOf w.toBlk e) h
  match x.run with
  | none => w
  | some run =>
    let r := run.req
    let d := r.desc
    let window := pASrc d == 1
    let hdr := if window then ringHeader w e (pAAddr d) else []
    let c := r.cur.getD (hCursor hdr)
    if run.acc.isSome || (window && !rowsReady w e d c) || heldBack w.toBlk r.owner r.stamp (passReads d) then w
    else
      let bad := badBlocks w d r.owner
      if 0 < bad then
        let w := quadAdd (quadOf e) 0x42 bad w
        abandonHalf e h (raiseBy e 1 0x022 e (badBlockAt w d r.owner) w)
      else match ue with
        | some a =>
          let u := operandUnit e r a
          abandonHalf e h (raiseBy e 1 0x030 u.1 u.2 (quadAdd (quadOf r.owner) 0x64 1 w))
        | none =>
          let acc := passAcc w x.loaded d r.owner hdr c (x.kept.bind (·.acc))
          let last := if pSets d ≤ 1 then x.loaded else weightSet w d r.owner (pSets d - 1)
          modHalf e h (fun x => { x with run := some { run with acc := some acc }, active := last, loaded := [] }) w

/-- A pass begins on a half: the first set is in NEXT, loaded ahead or now (03 R58), and the pass goes on as far as it can. -/
def runPass (e : Nat) (h : Bool) (r : PassReq) (ue : Option Nat) (w : Work) : Work :=
  let d := r.desc
  let run : PassRun := { req := r, acc := none, len := pLength d, dead := false }
  let front := fun (x : Half) =>
    if x.loaded = [] ∧ heldBack w.toBlk r.owner r.stamp (weightReads d) = false then weightSet w d r.owner 0 else x.loaded
  let w := modHalf e h (fun x => { x with run := some run, loaded := front x }) w
  let quads := Nat.lor (2 ^ quadOf e) (if pDup d then 2 ^ quadOf (partnerOf e) else 0)
  computeRun e h ue (modSlice r.ctx (fun s => { s with quads := Nat.lor s.quads quads }) w)

/-- A pass leaves the queue of the half it waited on. Half h keeps NEXT's contents for it when it waited there. -/
def takeNext (e : Nat) (h : Bool) (r : PassReq) (w : Work) : Work :=
  let own := (halfOf (engineOf w.toBlk e) h).next = some r
  if own then modHalf e h (fun x => { x with next := none }) w
  else modHalf e (!h) Half.dropNext (modHalf e h (fun x => { x with loaded := [] }) w)

/-- The lower of two codes, where both checks fail (log 7). -/
def lowerCode (a b : Option Nat) : Option Nat :=
  match a, b with
  | some x, some y => some (min x y)
  | some x, none => some x
  | none, y => y

/-- Start a pass on a half (04 R92): the length of its chain and the ring's checks, the queue entry, the charge. -/
def startPass (e : Nat) (h : Bool) (r : PassReq) (ue : Option Nat) (w : Work) : Work :=
  let d := r.desc
  let o := r.owner
  let n := r.ctx
  let x := halfOf (engineOf w.toBlk e) h
  let p := activePlace w.toBlk n
  let sum := x.chain.foldl (fun a q => a + pLength q.desc) (pLength d)
  let held := entriesOf w.toBlk o n
  match lowerCode (lengthCheck w.toBlk n p (pPreempt d) sum) (if pASrc d = 1 then windowCheck w e d else none) with
  | some c => refuseProgram o n c w
  | none =>
    if pDrainKind d = 2 ∧ held.any (fun q => q.tile == pTile d) = true then refuseProgram o n 0x10 w
    else if pDrainKind d = 2 ∧ quotaOf w.toBlk o n ≤ held.length then w
    else if ctxGet w.toBlk n (0x11 + 16 * p) < chargeOf w.toBlk o n + passCharge d then budgetOverrun o n w
    else
      let hdr := if pASrc d = 1 then ringHeader w e (pAAddr d) else []
      let c := hCursor hdr
      let run := { r with cur := if pASrc d = 1 then some c else none, charged := true }
      let w := charge o n (passCharge d) w
      let q : QEntry := { ctx := n, tile := pTile d, m := pM d, n := pN d, fmt := pFmtOut d, status := none, vals := [] }
      let w := doIf (pDrainKind d == 2) (modEngine o (fun g => { g with vec.queue := g.vec.queue ++ [q] })) w
      let w := doIf (pDrainKind d == 2) (fun w => quadPut (quadOf o) 0x53
        (max (quadGet w.toBlk (quadOf o) 0x53) (engineOf w.toBlk o).vec.queue.length) w) w
      let w := doIf (quadOf o != quadOf e) (fun w => quadAdd (quadOf o) 0x32 1 (quadAdd (quadOf e) 0x31 1 w)) w
      let w := takeNext e h r w
      let w := doIf (pASrc d == 1) (storeCursor e (pAAddr d) (advanceCursor d hdr c)) w
      retireUpdate e d (runPass e h run ue w)

/-- A pass returned by a preemption goes back to its half, when that is free (04 R81). -/
def reissue (e : Nat) (h : Bool) (w : Work) : Work :=
  let g := engineOf w.toBlk e
  let fits := fun (s : Slot) => match s.returned with
    | r :: _ => s.live && halfFor w.toBlk g s.ctx r.desc == some h
    | [] => false
  match bestSlot w.toBlk g fits with
  | none => w
  | some k =>
    match (slotOf g k).returned with
    | [] => w
    | r :: rest => placeNext e h r (modSlot e k (fun s => { s with returned := rest }) w)

/-- The next pass of a half starts, if it may. -/
def startNext (e : Nat) (h : Bool) (ue : Option Nat) (w : Work) : Work :=
  let w := if (halfOf (engineOf w.toBlk e) h).next.isNone then reissue e h w else w
  let g := engineOf w.toBlk e
  match nextFor w.toBlk g h with
  | none => w
  | some r =>
    if pStart r.desc = false ∧ holdsChain (halfOf g h) r.ctx = false then refuseProgram r.owner r.ctx 0x09 w
    else if mayStart w.toBlk g h r then startPass e h r ue w else w

/-- PASS_START: the rerun in progress goes on first; otherwise the half's next pass, if it may start. -/
def startOn (e : Nat) (h : Bool) (ue : Option Nat) (w : Work) : Work :=
  let g := engineOf w.toBlk e
  let x := halfOf g h
  if engineRuns w.toBlk e = false then w
  else match (if x.second then x.rerun else []) with
    | [] => startNext e h ue w
    | r :: rest =>
      if halfFree g h r.desc then retireUpdate e r.desc (runPass e h r ue (modHalf e h (fun x => { x with rerun := rest }) w))
      else w

/-- The abandoned chain of a half that is rerun first: in the service order, then the oldest. -/
def nextRerun (b : Blk) (x : Half) : Option (List PassReq) :=
  (firstServed b (x.waiting.filterMap (·.head?))).bind (fun r => x.waiting.find? (fun l => l.head? == some r))

/-- PASS_RERUN (03 R79): an abandoned chain starts again from its first pass, once, unless a pass of a higher context waits. -/
def rerunOn (e : Nat) (h : Bool) (ue : Option Nat) (w : Work) : Work :=
  let g := engineOf w.toBlk e
  let x := halfOf g h
  match nextRerun w.toBlk x with
  | none => w
  | some [] => w
  | some (r :: rest) =>
    let waits := (waitingNext g).any (fun p => above w.toBlk p.ctx r.ctx)
    if engineRuns w.toBlk e && !x.second && x.kept.isNone && halfFree g h r.desc && !waits then
      let w := quadAdd (quadOf e) 0x25 1 w
      let w := doIf (pDup r.desc) (quadAdd (quadOf (partnerOf e)) 0x25 1) w
      let begin_ := fun (x : Half) =>
        { x with waiting := x.waiting.erase (r :: rest), rerun := rest, second := true, chain := [], loaded := [] }
      retireUpdate e r.desc (runPass e h r ue (modHalf e h begin_ w))
    else w

/-! ## Completion -/

/-- Write a drained tile to its target (03 R77, 04 R89, 06 R136). -/
def deliverTile (r : PassReq) (tile : List Nat) (st : Nat) (w : Work) : Work :=
  let d := r.desc
  if pDrainKind d = 1 then storeTile d r.owner tile st w
  else
    let fill := fun (q : QEntry) => if q.ctx = r.ctx ∧ q.tile = pTile d then { q with status := some st, vals := tile } else q
    modEngine r.owner (fun g => { g with vec.queue := g.vec.queue.map fill }) w

/-- The issuing slot learns the status of its most recent pass (04 R85). -/
def tellSlot (r : PassReq) (st : Nat) (w : Work) : Work :=
  match slotIx w.toBlk r.owner r.ctx with
  | none => w
  | some k => modSlot r.owner k (fun s =>
      let last := s.last.map (fun l => if r.queued = false ∧ l.ord = r.ord then { l with status := some st } else l)
      { s with last := last, progress := w.time.beat }) w

/-- The array counters of a drained pass (03 R73). -/
def countDrain (q st : Nat) (split : Bool) (w : Work) : Work :=
  let w := quadAdd q 0x20 1 w
  let w := doIf (stAccSat st) (quadAdd q 0x21 1) w
  let w := doIf (stOutSat st) (quadAdd q 0x22 1) w
  let w := doIf (stSpecial st != 0) (quadAdd q 0x23 1) w
  doIf split (quadAdd q 0x26 1) w

/-- The accumulators that a pass leaves, with what has upset the array while it ran. -/
def upsetRun (d : Nat) (u : Upset) (a : Accs) : Accs :=
  match u with
  | .acc i delta => upsetAcc d i delta a
  | _ => a

/-- A mismatch of the duplicate of a pass (15 R387): both chains are abandoned, and the fault is raised against both quads. -/
def dupMismatch (e : Nat) (h second : Bool) (w : Work) : Work :=
  let p := partnerOf e
  let w := quadAdd (quadOf p) 0xA5 1 (quadAdd (quadOf e) 0xA5 1 w)
  let w := abandonHalf e h (quadAdd (quadOf p) 0x24 1 w)
  mismatch 0x013 p e (quadOf p) second (mismatch 0x013 e p (quadOf e) second w)

/-- A pass that drains ends (03 R77, 15 R386, R387). -/
def drainRun (e : Nat) (h : Bool) (r : PassReq) (a : Accs) (twin : Bool) (w : Work) : Work :=
  let d := r.desc
  let q := quadOf e
  let x := halfOf (engineOf w.toBlk e) h
  let t := drainTile d h a
  let skipped := stAccSat t.2 || stSpecial t.2 != 0
  if hasSums d = true ∧ skipped = false ∧ sumsMismatch d a = true then
    mismatch 0x012 e (b2n h) q x.second (abandonHalf e h (quadAdd q 0xA4 1 w))
  else if pDup d = true ∧ twin = false then dupMismatch e h x.second w
  else
    let w := doIf (hasSums d && skipped) (quadAdd q 0xA6 1) w
    let w := modHalf e h (fun x => { x with run := none, kept := none, chain := [], second := false }) w
    let w := modEngine e (fun g => { g with status := t.2 }) w
    let w := countDrain q t.2 (pSplit d) (deliverTile r t.1 t.2 w)
    let w := tellSlot r t.2 w
    doIf (pSemEn d) (signalSync r.owner (pSem d) 1) w

/-- A pass that keeps its accumulators ends (03 R61); of a slice that has been stopped nothing goes on. -/
def keepRun (e : Nat) (h : Bool) (run : PassRun) (a : Accs) (w : Work) : Work :=
  if run.dead then modHalf e h Half.cleared w
  else tellSlot run.req 0 (modHalf e h (fun x =>
    { x with run := none, kept := some { run with acc := some a }, chain := x.chain ++ [run.req] }) w)

/-- PASS_COMPLETE: the pass of a half ends; one that is stalled first reads what is there by now, and stays when it still
cannot. The duplicate of a pass agrees with it unless an upset has struck either. -/
def completeOn (e : Nat) (h : Bool) (u : Upset) (w : Work) : Work :=
  let w := computeRun e h (match u with | .word a => some a | _ => none) w
  match (halfOf (engineOf w.toBlk e) h).run with
  | none => w
  | some run =>
    match run.acc with
    | none => w
    | some a0 =>
      let r := run.req
      let d := r.desc
      let a := upsetRun d u a0
      let twin := u != .dup && drainTile d h a == drainTile d h a0
      retireUpdate e d (if pDrainKind d = 0 then keepRun e h run a w else drainRun e h r a twin w)

/-! ## The rows -/

def isEngine (e : Nat) (s : State) : Bool := decide (e < engineCount s.blk.fuses)

end Sys2Proof.Machine
end

