-- ==== Sys2Proof/Machine/Control.lean ====
section
/-! DEFINITION. The control instructions that hand no work to a unit (04 R82 to R86, R95 to R97), and the moments at
which a slot that waits goes on. -/

namespace Sys2Proof.Machine

/-! ## NOP, SETDP, MARK, LOOP, BRS -/

def issueNop (_k : Nat) (_s : Slot) (_i : Nat) (w : Work) : Work := w

def issueSetdp (e k : Nat) (_s : Slot) (i : Nat) (w : Work) : Work := modSlot e k (fun s => { s with dp := iAddr i }) w

def issueMark (e _k : Nat) (_s : Slot) (i : Nat) (w : Work) : Work :=
  send (.trace e (iTag i)) (modEngine e (fun g => { g with tag := iTag i }) w)

/-- LOOP (04 R84): the body lies inside every loop that is active and in the store. -/
def issueLoop (e k : Nat) (s : Slot) (i : Nat) (w : Work) : Work :=
  let last := s.pc + iBody i
  if (nth none s.loops (iLc i)).isSome = true ∨ insideLoops s last = false ∨ fetchOk w.toBlk e last = false then
    refuseProgram e s.ctx 0x0D w
  else
    let l : LoopCtr := { left := iCount i - 1, first := s.pc + 1, last := last }
    modSlot e k (fun s => { s with loops := setNth s.loops (iLc i) (some l) }) w

/-- BRS (04 R85). -/
def issueBrs (e k : Nat) (s : Slot) (i : Nat) (w : Work) : Work :=
  let target := s.pc + iOffset i + 1
  match (match s.last with | some l => (if l.drains then l.status else none) | none => none) with
  | none => refuseProgram e s.ctx 0x09 w
  | some st =>
    if insideLoops s target = false ∨ fetchOk w.toBlk e target = false then refuseProgram e s.ctx 0x0D w
    else if brsHolds (iCond i) st then modSlot e k (fun s => { s with pc := target }) w
    else w

/-! ## END (04 R82) -/

def issueEnd (e k : Nat) (s : Slot) (_i : Nat) (w : Work) : Work :=
  if (match s.last with | some l => !l.drains | none => false) then refuseProgram e s.ctx 0x09 w
  else modSlot e k (fun s => { s with wait := .ending }) w

/-- A slice's work is complete on all its engines (02 R33): it completed in this beat; one that is withheld does not count
as completed for a resumption (16 R423). -/
def sliceDone (n : Nat) (w : Work) : Work :=
  let sl := sliceOf w.toBlk n
  let pred := ctxGet w.toBlk n 7
  let before := if pred < 1024 then (ctxRun w.toBlk pred).chainWork else []
  let good := !sl.withheld
  let units := (maskQuads sl.quads).foldl (fun t q => tabInsert t q w.time.beat) before
  let w := modCtx n (fun c => { c with chainWork := units }) w
  let w := doIf good (modCtx n (fun c => { c with lastDone := w.time.beat, lastRel := sl.rel })) w
  modSlice n (fun s => { s with doneAt := some w.time.beat }) w

/-- SLICE_END: everything the slice issued on the engine has completed (04 R82); unconsumed entries are freed and
counted (06 R137). -/
def sliceEnd (e n : Nat) (w : Work) : Work :=
  match slotIx w.toBlk e n with
  | none => w
  | some k =>
    let s := slotOf (engineOf w.toBlk e) k
    if s.wait == .ending && !passesOut w.toBlk e n && !chainsOut w.toBlk e n && !dmaOut w.toBlk e n then
      let left := (entriesOf w.toBlk e n).length
      let w := doIf (decide (0 < left)) (quadAdd (quadOf e) 0x54 left) w
      let w := freeEntries e n w
      let w := modSlot e k (fun _ => { Slot.idle with ctx := n }) w
      let w := modSlice n (fun s => { s with open_ := s.open_.filter (· != e) }) w
      if (sliceOf w.toBlk n).open_.isEmpty then sliceDone n w else w
    else w

/-! ## Semaphores and barriers (04 R96, R97) -/

/-- Cycles of a synchronisation operation: 12, or 40 to the other die (04 R86). -/
def syncCycles (e i : Nat) : Nat := if iDie i = e / 128 then 12 else 40

def addWaiter (o : Nat) (x : Waiter) (w : Work) : Work :=
  { w with syncs := tabMod none w.syncs o (fun s => s.map (fun s => { s with waiters := s.waiters ++ [x] })) }

def issueWait (e k : Nat) (s : Slot) (i : Nat) (w : Work) : Work :=
  if syncIssueOk w.toBlk s.ctx (iSync i) .semaphore = false then refuseProgram e s.ctx 0x0C w
  else
    let w := addWaiter (iSync i) { engine := e, ctx := s.ctx, amount := iAmount i } w
    modSlot e k (fun s => { s with wait := .sem (iSync i) (iAmount i), charge := s.charge + syncCycles e i }) w

/-- WAIT_RETURN: the first waiter's count suffices. -/
def waitReturn (e n : Nat) (w : Work) : Work :=
  match slotIx w.toBlk e n with
  | none => w
  | some k =>
    match (slotOf (engineOf w.toBlk e) k).wait with
    | .sem o a =>
      match syncOf w.toBlk o with
      | none => w
      | some s =>
        match s.waiters with
        | x :: rest =>
          if x.engine = e ∧ x.ctx = n ∧ a ≤ s.count then
            let w := { w with syncs := tabSet none w.syncs o (some { s with count := s.count - a, waiters := rest }) }
            modSlot e k (fun s => { s with wait := .ready }) w
          else w
        | [] => w
    | _ => w

def issueSignal (e _k : Nat) (s : Slot) (i : Nat) (w : Work) : Work :=
  if syncIssueOk w.toBlk s.ctx (iSync i) .semaphore = false then refuseProgram e s.ctx 0x0C w
  else signalSync e (iSync i) (iAmount i) w

/-- An arrival at a barrier (04 R97): when the participant count is reached, the arrival count returns to 0 at once and the
engines that wait are let go. -/
def SyncObj.arrive (s : SyncObj) (x : Waiter) : SyncObj :=
  if s.count + 1 < s.init then { s with count := s.count + 1, waiters := s.waiters ++ [x] }
  else { s with count := 0, waiters := [], freed := s.freed ++ s.waiters ++ [x] }

def issueBarrier (e k : Nat) (s : Slot) (i : Nat) (w : Work) : Work :=
  if syncIssueOk w.toBlk s.ctx (iSync i) .barrier = false then refuseProgram e s.ctx 0x0C w
  else
    let x : Waiter := { engine := e, ctx := s.ctx, amount := 0 }
    let w := { w with syncs := tabMod none w.syncs (iSync i) (fun o => o.map (fun o => o.arrive x)) }
    modSlot e k (fun s => { s with wait := .barrier (iSync i), charge := s.charge + syncCycles e i }) w

/-- A waiter goes on. -/
def wakeWaiter (x : Waiter) (w : Work) : Work :=
  match slotIx w.toBlk x.engine x.ctx with
  | none => w
  | some k => modSlot x.engine k (fun s => { s with wait := .ready }) w

/-- BARRIER_RELEASE: the engines that a full count has let go resume. -/
def barrierRelease (o : Nat) (w : Work) : Work :=
  match syncOf w.toBlk o with
  | none => w
  | some s => forAll s.freed wakeWaiter { w with syncs := tabSet none w.syncs o (some { s with freed := [] }) }

/-! ## FENCE (04 R82) -/

def issueFence (e k : Nat) (_s : Slot) (i : Nat) (w : Work) : Work :=
  modSlot e k (fun s => { s with wait := .fence (iMask i) }) w

/-- FENCE_RETURN: the selected kinds of the slice's work on the engine have completed. -/
def fenceReturn (e n : Nat) (w : Work) : Work :=
  match slotIx w.toBlk e n with
  | none => w
  | some k =>
    match (slotOf (engineOf w.toBlk e) k).wait with
    | .fence m =>
      let busy := (bit m 0 && passesOut w.toBlk e n) || (bit m 1 && chainsOut w.toBlk e n) || (bit m 2 && dmaOut w.toBlk e n)
      if busy then w else modSlot e k (fun s => { s with wait := .ready }) w
    | _ => w

/-! ## Reserved opcodes -/

/-- An opcode of 0x0E to 0x3F: `iCheck` refuses it with code 0x02 before any effect. -/
def reservedSel : Work → Slot → Nat → Bool := fun _ _ i => decide (0x0E ≤ iOp i)

end Sys2Proof.Machine
end

