-- ==== Sys2Proof/Machine/Dma.lean ====
section
/-! DEFINITION. DMA transfers: the checks of 04 R98 to R100, R105 and 07 R159, R173, the copy, broadcast and fill, held
line-buffer writes (05 R110), and completion (04 R99). -/

namespace Sys2Proof.Machine

/-! ## Checks -/

/-- The quads on which a context may run: its placement in force, or all its placements when none is. -/
def someQuads (b : Blk) (n : Nat) : Nat :=
  if activePlace b n < 4 then activeQuads b n else (List.range 4).foldl (fun m p => Nat.lor m (placeQuads b n p)) 0

/-- The quads a scratchpad or line-buffer range of a transfer may lie on: the placement's, and those of the successors,
which name the context as CHAIN_PREDECESSOR (04 R99). -/
def dmaQuads (b : Blk) (n p : Nat) : Nat :=
  (List.range 960).foldl (fun m k => if ctxGet b k 7 = n then Nat.lor m (someQuads b k) else m) (placeQuads b n p)

/-- A scratchpad or line-buffer source: inside the quads of R99, and within the access scope (07 R159), which with "any
core" is the context's or its predecessor's placement and otherwise the issuing engine's own quad; 07 R159 names it
"subject also to R99", so both hold (log 14). -/
def sourceOk (b : Blk) (n p e src : Nat) : Bool :=
  let pred := ctxGet b n 7
  (dmaQuads b n p).testBit (quadOf src) &&
  (if (if holdsAdmission b n then (ctxRun b n).anyCore else (odGet b 0x2610 (n / 64 + 1)).testBit (n % 64)) then
    (placeQuads b n p).testBit (quadOf src) || (decide (pred < 1024) && (someQuads b pred).testBit (quadOf src))
  else quadOf src == quadOf e)

/-- The span of rows. -/
def dSpan (d stride : Nat) : Nat := (dRows d - 1) * stride + dRowBytes d

def lbRangeOk (a len : Nat) : Bool := decide (a + len ≤ 131072)

/-- The engines of a group of an image (04 R100). -/
def groupMask (b : Blk) (n p g : Nat) : Nat :=
  match imageOf b n p with
  | some i => nth 0 i.groups g
  | none => 0

/-- The engines a descriptor writes to. -/
def dmaTargets (b : Blk) (n p d : Nat) : List Nat :=
  if dKind d = 1 then maskList 256 (groupMask b n p (dDstEngine d % 16)) else [dDstEngine d]

/-- A destination range in its store. -/
def dstRangeOk (b : Blk) (n p d : Nat) : Bool :=
  let len := dSpan d (dDstStride d)
  if dDst d = 0 then (dmaTargets b n p d).all (fun t => spmRangeOk b n t (dDstAddr d) len)
  else dDst d != 1 || lbRangeOk (dDstAddr d) len

def srcRangeOk (b : Blk) (n d : Nat) : Bool :=
  let len := dSpan d (dSrcStride d)
  dKind d == 2 || (if dSrc d = 0 then spmRangeOk b n (dSrcEngine d) (dSrcAddr d) len
    else dSrc d != 1 || lbRangeOk (dSrcAddr d) len)

/-- Space, kind, alignment and scope (code 0x0B). -/
def dmaSpacesOk (b : Blk) (n p e d : Nat) (atLoad : Bool) : Bool :=
  decide (dKind d < 3) && decide (dSrc d < 3) && decide (dDst d < 4) && (dKind d != 1 || decide (dDst d < 2)) &&
  dRowBytes d % 64 == 0 && dDstStride d % 64 == 0 && (dDst d == 3 || dDstAddr d % 64 == 0) &&
  dSrcAddr d % 64 == 0 && dSrcStride d % 64 == 0 &&
  (dKind d == 2 || (if dSrc d = 2 then memReadOk b n (dSrcAddr d) (dSpan d (dSrcStride d))
    else sourceOk b n p e (dSrcEngine d))) &&
  (match dDst d with
   | 2 => memWriteOk b n (dDstAddr d) (dSpan d (dDstStride d))
   | 3 => dRows d == 1 && dSrc d == 0 && dKind d == 0 && dSrcEngine d == e && outputOk b n e (dDstAddr d) (dRowBytes d) (!atLoad)
   | _ => dKind d == 1 || (dmaQuads b n p).testBit (quadOf (dDstEngine d)))

/-- The checks of a DMA descriptor (04 R98 to R100, R105). Bits 7:4 of DST_ENGINE that are not 0 in a broadcast are taken
as a reserved field, code 0x01 (DESIGN CHOICE, log 132: 04 R98 says that they are 0 and names no code). -/
def dmaCheck (b : Blk) (n p e d : Nat) (atLoad : Bool) : Option Nat :=
  if dVersion d ≠ 1 ∨ dReservedOk d = false ∨ (dKind d = 1 ∧ 16 ≤ dDstEngine d) then some 0x01
  else if dRowBytes d < 64 ∨ (dKind d ≠ 2 ∧ dFill d ≠ 0) ∨ (dKind d = 2 ∧ dSrc d ≠ 0) ∨ (dSrc d = 2 ∧ dSrcEngine d ≠ 0) then some 0x07
  else if srcRangeOk b n d = false ∨ dstRangeOk b n p d = false then some 0x08
  else if dmaSpacesOk b n p e d atLoad = false then some 0x0B
  else if dSemEn d = true ∧ (if atLoad then syncLoadOk b n (dSem d) .semaphore else syncIssueOk b n (dSem d) .semaphore) = false then some 0x0C
  else if dKind d = 1 ∧ ((dmaTargets b n p d).isEmpty = true ∨ (dmaTargets b n p d).any (fun t => !(placeQuads b n p).testBit (quadOf t)) = true) then some 0x0E
  else none

/-! ## The transfer -/

/-- The bytes of row r of the source. -/
def srcRow (w : Work) (d r : Nat) : List Byte :=
  if dKind d = 2 then (List.range (dRowBytes d / 4)).flatMap (fun _ => leBytes 4 (dFill d))
  else
    let a := dSrcAddr d + r * dSrcStride d
    let key := match dSrc d with | 0 => spmKey (dSrcEngine d) a | 1 => lbKey (dSrcEngine d) a | _ => a
    rd w key (dRowBytes d)

/-- Whether a copy goes through the issuing engine's cache part (07 R161). -/
def throughCache (b : Blk) (e d : Nat) : Bool :=
  dKind d == 0 && dSrc d == 2 && dDst d == 0 && dDstEngine d == e && quadGet b (quadOf e) 0x60 != 0 &&
  (match poolOf b (dSrcAddr d) (dSpan d (dSrcStride d)) with
   | some p => odGet b (0x2640 + p) 6 == 1
   | none => false)

/-- Count what a transfer uses of its declaration (02 R48). Of a copy through the cache part only the missed lines are read
from the channel and cross the network, each in a packet of its own (07 R161; DEDUCED, log 133); the rows of another
transfer go in packets of up to 256 bytes (04 R99). A row to an output stream counts on no link, since no rule gives a route
to the output unit (DESIGN CHOICE, log 134). -/
def countDma (e n d : Nat) (targets : List Nat) (w : Work) : Work :=
  if isGarnet n && dDst d == 3 then w
  else
    let units := dRows d * (dRowBytes d / 64)
    let missed := if throughCache w.toBlk e d then
        (List.range (dRows d)).foldl (fun (p : Nat × Work) r =>
          let c := cacheRead e (dSrcAddr d + r * dSrcStride d) (dRowBytes d) p.2
          (p.1 + c.1, c.2)) (0, w)
      else (units, w)
    let packets := if throughCache w.toBlk e d then missed.1 else dRows d * ceilDiv (dRowBytes d) 256
    let w := missed.2
    let w := doIf (dKind d != 2 && dSrc d == 2) (countBursts n (memChannel (dSrcAddr d)) missed.1) w
    let w := doIf (dDst d == 2) (countBursts n (memChannel (dDstAddr d)) units) w
    let from_ := if dKind d = 2 then quadOf e else if dSrc d = 2 then chanQuad (memChannel (dSrcAddr d)) else quadOf (dSrcEngine d)
    let ends := if dDst d = 2 then [chanQuad (memChannel (dDstAddr d))] else if dDst d = 3 then [] else targets.map quadOf
    countPackets n (ends.flatMap (route from_)).eraseDups packets w

/-- Row r reaches its destinations; what the line-buffer ports hold is added to the held units. -/
def writeRow (e n d : Nat) (targets : List Nat) (p : List (Nat × List Byte) × Work) (r : Nat) :
    List (Nat × List Byte) × Work :=
  let bs := srcRow p.2 d r
  let a := dDstAddr d + r * dDstStride d
  match dDst d with
  | 0 => (p.1, forAll targets (fun t w => put (spmKey t a) bs w) p.2)
  | 1 => targets.foldl (fun (p : List (Nat × List Byte) × Work) t =>
      let lo := lbKey t 0
      if p.1.any (fun u => decide (lo ≤ u.1) && decide (u.1 < lo + 0x20000)) then
        (p.1 ++ (asUnits a bs).map (fun u => (lo + 64 * u.1, u.2)), p.2)
      else
        let q := lbUnits t (asUnits a bs) p.2
        let q := (q.1, doIf (!q.1.isEmpty) (quadAdd (quadOf t) 0x40 1) q.2)
        (p.1 ++ q.1.map (fun u => (lo + 64 * u.1, u.2)), q.2)) p
  | 2 => (p.1, memStore a bs p.2)
  | _ => (p.1, outputRow e n (dDstAddr d) bs p.2)

/-- The bytes of the job's next row lie in the drain target of a pass that its engine has not seen complete (04 R94). -/
def rowHeld (b : Blk) (e : Nat) (job : DmaJob) : Bool :=
  let d := job.desc
  dKind d != 2 && dSrc d == 0 && dSrcEngine d == e &&
  heldBack b e job.stamp [(dSrcAddr d + job.next * dSrcStride d, dRowBytes d)]

/-- The rows of a transfer from its next one on, up to a row that is held back; `fuel` rows at most. -/
def dmaRows (e : Nat) : Nat → DmaJob → Work → DmaJob × Work
  | 0, job, w => (job, w)
  | k + 1, job, w =>
    if dRows job.desc ≤ job.next ∨ rowHeld w.toBlk e job = true then (job, w)
    else
      let r := writeRow e job.ctx job.desc job.targets (job.held, w) job.next
      dmaRows e k { job with held := r.1, next := job.next + 1 } r.2

/-- An uncorrectable word in a DMA source (07 R179): the transfer stops unsignalled and so does the slice. -/
def dmaUncorrectable (e n d a : Nat) (w : Work) : Work :=
  let w := if dSrc d = 2 then
      quadAdd (chanQuad (memChannel a)) (0x74 + memChannel a % 3) 1 (raiseBy e 1 0x041 (memChannel a) (memOffset a) w)
    else quadAdd (quadOf (dSrcEngine d)) 0x64 1
      (raiseBy e 1 0x030 (if dSrc d = 1 then 0x100 + dSrcEngine d else dSrcEngine d) (a / 8 * 8) w)
  stopSlice n false w

/-- A DMA instruction (04 R99, R100). -/
def issueDma (e : Nat) (ue : Option Nat) (_k : Nat) (s : Slot) (i : Nat) (w : Work) : Work :=
  let n := s.ctx
  let p := activePlace w.toBlk n
  let a := 32 * iAddr i
  let d := rdNat w (spmKey e a) 32
  if spmRangeOk w.toBlk n e a 32 = false then refuseProgram e n 0x08 w
  else match dmaCheck w.toBlk n p e d false with
    | some c => refuseProgram e n c w
    | none =>
      match ue with
      | some x => dmaUncorrectable e n d x w
      | none =>
        let targets := dmaTargets w.toBlk n p d
        let job : DmaJob := { ctx := n, desc := d, stamp := w.issues, next := 0, targets := targets, held := [] }
        let w := doIf (dDst d == 3) (modSlice n (fun s => { s with outs := Nat.lor s.outs (2 ^ outBit e (dDstAddr d)) })) w
        let r := dmaRows e (dRows d) job (issueStamp (countDma e n d targets w))
        modEngine e (fun g => { g with dma := g.dma ++ [r.1] }) r.2

/-- The row of a DMA whose descriptor has a KIND; the row of KIND 0 also refuses the reserved ones. -/
def dmaSel (e kind : Nat) : Work → Slot → Nat → Bool := fun w _ i =>
  iOp i == 6 && (let k := dKind (rdNat w (spmKey e (32 * iAddr i)) 32); k == kind || (kind == 0 && decide (3 ≤ k)))

def dmaRow (kind e : Nat) (ue : Option Nat) (w : Work) : Work := issueRow e (dmaSel e kind) (issueDma e ue) w

/-- A held unit of a transfer: written, or held behind the first unit that its port still holds. -/
def resumeUnit (p : List (Nat × List Byte) × Work) (u : Nat × List Byte) : List (Nat × List Byte) × Work :=
  let t := (u.1 - lbKey 0 0) / 0x20000
  let lo := lbKey t 0
  if p.1.any (fun x => decide (lo ≤ x.1) && decide (x.1 < lo + 0x20000)) then (p.1 ++ [u], p.2)
  else match lbUnit t ((u.1 - lo) / 64) u.2 p.2 with
    | some w => (p.1, w)
    | none => (p.1 ++ [u], p.2)

/-- The first unit that the port of engine t's line buffer holds of a list. -/
def heldAt (t : Nat) (l : List (Nat × List Byte)) : Option (Nat × List Byte) :=
  l.find? (fun u => decide (lbKey t 0 ≤ u.1) && decide (u.1 < lbKey t 0 + 0x20000))

/-- A transfer goes on as far as the ports and R94 let it. A unit that its port holds anew is counted (05 R126). -/
def dmaGoOn (e : Nat) (job : DmaJob) (w : Work) : DmaJob × Work :=
  let r := job.held.foldl resumeUnit ([], w)
  let anew := job.targets.filter (fun t => (heldAt t r.1).isSome && heldAt t r.1 != heldAt t job.held)
  let w := forAll anew (fun t w => quadAdd (quadOf t) 0x40 1 w) r.2
  dmaRows e (dRows job.desc) { job with held := r.1 } w

/-- LB_HELD_WRITE_RESUME: the held units of a job go on as far as their ports take them. -/
def dmaResume (e j : Nat) (w : Work) : Work :=
  match (engineOf w.toBlk e).dma[j]? with
  | none => w
  | some job =>
    let r := dmaGoOn e job w
    modEngine e (fun g => { g with dma := setNth g.dma j r.1 }) r.2

/-- DMA_COMPLETE: the rows that R94 held back are read once their passes are complete; once every byte is written at every
destination, and only then, the transfer is over and its semaphore is signalled (04 R99). -/
def dmaComplete (e j : Nat) (w : Work) : Work :=
  match (engineOf w.toBlk e).dma[j]? with
  | none => w
  | some job0 =>
    let r := if job0.held.isEmpty then dmaRows e (dRows job0.desc) job0 w else (job0, w)
    let job := r.1
    let w := modEngine e (fun g => { g with dma := setNth g.dma j job }) r.2
    if job.held.isEmpty && decide (dRows job.desc ≤ job.next) then
      let w := modEngine e (fun g => { g with dma := g.dma.eraseIdx j }) w
      let w := progress e job.ctx w
      doIf (dSemEn job.desc) (signalSync e (dSem job.desc) 1) w
    else w

end Sys2Proof.Machine
end

