-- ==== Sys2Proof/Machine/Vector.lean ====
section
/-! DEFINITION. The vector engine: the checks of chain descriptors and stage words (06 R138 to R148, R151, R153), the
issue, start and completion of a chain (06 R149, R152), and what its stages compute (06 R140 to R148). -/

namespace Sys2Proof.Machine

/-! ## Stage words -/

def stagesOf (w : Work) (e d : Nat) : List Nat :=
  (List.range (cStages d)).map (fun i => rdNat w (spmKey e (32 * cStagesAddr d + 8 * i)) 8)

/-- An operation that takes an operand named by SRC. -/
def gBinary (s : Nat) : Bool := let o := gOp s; (decide (2 ≤ o) && decide (o ≤ 5)) || o == 7 || o == 8
def gFunction (s : Nat) : Bool := decide (0xA ≤ gOp s) && decide (gOp s ≤ 0xE)

/-- A stage whose VALUE holds ADDR and PITCH. -/
def gHasAddr (s : Nat) : Bool := gOp s == 0xE || gOp s == 0x11 || gOp s == 0x12 || ((gBinary s || gOp s == 6) && (gSrc s == 2 || gSrc s == 5))

/-- The reserved bits of a stage word are 0. -/
def gReservedOk (s : Nat) : Bool :=
  if gOp s = 9 then fld s 31 10 == 0 else if gHasAddr s then fld s 7 0 == 0 else true

/-- Fields that a stage does not use are 0, and a column vector's PITCH is 0 (06 R139, R141). -/
def gUnusedOk (s : Nat) : Bool :=
  (gAddr2 s == 0 || gOp s == 0x12) &&
  (gAux s == 0 || gOp s == 9 || gOp s == 0xF || (gBinary s && gSrc s == 5 && gAux s == 1)) &&
  (gHasAddr s || gOp s == 9 || (gBinary s && gSrc s == 4) || gValue s == 0) &&
  (!((gBinary s || gOp s == 6) && gSrc s == 2) || gPitch s == 0) && (gOp s != 0xE || gPitch s == 0)

/-- The running type after each stage: true for INT32. -/
def typeAfter (t : Bool) (s : Nat) : Bool := if gOp s = 9 then gAux s == 0 else t

/-- The running types before each stage. -/
def typesOf (d : Nat) (ss : List Nat) : List Bool :=
  (ss.foldl (fun (p : List Bool × Bool) s => (p.1 ++ [p.2], typeAfter p.2 s)) ([], cInt d)).1

/-- A format code that a load or store of a running type may name (06 R141, R148). -/
def gFmtOk (int : Bool) (f : Nat) : Bool := fmtOutOk f && (fmtOutFp f != int)

/-- The rules of one stage, code 0x10 (06 R140, R141, R147, R148). -/
def stageOk (d idx s : Nat) (int : Bool) : Bool :=
  match gOp s with
  | 1 => idx == 0 && cQin d != 0 && gSrc s == 0 && (decide (cQin d ≤ 1) || !int)
  | 6 => gSrc s == 2 || gSrc s == 3
  | 9 => gSrc s == 0 && (if int then gAux s == 1 else gAux s == 0)
  | 0xF | 0x10 => gSrc s == 0
  | 0x11 => gSrc s == 0 && gFmtOk int (gFmt s)
  | 0x12 => gSrc s == 0 && !int && cCols d == 32 && isMx (gFmt s)
  | _ =>
    if gBinary s then decide (1 ≤ gSrc s) && decide (gSrc s ≤ 5) && (gSrc s != 5 || gFmtOk int (gFmt s))
    else gFunction s && gSrc s == 0 && !int

/-- Bytes of a lookup table, from its header. -/
def lutBytes (w : Work) (e s : Nat) : Nat := 64 + 4 * (rdNat w (spmKey e (64 * gAddr s + 5)) 1 + 1)

/-- Bytes a stage reads during the fill (06 R141). -/
def fillBytes (w : Work) (e s : Nat) : Nat :=
  if gOp s = 0xE then lutBytes w e s
  else if gOp s = 6 ∧ gSrc s = 2 then 256
  else if gBinary s = true ∧ gSrc s = 2 then 128
  else 0

/-- A stage's scratchpad ranges (06 R141, code 0x08). -/
def stageRangeOk (w : Work) (n e d s : Nat) : Bool :=
  let b := w.toBlk
  let a := 64 * gAddr s
  let rows := fun (bytes : Nat) => spmRangeOk b n e a ((cRows d - 1) * 32 * gPitch s + bytes)
  if gOp s = 0x11 then rows (cCols d * outBytes (gFmt s))
  else if gOp s = 0x12 then rows (if gFmt s = 9 then 16 else 32) && spmRangeOk b n e (64 * gAddr2 s) (cRows d)
  else if gBinary s = true ∧ gSrc s = 5 then
    rows (cCols d * outBytes (gFmt s)) &&
    (gAux s == 0 || spmRangeOk b n e (a + cRows d * 32 * gPitch s) 8)
  else if fillBytes w e s = 0 then true else spmRangeOk b n e a (fillBytes w e s)

/-- The costs of a stage on the read, function and write pipes (06 R140, R141). -/
def stageCost (d s : Nat) : Nat × Nat × Nat :=
  if gOp s = 1 then (cQin d, 0, 0)
  else if gBinary s = true ∧ gSrc s = 5 then (if outBytes (gFmt s) = 4 then 2 else 1, 0, 0)
  else match gOp s with
    | 0xA | 0xB => (0, 4, 0)
    | 0xC | 0xD => (0, 6, 0)
    | 0xE => (0, 8, 0)
    | 0x11 => (0, 0, if outBytes (gFmt s) = 4 then 2 else 1)
    | 0x12 => (0, 0, 2)
    | _ => (0, 0, 0)

/-- L = 32 + ROWS × c (06 R150). -/
def chainLength (d : Nat) (ss : List Nat) : Nat :=
  let t := ss.foldl (fun (a : Nat × Nat × Nat) s =>
    let c := stageCost d s
    (a.1 + c.1, a.2.1 + c.2.1, a.2.2 + c.2.2)) (0, 0, 0)
  32 + cRows d * max 1 (max t.1 (max t.2.1 t.2.2))

/-- The tile and row registers a stage names: one more than the highest of each (06 R135). -/
def stageRegs (s : Nat) : Nat × Nat :=
  if gOp s = 0x10 then (gReg s + 1, 0)
  else if gOp s = 0xF then (0, gReg s + 1)
  else if gOp s = 6 ∧ gSrc s = 3 then (0, gReg s + 2)
  else if gBinary s = true ∧ gSrc s = 1 then (gReg s + 1, 0)
  else if gBinary s = true ∧ gSrc s = 3 then (0, gReg s + 1)
  else (0, 0)

/-- The allotment of a context on an engine (06 R135): the Garnet context's stands before any load. -/
def allotOf (b : Blk) (e n : Nat) : Allot :=
  (tabFind (engineOf b e).vec.allot n).getD
    (if isGarnet n then { quota := 1, tileBase := 0, tileSize := 2, rowBase := 0, rowSize := 1 }
     else { quota := 0, tileBase := 0, tileSize := 0, rowBase := 0, rowSize := 0 })

/-- The checks of a chain (04 R105, 06 R135 to R153), by ascending code. -/
def chainCheck (w : Work) (n p e d : Nat) (atLoad : Bool) : Option Nat :=
  let b := w.toBlk
  let listOk := spmRangeOk b n e (32 * cStagesAddr d) (8 * cStages d)
  let ss := if listOk then stagesOf w e d else []
  let ts := typesOf d ss
  let len := chainLength d ss
  let a := allotOf b e n
  if cVersion d ≠ 1 ∨ cReservedOk d = false ∨ ss.all gReservedOk = false then some 0x01
  else if len > (if ctxClass b n = 3 ∨ isGarnet n = true then 1024 else 4096) then some 0x05
  else if len > ctxGet b n (0x12 + 16 * p) then some 0x06
  else if 8 < cQin d ∨ (cStatusEn d = false ∧ cStatusAddr d ≠ 0) ∨ ss.all gUnusedOk = false then some 0x07
  else if listOk = false ∨ ss.all (stageRangeOk w n e d) = false ∨
      (cStatusEn d = true ∧ spmRangeOk b n e (64 * cStatusAddr d) 8 = false) then some 0x08
  else if cSemEn d = true ∧ (if atLoad then syncLoadOk b n (cSem d) .semaphore else syncIssueOk b n (cSem d) .semaphore) = false then some 0x0C
  else if (List.zip (List.zip (List.range ss.length) ss) ts).all (fun x => stageOk d x.1.1 x.1.2 x.2) = false ∨
      1 < (ss.filter (fun s => gOp s == 0xF)).length ∨
      1280 < ss.foldl (fun a s => a + fillBytes w e s) 0 then some 0x10
  else if atLoad = false ∧ (a.quota < cQin d ∨ ss.any (fun s => decide (a.tileSize < (stageRegs s).1) ||
      decide (a.rowSize < (stageRegs s).2)) = true) then some 0x11
  else none

/-! ## Issue -/

def issueVchain (e k : Nat) (s : Slot) (i : Nat) (w : Work) : Work :=
  let n := s.ctx
  let d := descAt w e s i
  if spmRangeOk w.toBlk n e (descAddr s i) 32 = false then refuseProgram e n 0x08 w
  else match chainCheck w n (activePlace w.toBlk n) e d false with
    | some c => refuseProgram e n c w
    | none =>
      let c : ChainReq := { ctx := n, desc := d, stamp := w.issues }
      useDp e k i (modEngine e (fun g => { g with vec.issued := g.vec.issued ++ [c] }) (issueStamp w))

/-! ## Start (06 R149) -/

/-- The queue entries that a chain consumes, in ascending TILE_INDEX. -/
def chainEntries (b : Blk) (e : Nat) (c : ChainReq) : List QEntry :=
  (List.range (cQin c.desc)).filterMap (fun i =>
    (engineOf b e).vec.queue.find? (fun q => q.ctx == c.ctx && q.tile == cTile c.desc + i && q.status.isSome))

def chainReady (b : Blk) (e : Nat) (c : ChainReq) : Bool := (chainEntries b e c).length == cQin c.desc

/-- No slice of a higher context is released on the engine without having reached END. -/
def noHigher (b : Blk) (e n : Nat) : Bool :=
  (engineOf b e).slots.all (fun s => !(s.live && above b s.ctx n && s.wait != .ending))

/-- The first chain of each context, in order of issue. -/
def firstChains (l : List ChainReq) : List ChainReq :=
  l.foldl (fun acc c => if acc.any (fun x => x.ctx == c.ctx) then acc else acc ++ [c]) []

/-- The entries fit the chain (06 R142). -/
def entriesOk (d : Nat) (qs : List QEntry) : Bool :=
  qs.all (fun q => q.m == cRows d && q.n == cCols d &&
    (if 1 < cQin d then q.fmt == 0 && !cInt d else fmtOutFp q.fmt != cInt d))

/-! ## The fill (06 R150) -/

/-- What the fill of a chain reads: each stage word with the bytes of its column vectors or lookup table. -/
def readFill (w : Work) (e d : Nat) : List (Nat × List Byte) :=
  (stagesOf w e d).map (fun s => (s, rd w (spmKey e (64 * gAddr s)) (fillBytes w e s)))

/-- The scratchpad ranges that the fill reads. -/
def fillReads (w : Work) (e d : Nat) : List (Nat × Nat) :=
  (32 * cStagesAddr d, 8 * cStages d) :: (stagesOf w e d).map (fun s => (64 * gAddr s, fillBytes w e s))

/-- The refusal a lookup table brings as it is read (06 R145). -/
def lutRefusal (fill : List (Nat × List Byte)) : Option Nat :=
  let ts := (fill.filter (fun s => gOp s.1 == 0xE)).map (·.2)
  if ts.any (fun t => ((t.drop 6).take 58).any (· != 0)) then some 0x01
  else if ts.any (fun t => leAt t 5 1 == 0) then some 0x10
  else none

/-- The fill of the running chain, unless it has been read or a read is held back (04 R94); a table that is refused ends the
chain as 04 R106 states, although it has started. -/
def fillChain (e : Nat) (w : Work) : Work :=
  match (engineOf w.toBlk e).vec.running with
  | none => w
  | some r =>
    if r.fill.isSome || heldBack w.toBlk e r.req.stamp (fillReads w e r.req.desc) then w
    else
      let fill := readFill w e r.req.desc
      match lutRefusal fill with
      | some code => refuseProgram e r.req.ctx code (modEngine e (fun g => { g with vec.running := none }) w)
      | none => modEngine e (fun g => { g with vec.running := some { r with fill := some fill } }) w

def startChain (e : Nat) (w : Work) : Work :=
  let b := w.toBlk
  let v := (engineOf b e).vec
  if engineRuns b e = false ∨ v.running.isSome = true then w
  else
    let ready := (firstChains v.issued).filter (fun c => chainReady b e c && noHigher b e c.ctx)
    let best := ready.foldl (fun (x : Option ChainReq) c => match x with
      | none => some c
      | some y => if above b c.ctx y.ctx then some c else some y) none
    match best with
    | none => w
    | some c =>
      let len := chainLength c.desc (stagesOf w e c.desc)
      if entriesOk c.desc (chainEntries b e c) = false then refuseProgram e c.ctx 0x10 w
      else if ctxGet b c.ctx (0x11 + 16 * activePlace b c.ctx) < chargeOf b e c.ctx + len then budgetOverrun e c.ctx w
      else
        let run : ChainRun := { req := c, len := len, fill := none }
        let w := modEngine e (fun g => { g with vec.issued := g.vec.issued.erase c, vec.running := some run }) (charge e c.ctx len w)
        fillChain e (modSlice c.ctx (fun s => { s with quads := Nat.lor s.quads (2 ^ quadOf e) }) w)

/-! ## The stages -/

/-- What a chain carries from stage to stage of one row, and from row to row. -/
structure ChainEval where
  x : List Nat
  int : Bool
  tiles : Tab Nat
  rows : Tab Nat
  flags : ChainFlags
  /-- The stores of the chain so far, and those of the rows before the present one: a row reads its tile operands before
  any store of its own (06 R150). -/
  w : Work
  before : Work

/-- Fixed facts of a running chain. -/
structure ChainFix where
  e : Nat
  d : Nat
  a : Allot
  qs : List QEntry

def tileKey (f : ChainFix) (reg m n : Nat) : Nat := (f.a.tileBase + reg) * 1024 + m * 32 + n
def rowKey (f : ChainFix) (reg m : Nat) : Nat := (f.a.rowBase + reg) * 32 + m

/-- The operand of column n in row m of a stage, whose fill bytes are `bs` (06 R141). -/
def operandAt (f : ChainFix) (c : ChainEval) (bs : List Byte) (s m n : Nat) : Nat :=
  match gSrc s with
  | 1 => tabGet 0 c.tiles (tileKey f (gReg s) m n)
  | 2 => leAt bs (4 * n) 4
  | 3 => tabGet 0 c.rows (rowKey f (gReg s) m)
  | 4 => gValue s
  | _ =>
    let k := outBytes (gFmt s)
    widen (gFmt s) (rdNat c.before (spmKey f.e (64 * gAddr s + m * 32 * gPitch s + n * k)) k)

/-- An exact INT32 result, clamped (06 R143). -/
def clamp32 (i : Int) : Nat × Bool :=
  let r := clampInt (-(2 ^ 31 : Int)) (2 ^ 31 - 1) i
  (twos 32 r, r != i)

/-- A two-operand stage on one element. -/
def binaryEl (op : Nat) (int : Bool) (x s : Nat) : Nat × Bool :=
  if int then
    let a := sgn 32 x
    let b := sgn 32 s
    match op with
    | 2 => (s, false)
    | 3 => clamp32 (a + b)
    | 4 => clamp32 (a - b)
    | 5 => clamp32 (a * b)
    | 7 => (if a ≤ b then x else s, false)
    | _ => (if a ≤ b then s else x, false)
  else match op with
    | 2 => (s, false)
    | 3 => (fAdd x s, false)
    | 4 => (fSub x s, false)
    | 5 => (fMul x s, false)
    | 7 => (fMin x s, false)
    | _ => (fMax x s, false)

/-- Combine a list pairwise, an odd last element passing on (06 R146). -/
def pairUp (f : Nat → Nat → Nat) : List Nat → List Nat
  | a :: b :: r => f a b :: pairUp f r
  | l => l

def treeReduce (f : Nat → Nat → Nat) (l : List Nat) : Nat :=
  nth 0 ((List.range 5).foldl (fun l _ => pairUp f l) l) 0

/-- REDUCE of a row; an INT32 sum is clamped once, at the root (06 R146), which OUT_SAT does not count (R152). -/
def reduceRow (aux : Nat) (int : Bool) (x : List Nat) : Nat :=
  if int then
    let v := x.map (sgn 32)
    (clamp32 (match aux with
      | 0 => v.foldl (· + ·) 0
      | 1 => v.foldl max (-(2 ^ 31 : Int))
      | 2 => v.foldl min (2 ^ 31 - 1)
      | _ => v.foldl (fun a b => a + b * b) 0)).1
  else match aux with
    | 0 => treeReduce fAdd x
    | 1 => treeReduce fMax x
    | 2 => treeReduce fMin x
    | _ => treeReduce fAdd (x.map (fun y => fMul y y))

/-- COMBINE for one element of row m (06 R142). -/
def combineEl (f : ChainFix) (m n : Nat) : Nat :=
  let get := fun (q : QEntry) => widen q.fmt (nth 0 q.vals (m * q.n + n))
  match f.qs with
  | [] => 0
  | q :: r => r.foldl (fun a p => fAdd a (get p)) (get q)

def setFlags (f : ChainFlags) (out nan inf fn : Bool) : ChainFlags :=
  { f with outSat := f.outSat || out, nanOut := f.nanOut || nan, infOut := f.infOut || inf, fnSpecial := f.fnSpecial || fn }

/-- One stage on row m. -/
def stageRow (f : ChainFix) (m : Nat) (c : ChainEval) (g : Nat × List Byte) : ChainEval :=
  let s := g.1
  let bs := g.2
  let cols := List.range (cCols f.d)
  let two := fun (g : Nat → Nat → Nat × Bool) =>
    let r := cols.map (fun n => g (nth 0 c.x n) n)
    { c with x := r.map (·.1), flags := setFlags c.flags (r.any (·.2)) false false false }
  let fn := fun (g : Nat → Nat) =>
    { c with x := c.x.map g, flags := setFlags c.flags false false false (c.x.any fnSpecialIn) }
  match gOp s with
  | 1 => { c with x := cols.map (combineEl f m) }
  | 6 =>
    two (fun x n =>
      let a := if gSrc s = 2 then leAt bs (4 * n) 4 else tabGet 0 c.rows (rowKey f (gReg s) m)
      let b := if gSrc s = 2 then leAt bs (128 + 4 * n) 4 else tabGet 0 c.rows (rowKey f (gReg s + 1) m)
      if c.int then clamp32 (sgn 32 x * sgn 32 a + sgn 32 b) else (fMulAdd x a b, false))
  | 9 =>
    let e := sgn 10 (gValue s)
    let r := c.x.map (fun x => if c.int then (fRound false (sgn 32 x) e, false) else drainF32 5 e x)
    { c with x := r.map (·.1), int := !c.int, flags := setFlags c.flags (r.any (·.2)) false false false }
  | 0xA => fn fExp2
  | 0xB => fn fLog2
  | 0xC => fn fRcp
  | 0xD => fn fRsqrt
  | 0xE =>
    let t := (List.range (leAt bs 5 1 + 1)).map (fun i => leAt bs (64 + 4 * i) 4)
    let r := c.x.map (lutAt (leAt bs 0 4) (sgn 8 (leAt bs 4 1)) t)
    { c with x := r.map (·.1), flags := setFlags c.flags false false false (r.any (·.2)) }
  | 0xF =>
    { c with rows := tabSet 0 c.rows (rowKey f (gReg s) m) (reduceRow (gAux s) c.int c.x) }
  | 0x10 =>
    let t := (List.zip cols c.x).foldl (fun t p => tabSet 0 t (tileKey f (gReg s) m p.1) p.2) c.tiles
    { c with tiles := t, flags := setFlags c.flags false (!c.int && c.x.any fIsNaN) (!c.int && c.x.any fIsInf) false }
  | 0x11 =>
    let r := c.x.map (narrow c.int (gFmt s))
    let bs := r.flatMap (fun p => leBytes (outBytes (gFmt s)) p.1)
    { c with w := put (spmKey f.e (64 * gAddr s + m * 32 * gPitch s)) bs c.w,
             flags := setFlags c.flags (r.any (·.2)) (!c.int && c.x.any fIsNaN)
               (!c.int && gFmt s == 0 && c.x.any fIsInf) false }
  | 0x12 =>
    let r := mxBlock (gFmt s) c.x
    let bs := if gFmt s = 9 then (List.range 16).map (fun i => BitVec.ofNat 8 (nth 0 r.2.1 (2 * i) + 16 * nth 0 r.2.1 (2 * i + 1)))
      else r.2.1.map (BitVec.ofNat 8)
    let w := put (spmKey f.e (64 * gAddr s + m * 32 * gPitch s)) bs c.w
    { c with w := put (spmKey f.e (64 * gAddr2 s + m)) [BitVec.ofNat 8 r.1] w,
             flags := setFlags c.flags r.2.2.1 r.2.2.2 false false }
  | op =>
    if gBinary s then two (fun x n => binaryEl op c.int x (operandAt f c bs s m n)) else c

/-- A row: stage 0 begins with zeros of the chain's type (06 R140). -/
def chainRow (f : ChainFix) (fill : List (Nat × List Byte)) (c : ChainEval) (m : Nat) : ChainEval :=
  fill.foldl (stageRow f m) { c with x := List.replicate (cCols f.d) 0, int := cInt f.d, before := c.w }

/-- The status words a chain folds in (06 R142, R141). -/
def chainFolds (w : Work) (f : ChainFix) (ss : List Nat) : ChainFlags :=
  let q := f.qs.foldl (fun a q => foldStatus a (q.status.getD 0)) noFlags
  ss.foldl (fun a s => if gBinary s = true ∧ gSrc s = 5 ∧ gAux s = 1 then
    foldStatus a (rdNat w (spmKey f.e (64 * gAddr s + cRows f.d * 32 * gPitch s)) 8) else a) q

/-! ## Completion -/

/-- Abandon the running chain (06 R154): its slice's results are withheld. -/
def abandonChain (e : Nat) (w : Work) : Work :=
  match (engineOf w.toBlk e).vec.running with
  | none => w
  | some r =>
    let w := quadAdd (quadOf e) 0x52 1 w
    withholdSlice r.req.ctx (modEngine e (fun g => { g with vec.running := none }) w)

/-- Take the entries a chain consumed out of the queue. -/
def consume (n d : Nat) (q : QEntry) : Bool :=
  q.ctx == n && decide (cTile d ≤ q.tile) && decide (q.tile < cTile d + cQin d)

/-- The ranges of the tile operands of a chain, with the status words read with them (06 R141). -/
def tileReads (d : Nat) (ss : List Nat) : List (Nat × Nat) :=
  (ss.filter (fun s => gBinary s && gSrc s == 5)).flatMap (fun s =>
    (List.range (cRows d)).map (fun m => (64 * gAddr s + m * 32 * gPitch s, cCols d * outBytes (gFmt s))) ++
    (if gAux s = 1 then [(64 * gAddr s + cRows d * 32 * gPitch s, 8)] else []))

/-- The running chain ends: its stages over every row, the status, the entries freed, the semaphore (06 R152). -/
def endChain (e : Nat) (c : ChainReq) (fill : List (Nat × List Byte)) (w : Work) : Work :=
  let d := c.desc
  let q := quadOf e
  let v := (engineOf w.toBlk e).vec
  let f : ChainFix := { e, d, a := allotOf w.toBlk e c.ctx, qs := chainEntries w.toBlk e c }
  let z : ChainEval := { x := [], int := cInt d, tiles := v.tiles, rows := v.rows,
                         flags := chainFolds w f (fill.map (·.1)), w := w, before := w }
  let r := (List.range (cRows d)).foldl (chainRow f fill) z
  let st := chainStatus r.flags
  let w := modEngine e (fun g =>
    let left := g.vec.queue.filter (fun x => !consume c.ctx d x)
    { g with vec.tiles := r.tiles, vec.rows := r.rows, vec.status := st, vec.running := none, vec.queue := left }) r.w
  let w := doIf (cStatusEn d) (put (spmKey e (64 * cStatusAddr d)) (leBytes 8 st)) w
  let w := quadAdd q 0x50 1 w
  let w := doIf r.flags.outSat (quadAdd q 0x51 1) w
  let w := progress e c.ctx w
  doIf (cSemEn d) (signalSync e (cSem d) 1) w

/-- CHAIN_COMPLETE; a chain that R94 still holds back goes on running. `ue` is the scratchpad address of an uncorrectable word
that the chain read. -/
def completeChain (e : Nat) (ue : Option Nat) (w : Work) : Work :=
  let w := fillChain e w
  match (engineOf w.toBlk e).vec.running with
  | none => w
  | some r =>
    match r.fill with
    | none => w
    | some fill =>
      if heldBack w.toBlk e r.req.stamp (tileReads r.req.desc (fill.map (·.1))) then w
      else match ue with
        | some a => abandonChain e (raiseBy e 1 0x030 e (a / 8 * 8) (quadAdd (quadOf e) 0x64 1 w))
        | none => endChain e r.req fill w

end Sys2Proof.Machine
end

