-- ==== Sys2Proof/Machine/Loads.lean ====
section
/-! DEFINITION. Loads (12 R318): the program image and its load check (04 R104, R105, 06 R135), weight loads, handles (10
R252), and the host's own reads and writes of main memory (07 R175). -/

namespace Sys2Proof.Machine

/-! ## The scan of a program (04 R105)

The order of instructions is the program's: the rules on what the latest PASS kept are applied where the scan knows it.
DEDUCED (log 17). -/

/-- A range inside an image's segment. -/
def inSeg (lo hi a len : Nat) : Bool := decide (lo ≤ a) && decide (a + len ≤ hi)

def sPrev (s : Scan) (x : Option (Option LastPass)) : Scan := { s with prev := x }

/-- The latest PASS keeps its accumulators, as far as the scan knows. -/
def scanKept (s : Scan) : Bool := match s.prev with | some (some l) => !l.drains | _ => false

/-- What a scanned PASS leaves for the next one. -/
def lastOf (d : Nat) : LastPass :=
  { drains := pDrainKind d != 0, lsb := pAccLsb d, bf := pBf d, split := pSplit d, status := none, ord := 0 }

/-- Whether a PASS continues or starts a chain as it must (04 R93). -/
def scanChain (s : Scan) (d : Nat) : Bool :=
  match s.prev with
  | some none => true
  | none => pStart d
  | some (some l) => if l.drains then pStart d else !pStart d && l.lsb == pAccLsb d && l.bf == pBf d && l.split == pSplit d

/-- The CHECK_LEVEL of a context's passes is that of the first one scanned (15 R384). -/
def noteLevel (n d : Nat) (w : Work) : Work := modCtx n (fun c => { c with level := some (c.level.getD (pLevel d)) }) w

/-- A scanned PASS or PASSQ. -/
def scanPass (n p e lo hi i : Nat) (queued : Bool) (s : Scan) (w : Work) : Nat × Scan × Work :=
  let a := 32 * iAddr i
  if queued && scanKept s then (0x09, s, w)
  else if iUseDp i then (0, if queued then s else sPrev s (some none), w)
  else if spmRangeOk w.toBlk n e a 32 = false then (0x08, s, w)
  else if inSeg lo hi a 32 = false then (0, if queued then s else sPrev s (some none), w)
  else
    let d := rdNat w (spmKey e a) 32
    match passCheck w.toBlk n p e d queued true with
    | some c => (c, s, w)
    | none =>
      if queued = false ∧ scanChain s d = false then (0x09, s, w)
      else
        let s := { s with drain2 := s.drain2 || pDrainKind d == 2 }
        (0, if queued then s else sPrev s (some (some (lastOf d))), noteLevel n d w)

/-- A scanned VCHAIN: its check, and the registers and entries it names (06 R135). -/
def scanChainOp (n p e lo hi i : Nat) (s : Scan) (w : Work) : Nat × Scan :=
  let a := 32 * iAddr i
  if iUseDp i then (0, s)
  else if spmRangeOk w.toBlk n e a 32 = false then (0x08, s)
  else if inSeg lo hi a 32 = false then (0, s)
  else
    let d := rdNat w (spmKey e a) 32
    match chainCheck w n p e d true with
    | some c => (c, s)
    | none =>
      let regs := (stagesOf w e d).map stageRegs
      (0, { s with quota := max s.quota (cQin d), tile := regs.foldl (fun m r => max m r.1) s.tile,
                   row := regs.foldl (fun m r => max m r.2) s.row })

def scanDma (n p e lo hi i : Nat) (w : Work) : Nat :=
  let a := 32 * iAddr i
  if spmRangeOk w.toBlk n e a 32 = false then 0x08
  else if inSeg lo hi a 32 = false then 0
  else (dmaCheck w.toBlk n p e (rdNat w (spmKey e a) 32) true).getD 0

/-- One instruction at place pc. -/
def scanOne (n p e lo hi pc i : Nat) (s : Scan) (w : Work) : Nat × Scan × Work :=
  match iOp i with
  | 1 =>
    if scanKept s then (0x09, s, w)
    else (0, { s with done := s.loops.isEmpty && decide (s.target ≤ pc) }, w)
  | 3 => scanPass n p e lo hi i false s w
  | 4 => scanPass n p e lo hi i true s w
  | 5 => let r := scanChainOp n p e lo hi i s w; (r.1, r.2, w)
  | 6 => (scanDma n p e lo hi i w, s, w)
  | 7 =>
    let last := pc + iBody i
    if s.loops.any (fun l => l.1 == iLc i || decide (l.2 < last)) then (0x0D, s, w)
    else (0, { s with loops := (iLc i, last) :: s.loops }, w)
  | 8 => (if syncLoadOk w.toBlk n (iSync i) .semaphore then 0 else 0x0C, s, w)
  | 9 => (if syncLoadOk w.toBlk n (iSync i) .semaphore then 0 else 0x0C, s, w)
  | 0xA => (if syncLoadOk w.toBlk n (iSync i) .barrier then 0 else 0x0C, s, w)
  | 0xC =>
    let t := pc + iOffset i + 1
    if s.loops.any (fun l => decide (l.2 < t)) then (0x0D, s, w)
    else if s.prev.isNone ∨ scanKept s = true then (0x09, s, w)
    else (0, { s with target := max s.target t }, w)
  | _ => (0, s, w)

/-- The scan from a place on: the code, 0 where everything passes. -/
def scanProgram (n p e lo hi : Nat) : Nat → Nat → Scan → Work → Nat × Scan × Work
  | 0, _, s, w => (0x0D, s, w)
  | k + 1, pc, s, w =>
    if inSeg lo hi (4 * pc) 4 = false then (0x0D, s, w)
    else
      let i := fetchWord w e pc
      match iCheck i with
      | some c => (c, s, w)
      | none =>
        let r := scanOne n p e lo hi pc i { s with loops := s.loops.filter (fun l => decide (pc ≤ l.2)) } w
        if r.1 ≠ 0 ∨ r.2.1.done = true then r else scanProgram n p e lo hi k (pc + 1) r.2.1 r.2.2

def scanStart : Scan :=
  { prev := none, loops := [], target := 0, quota := 0, drain2 := false, tile := 0, row := 0, done := false }

/-! ## The image (04 R104) -/

/-- Fields of an engine-table entry: engine, ENTRY, SEG_BASE, SEG_UNITS. -/
def segOf (x : Nat) : Nat × Nat × Nat × Nat := (fld x 63 56, fld x 46 32, fld x 31 18, fld x 17 3)

def imgEngines (m : List Byte) : List Nat := (List.range (leAt m 6 2)).map (fun i => leAt m (16 + 8 * i) 8)
def imgGroups (m : List Byte) : List Nat :=
  (List.range (leAt m 5 1)).map (fun i => leAt m (16 + 8 * leAt m 6 2 + 32 * i) 32)
def imgSyncs (m : List Byte) : List Nat :=
  (List.range (leAt m 8 2)).map (fun i => leAt m (16 + 8 * leAt m 6 2 + 32 * leAt m 5 1 + 8 * i) 8)

/-- The synchronisation object of a sync-table entry: its place, and the object as it is set up. -/
def syncPlace (x : Nat) : Nat := fld x 12 0
def syncFresh (n x : Nat) : SyncObj :=
  { kind := if bit x 32 then .barrier else .semaphore, owner := n, persistent := bit x 33, init := fld x 63 48,
    count := if bit x 32 then 0 else fld x 63 48, waiters := [], freed := [] }

/-- The checks on the header and the tables, before anything is written. -/
def imageCheck (b : Blk) (n p : Nat) (m : List Byte) : Nat :=
  let segs := (imgEngines m).map segOf
  let units := segs.foldl (fun a s => a + s.2.2.2) 0
  if leAt m 0 1 ≠ 1 ∨ leAt m 1 1 ≠ 1 ∨ leAt m 10 6 ≠ 0 ∨
      (imgEngines m).any (fun x => fld x 55 47 != 0 || fld x 2 0 != 0) = true ∨
      (imgSyncs m).any (fun x => fld x 47 34 != 0 || fld x 31 13 != 0) = true then 0x01
  else if leAt m 2 2 ≠ n ∨ leAt m 4 1 ≠ p ∨ 16 < leAt m 5 1 ∨ leAt m 6 2 = 0 ∨ 256 < leAt m 6 2 ∨ 8192 < leAt m 8 2 ∨
      m.length ≠ 16 + 8 * leAt m 6 2 + 32 * leAt m 5 1 + 8 * leAt m 8 2 + 64 * units ∨
      (segs.map (·.1)).eraseDups.length ≠ segs.length ∨
      (imgSyncs m).any (fun x => bit x 32 && (fld x 63 48 == 0 || decide (256 < fld x 63 48))) = true then 0x07
  else if segs.any (fun s => decide (s.2.2.2 = 0) || decide (16384 < s.2.2.1 + s.2.2.2) ||
      !spmRangeOk b n s.1 (64 * s.2.2.1) (64 * s.2.2.2)) then 0x08
  else if (imgSyncs m).any (fun x => decide (dies b.fuses ≤ syncPlace x / 4096)) then 0x0C
  else if segs.any (fun s => decide (engineCount b.fuses ≤ s.1) || !(placeQuads b n p).testBit (quadOf s.1)) then 0x0E
  else if ((imgSyncs m).map syncPlace).eraseDups.length ≠ (imgSyncs m).length then 0x0F
  else 0

/-- The objects that an image's context declares through its other placements. -/
def otherSyncs (b : Blk) (n p : Nat) : List Nat :=
  (b.images.filter (fun i => i.ctx == n && i.placement != p)).flatMap (·.syncs)

/-- A declaration that meets an object which belongs to a context already (04 R95). -/
def syncClash (b : Blk) (n p x : Nat) : Bool :=
  match syncOf b (syncPlace x) with
  | none => false
  | some s =>
    let f := syncFresh n x
    s.owner != n || ((otherSyncs b n p).contains (syncPlace x) &&
      !(s.kind == f.kind && s.init == f.init && s.persistent == f.persistent))

/-- Drop the image of a context and placement, with the objects that only it declares. -/
def dropImage (n p : Nat) (w : Work) : Work :=
  match imageOf w.toBlk n p with
  | none => w
  | some i =>
    let keep := otherSyncs w.toBlk n p
    let w := forAll (i.syncs.filter (fun o => !keep.contains o)) (fun o w => { w with syncs := tabErase w.syncs o }) w
    { w with images := w.images.filter (fun j => !(j.ctx == n && j.placement == p)) }

/-- Declare an image's objects: an object that another placement declared keeps its present state. -/
def declareSyncs (n p : Nat) (xs : List Nat) (w : Work) : Work :=
  forAll xs (fun x w =>
    if (otherSyncs w.toBlk n p).contains (syncPlace x) then w
    else { w with syncs := tabSet none w.syncs (syncPlace x) (some (syncFresh n x)) }) w

/-! ## Allotments (06 R135) -/

/-- The contexts that hold an image with an engine. -/
def residents (b : Blk) (e : Nat) : List Nat :=
  (List.range 1024).filter (fun n => b.images.any (fun i => i.ctx == n && i.engines.any (fun x => x.1 == e)))

/-- A context's figures on an engine: the largest of its images'; a Garnet context's are fixed. -/
def figOf (b : Blk) (e n : Nat) : Nat × Nat × Nat :=
  if isGarnet n then (1, 2, 1)
  else (b.images.filter (fun i => i.ctx == n)).foldl (fun m i =>
    match i.figs.find? (fun f => f.1 == e) with
    | some f => (max m.1 f.2.1, max m.2.1 f.2.2.1, max m.2.2 f.2.2.2)
    | none => m) (0, 0, 0)

/-- The contexts of an engine, the Garnet one last, with their figures. -/
def engineFigs (b : Blk) (e : Nat) : List (Nat × Nat × Nat × Nat) :=
  ((residents b e).filter (fun n => !isGarnet n) ++ [960 + quadOf e]).map (fun n => (n, figOf b e n))

/-- The allotments of an engine in ascending context number. -/
def allotTab (l : List (Nat × Nat × Nat × Nat)) : Tab Allot :=
  (l.foldl (fun (p : Tab Allot × Nat × Nat) f =>
    let a : Allot := { quota := f.2.1, tileBase := p.2.1, tileSize := f.2.2.1, rowBase := p.2.2, rowSize := f.2.2.2 }
    (p.1 ++ [(f.1, a)], p.2.1 + f.2.2.1, p.2.2 + f.2.2.2)) ([], 0, 0)).1

def sumFigs (l : List (Nat × Nat × Nat × Nat)) (f : Nat × Nat × Nat × Nat → Nat) : Nat := l.foldl (fun a x => a + f x) 0

/-- What residence on an engine refuses. -/
def residenceCheck (b : Blk) (e : Nat) : Nat :=
  let l := engineFigs b e
  if 16 < l.length then 0x0F
  else if 8 < sumFigs l (·.2.1) ∨ 16 < sumFigs l (·.2.2.1) ∨ 16 < sumFigs l (·.2.2.2) then 0x11
  else 0

/-- A register key in its context's new window: none for the loaded context's registers and for those outside every
window. -/
def moveKey (n per : Nat) (old new : Tab Allot) (base size : Allot → Nat) (key : Nat) : Option Nat :=
  match old.find? (fun p => p.1 != n && decide (base p.2 ≤ key / per) && decide (key / per < base p.2 + size p.2)) with
  | none => none
  | some p => match tabFind new p.1 with
    | none => none
    | some a => if key / per - base p.2 < size a then some (key - per * base p.2 + per * base a) else none

def moveRegs (n per : Nat) (old new : Tab Allot) (base size : Allot → Nat) (t : Tab Nat) : Tab Nat :=
  t.filterMap (fun x => (moveKey n per old new base size x.1).map (fun k => (k, x.2)))

/-- Set the allotments of an engine anew for a load of context n: its own registers read as +0 (06 R134), the others'
keep their contents in the windows they now have. -/
def allotEngine (n e : Nat) (w : Work) : Work :=
  let new := allotTab (engineFigs w.toBlk e)
  modEngine e (fun g =>
    let v := g.vec
    { g with vec := { v with allot := new, status := 0, tiles := moveRegs n 1024 v.allot new (·.tileBase) (·.tileSize) v.tiles,
                             rows := moveRegs n 32 v.allot new (·.rowBase) (·.rowSize) v.rows } }) w

/-! ## Loading -/

/-- Write an image's segments. -/
def writeSegs (m : List Byte) (w : Work) : Work :=
  let start := 16 + 8 * leAt m 6 2 + 32 * leAt m 5 1 + 8 * leAt m 8 2
  (((imgEngines m).map segOf).foldl (fun (p : Nat × Work) s =>
    (p.1 + 64 * s.2.2.2, put (spmKey s.1 (64 * s.2.2.1)) ((m.drop p.1).take (64 * s.2.2.2)) p.2)) (start, w)).2

/-- After a refused load the bytes it wrote hold no defined value (12 R318). -/
def scrambleSegs (m : List Byte) (w : Work) : Work :=
  forAll ((imgEngines m).map segOf) (fun s w =>
    let f := takeFree w
    put (spmKey s.1 (64 * s.2.2.1)) (leBytes (64 * s.2.2.2) (Config.freeValue f.1)) f.2) w

/-- Scan every engine of an image: the code, its figures, and the work with the level noted. -/
def scanImage (n p : Nat) (m : List Byte) (w : Work) : Nat × List (Nat × Nat × Nat × Nat) × Work :=
  ((imgEngines m).map segOf).foldl (fun (r : Nat × List (Nat × Nat × Nat × Nat) × Work) s =>
    if r.1 ≠ 0 then r
    else
      let lo := 64 * s.2.2.1
      let hi := lo + 64 * s.2.2.2
      let x := scanProgram n p s.1 lo hi (16 * s.2.2.2 + 1) (8 * s.2.1) scanStart r.2.2
      let quota := if x.2.1.quota = 0 ∧ x.2.1.drain2 = true then 1 else x.2.1.quota
      (x.1, r.2.1 ++ [(s.1, quota, x.2.1.tile, x.2.1.row)], x.2.2)) (0, [], w)

/-- The level that the other images of a context carry. -/
def otherLevel (b : Blk) (n p : Nat) : Option Nat :=
  (b.images.filter (fun i => i.ctx == n && i.placement != p)).foldl (fun l i => match l with
    | some x => some x
    | none => i.level) none

/-- A program image for a context and placement: the refusal, 0 where it is loaded. -/
def loadImage (n p handle : Nat) (m : List Byte) (w : Work) : Nat × Work :=
  let b := w.toBlk
  let c := imageCheck b n p m
  if c ≠ 0 then (c, w)
  else if (imgSyncs m).any (syncClash b n p) then (0x0F, w)
  else
    let img : Image := { ctx := n, placement := p, engines := (imgEngines m).map (fun x => ((segOf x).1, (segOf x).2.1)),
                         groups := imgGroups m, syncs := (imgSyncs m).map syncPlace, handle := handle, level := none, figs := [] }
    let lev := otherLevel b n p
    let t := dropImage n p w
    let t := { t with images := t.images ++ [img] }
    let t := modCtx n (fun x => { x with level := lev }) (declareSyncs n p (imgSyncs m) (writeSegs m t))
    let r := scanImage n p m t
    let img := { img with figs := r.2.1, level := (ctxRun r.2.2.toBlk n).level }
    let t := { r.2.2 with images := r.2.2.images.filter (fun j => !(j.ctx == n && j.placement == p)) ++ [img] }
    let es := img.engines.map (·.1)
    let res := es.foldl (fun a e => if a = 0 then residenceCheck t.toBlk e else a) r.1
    if res ≠ 0 then (res, scrambleSegs m w)
    else
      let was := (((imageOf b n p).map (·.engines)).getD []).map (·.1)
      (0, forAll (es ++ was).eraseDups (allotEngine n) t)

/-! ## Weight loads (12 R318) -/

/-- The host may write every burst of a range (07 R171, R175). -/
def hostWriteOk (b : Blk) (a len : Nat) : Bool :=
  memThere b a len && (List.range (len / 64)).all (fun i => match poolOf b (a + 64 * i) 64 with
    | none => false
    | some p => odGet b (0x2640 + p) 4 == none16 || !holdsAdmission b (odGet b (0x2640 + p) 4))

def hostReadOk (b : Blk) (a len : Nat) : Bool :=
  memThere b a len && (List.range (len / 64)).all (fun i => (poolOf b (a + 64 * i) 64).isSome)

/-- The host writes main memory: every cache part first gives up the lines of a cacheable pool (07 R162). -/
def hostStore (a : Nat) (bs : List Byte) (w : Work) : Work :=
  let lines := (List.range (bs.length / 64)).filter (fun i => match poolOf w.toBlk (a + 64 * i) 64 with
    | none => false
    | some p => odGet w.toBlk (0x2640 + p) 6 == 1)
  memStore a bs (forAll lines (fun i w => cacheDrop (a + 64 * i) w) w)

/-- A segment entry: SPACE, ENGINE, BYTES, ADDRESS. -/
def weightSegs (m : List Byte) : List (Nat × Nat × Nat × Nat) :=
  (List.range (leAt m 8 4)).map (fun i =>
    (leAt m (16 + 16 * i) 1, leAt m (17 + 16 * i) 1, leAt m (20 + 16 * i) 4, leAt m (24 + 16 * i) 8))

def weightSegOk (b : Blk) (n p : Nat) (s : Nat × Nat × Nat × Nat) : Bool :=
  s.2.2.1 % 64 == 0 && s.2.2.2 % 64 == 0 &&
  (match s.1 with
   | 0 => decide (s.2.1 < engineCount b.fuses) && (placeQuads b n p).testBit (quadOf s.2.1) &&
       spmRangeOk b n s.2.1 s.2.2.2 s.2.2.1
   | 2 => hostWriteOk b s.2.2.2 s.2.2.1
   | _ => false)

def storeSegs (m : List Byte) (w : Work) : Work :=
  ((weightSegs m).foldl (fun (p : Nat × Work) s =>
    let bs := (m.drop p.1).take s.2.2.1
    (p.1 + s.2.2.1, if s.1 = 0 then put (spmKey s.2.1 s.2.2.2) bs p.2 else hostStore s.2.2.2 bs p.2))
    (16 + 16 * leAt m 8 4, w)).2

/-! ## LOAD messages -/

/-- Take a handle of a kind and keep its digest; the latest 1,024 of each kind are held (10 R252). -/
def takeHandle (kind digest : Nat) (w : Work) : Nat × Work :=
  let h := if kind = 1 then w.res.nextProg else w.res.nextWeight
  let w := if kind = 1 then { w with res.nextProg := h + 1 } else { w with res.nextWeight := h + 1 }
  let e : Handle := { kind, handle := h, digest, beat := w.time.beat }
  let keep := w.res.handles.filter (fun x => !(x.kind == kind && decide (x.handle + 1024 ≤ h)))
  (h, { w with res.handles := keep ++ [e] })

/-- A LOAD_RESULT (12 R318). -/
def loadResult (link tag kind status code handle : Nat) (m : List Byte) (w : Work) : Work :=
  answer link tag 0x21 status (leBytes 1 kind ++ leBytes 1 code ++ leBytes 2 handle ++ leBytes 4 0 ++ sha3 m) w

/-- The header's own checks: STATUS and REFUSAL of a load of a kind, 0 and 0 where it goes on. -/
def loadHeader (b : Blk) (kind : Nat) (m : List Byte) : Nat × Nat :=
  let n := leAt m 2 2
  let p := leAt m 4 1
  if m.length < 16 then (3, 0)
  else if leAt m 0 1 ≠ 1 ∨ leAt m 5 3 ≠ 0 ∨ leAt m 12 4 ≠ 0 then (1, 0)
  else if b.dev.state ≠ .config ∨ (decide (n < 1024) && ctxExists b.fuses n && holdsAdmission b n) = true then (4, 0)
  else if ctxExists b.fuses n = false ∨ 3 < p ∨ placeQuads b n p = 0 ∨ (kind = 2 ∧ leAt m 8 4 ≠ 0) then (8, 7)
  else (0, 0)

/-- A program image as a whole message. -/
def programMsg (link tag : Nat) (m : List Byte) (w : Work) : Work :=
  let c := loadHeader w.toBlk 2 m
  if c.1 = 8 then loadResult link tag 2 8 c.2 0 m w
  else if c.1 ≠ 0 then answer link tag 0x21 c.1 [] w
  else if 65535 < w.res.nextProg then loadResult link tag 2 8 0x30 0 m w
  else
    let r := loadImage (leAt m 2 2) (leAt m 4 1) w.res.nextProg (m.drop 16) w
    if r.1 ≠ 0 then loadResult link tag 2 8 r.1 0 m r.2
    else
      let h := takeHandle 1 (leNat (sha3 m)) r.2
      loadResult link tag 2 0 0 h.1 m h.2

/-- A weight load as a whole message. -/
def weightMsg (link tag : Nat) (m : List Byte) (w : Work) : Work :=
  let c := loadHeader w.toBlk 3 m
  let segs := weightSegs m
  if c.1 = 8 then loadResult link tag 3 8 c.2 0 m w
  else if c.1 ≠ 0 then answer link tag 0x21 c.1 [] w
  else if m.length ≠ 16 + 16 * leAt m 8 4 + segs.foldl (fun a s => a + s.2.2.1) 0 then answer link tag 0x21 3 [] w
  else if (List.range segs.length).any (fun i => leAt m (18 + 16 * i) 2 != 0) then loadResult link tag 3 8 1 0 m w
  else if segs.all (weightSegOk w.toBlk (leAt m 2 2) (leAt m 4 1)) = false then loadResult link tag 3 8 8 0 m w
  else if 65535 < w.res.nextWeight then loadResult link tag 3 8 0x30 0 m w
  else
    let h := takeHandle 2 (leNat (sha3 m)) (storeSegs m w)
    let w := { h.2 with res.weights := tabSet 0 h.2.res.weights (leAt m 2 2) h.1 }
    loadResult link tag 3 0 0 h.1 m w

/-! ## MEM_READ and MEM_WRITE (12 R315, 07 R175) -/

/-- The master of the collector for a link of the host (16 R415). -/
def hostMaster (link : Nat) : Nat := 0x400 + link

/-- The status of a request, 0 where it is served. -/
def memStatus (b : Blk) (a n : Nat) (ok : Blk → Nat → Nat → Bool) : Nat :=
  if a % 64 ≠ 0 ∨ n % 64 ≠ 0 ∨ n = 0 ∨ 65536 < n then 3
  else if b.dev.state ≠ .config ∧ b.dev.state ≠ .adapt then 4
  else if ok b a n = false then 5
  else 0

/-- A read: `ue` names the byte address of an uncorrectable word that it meets. -/
def memReadMsg (link tag : Nat) (ue : Option Nat) (m : List Byte) (w : Work) : Work :=
  let a := leAt m 0 8
  let n := leAt m 8 4
  let c := if m.length ≠ 12 then 3 else memStatus w.toBlk a n hostReadOk
  if c ≠ 0 then answer link tag 0x31 c [] w
  else match ue with
    | some x =>
      let ch := memChannel x
      let w := quadAdd (chanQuad ch) (0x74 + ch % 3) 1 (raiseBy (hostMaster link) 0 0x041 ch (memOffset x) w)
      answer link tag 0x31 6 [] w
    | none => answer link tag 0x31 0 (rd w a n) w

def memWriteMsg (link tag : Nat) (m : List Byte) (w : Work) : Work :=
  let a := leAt m 0 8
  let bs := m.drop 8
  let c := if m.length < 8 then 3 else memStatus w.toBlk a bs.length hostWriteOk
  if c ≠ 0 then answer link tag 0x33 c [] w
  else answer link tag 0x33 0 [] (hostStore a bs w)

end Sys2Proof.Machine
end

