-- ==== Sys2Proof/Machine/Channels.lean ====
section
/-! DEFINITION. The serial memory channels (07 R163 to R183): runs and their collisions, the check bits, training, refresh
and the background slot. Main memory holds data bytes; the bits that a die returns in error are an operand of the
command that reads them (log 18). -/

namespace Sys2Proof.Machine

/-! ## Check bits (R176, R177) -/

/-- The position of data bit d: ascending from 3, without the powers of two. -/
def bitPlaces : List Nat := (List.range 72).filter (fun p => decide (3 ≤ p) && !isPow2 p)

/-- c_0 to c_6 of a word. -/
def checkSeven (x : Nat) : Nat :=
  (List.range 7).foldl (fun c i =>
    c + 2 ^ i * ((List.zip (List.range 64) bitPlaces).foldl (fun s p => s + b2n (p.2.testBit i && x.testBit p.1)) 0 % 2)) 0

/-- The check byte of a word (R176). -/
def checkByte (x : Nat) : Nat :=
  let c := checkSeven x
  c + 128 * ((popCount 64 x + popCount 7 c) % 2)

/-- How a word of 64 data bits and its check byte are classed: the data as delivered, and 0 good, 1 correctable, 2
uncorrectable (R177). -/
def classWord (x c : Nat) : Nat × Nat :=
  let s := Nat.xor (c % 128) (checkSeven x)
  let p := (popCount 64 x + popCount 8 c) % 2
  if s = 0 ∧ p = 0 then (x, 0)
  else if p = 0 ∨ 72 ≤ s then (x, 2)
  else match (List.zip (List.range 64) bitPlaces).find? (fun q => q.2 == s) with
    | some q => (Nat.xor x (2 ^ q.1), 1)
    | none => (x, 1)

/-- A word whose stored 72 bits read with the bits of a mask in error. -/
def readWord (x mask : Nat) : Nat × Nat := classWord (Nat.xor x (mask % 2 ^ 64)) (Nat.xor (checkByte x) (mask / 2 ^ 64 % 256))

/-! ## The beat of a channel (R167 to R169) -/

/-- A channel that works: its die is powered and its quad is in service. -/
def chanWorks (b : Blk) (c : Nat) : Bool :=
  b.dev.state != .porst && b.dev.state != .lull && !b.dev.warm && !b.dev.noRefclk && !quadRemoved b (chanQuad c)

/-- A channel as the present beat finds it. -/
def chanNow (b : Blk) (c : Nat) : Chan :=
  let x := chanOf b c
  if x.beat = b.time.beat then x else { x with beat := b.time.beat, ticks := 0, used := 0, slot := false, low := 0, refresh := none }

def setChan (c : Nat) (x : Chan) (w : Work) : Work := { w with chans := tabSet Chan.idle w.chans c x }

def isHot (b : Blk) (c : Nat) : Bool := quadGet b (chanQuad c) (0x84 + c % 3) == 1

/-- The clocks of a beat at which ticks fall (R167): clock 0 of the die's beat count and, at the rate of two, clock 900. -/
def tickClocks (phase : Nat) (hot : Bool) : List Nat :=
  let t := (1800 - phase % 1800) % 1800
  let u := (t + 900) % 1800
  if hot then [min t u, max t u] else [t]

/-- A tick starts the next refresh operation, on bank k mod 16 (R167). -/
def refreshTick (c : Nat) (w : Work) : Work :=
  let x := chanNow w.toBlk c
  match chanWorks w.toBlk c, (tickClocks x.phase (isHot w.toBlk c))[x.ticks]? with
  | true, some t => setChan c { x with ops := x.ops + 1, ticks := x.ticks + 1, refresh := some (x.ops % 16, t) } w
  | _, _ => w

/-- The bank of a burst address (R163). -/
def bankOf (a : Nat) : Nat := a / 16 % 16

/-- The bursts of a run that fit the window from a clock on (R165, R168, R169): how many, the mask of those that are predicted
to collide, the clock of the end of the last one's data, and the operation that has still made none collide. Whether a burst
fits is judged by the prediction; `held` marks the bursts whose data the die does hold back, for 43 clocks. -/
def runBursts (bank held : Nat) : Nat → Nat → Bool → Nat → Option (Nat × Nat) → Nat → Nat × Nat × Nat × Option (Nat × Nat)
  | 0, i, _, clk, op, hit => (i, hit, clk, op)
  | k + 1, i, first, clk, op, hit =>
    let data := if first then clk + 6 else clk
    let coll := match op with
      | some (bk, t) => bk == bank && decide (t ≤ clk) && decide (data < t + 43)
      | none => false
    if 1728 < data + 36 + (if coll then 43 else 0) + 1 then (i, hit, clk, op)
    else
      let stop := data + 36 + (if bit held i then 43 else 0)
      let op := if coll then none else match op with
        | some (bk, t) => if bk = bank ∧ clk < t ∧ t < stop then some (bk, stop) else some (bk, t)
        | none => none
      runBursts bank held k (i + 1) false stop op (if coll then hit + 2 ^ i else hit)

/-- How many of n bursts at a rank the throttle lets go: action M1 lets 8 per beat go at Elastic rank (14 R363). -/
def burstsLet (b : Blk) (x : Chan) (n : Nat) (low : Bool) : Nat :=
  if low && decide (0 < actionCount b 4) then min n (8 - x.low) else n

/-- The run of a command: bursts that go, those predicted to collide, and the channel after it; none where the bus is not
free at that clock. -/
def planRun (b : Blk) (c a n start held : Nat) (low : Bool) : Option (Nat × Nat × Chan) :=
  let x := chanNow b c
  if chanWorks b c = false ∨ start < x.used then none
  else
    let r := runBursts (bankOf a) held (burstsLet b x n low) 0 true start x.refresh 0
    if r.1 = 0 then none
    else some (r.1, r.2.1, { x with used := r.2.2.1 + 1, refresh := r.2.2.2, low := x.low + (if low then r.1 else 0) })

/-- The signalling of a run against its prediction (R168): which of its bursts the die held, and whether it stayed silent. -/
def protocol (c a held hit : Nat) (silent : Bool) (w : Work) : Work :=
  let w := quadAdd (chanQuad c) (0x78 + c % 3) (popCount 16 held) w
  doIf (silent || held != hit) (raise 0x042 c a) w

/-! ## Errors (R178, R179) -/

/-- The words of a burst as read under error masks (word, 72-bit mask): data delivered, and the classes. -/
def burstWords (w : Work) (key : Nat) (errs : List (Nat × Nat)) : List (Nat × Nat) :=
  (List.range 8).map (fun j =>
    let x := rdNat w (key + 8 * j) 8
    match errs.find? (fun p => p.1 == j) with
    | some p => readWord x p.2
    | none => (x, 0))

/-- Count and report the classes of a burst; a corrected burst without an uncorrectable word joins the write-back queue,
at its head for scrub. -/
def reportBurst (master c a : Nat) (head : Bool) (ws : List (Nat × Nat)) (w : Work) : Work :=
  let q := chanQuad c
  let w := forAll (List.zip (List.range 8) ws) (fun p w =>
    match p.2.2 with
    | 1 => raiseBy master 1 0x040 c (64 * a + 8 * p.1) (quadAdd q (0x70 + c % 3) 1 w)
    | 2 => raiseBy master 1 0x041 c (64 * a + 8 * p.1) (quadAdd q (0x74 + c % 3) 1 w)
    | _ => w) w
  if ws.any (fun x => x.2 == 1) && !ws.any (fun x => x.2 == 2) then
    let x := chanNow w.toBlk c
    if x.queue.contains a then w
    else if 4 ≤ x.queue.length then quadAdd q (0x7C + c % 3) 1 w
    else setChan c { x with queue := if head then a :: x.queue else x.queue ++ [a] } w
  else w

/-- The memory key of a burst. -/
def burstKey (c a : Nat) : Nat := c * 134217728 + 64 * a

/-! ## Commands of the controller (R166) -/

/-- READ_RUN: n bursts from burst address a, its CS_N asserted at clock `start`; `held` marks the bursts whose data the
die held back, `errs` the bits in error by burst and word. -/
def readRun (c a n start held : Nat) (met : RunMet) (errs : List (Nat × Nat × Nat)) (w : Work) : Work :=
  match planRun w.toBlk c a n start held met.low with
  | none => w
  | some (k, hit, x) =>
    let w := protocol c a (held % 2 ^ k) hit met.silent (setChan c x w)
    if met.silent then w
    else forAll (List.range k) (fun i w =>
      let ws := burstWords w (burstKey c (a + i)) ((errs.filter (fun p => p.1 == i)).map (·.2))
      reportBurst none16 c (a + i) false ws (send (.channel c (ws.flatMap (fun x => leBytes 8 x.1))) w)) w

/-- WRITE_RUN: whole bursts with fresh check bytes (R177). -/
def writeRun (c a start held : Nat) (met : RunMet) (data : List Byte) (w : Work) : Work :=
  match planRun w.toBlk c a (data.length / 64) start held met.low with
  | none => w
  | some (k, hit, x) =>
    let w := protocol c a (held % 2 ^ k) hit met.silent (setChan c x w)
    if met.silent then w else memStore (burstKey c a) (data.take (64 * k)) w

/-- The fixed training pattern. -/
def trainingBytes : List Byte :=
  (List.range 72).map (fun k =>
    let v := if k % 2 = 0 then 0x55 else 0xAA
    BitVec.ofNat 8 (if k / 8 % 2 = 1 then v % 16 * 16 + v / 16 else v))

/-- The die answers a command of its own with nothing: a missing preamble (R168). The spec gives the fault no burst address
where the command has none: a free value (log 137). -/
def dieSilent (c : Nat) (w : Work) : Work :=
  let f := takeFree w
  raise 0x042 c (Config.freeValue f.1 % 2 ^ 21) f.2

def readTraining (c : DieRead) (w : Work) : Work :=
  if chanWorks w.toBlk c.chan = false then w
  else if c.silent then dieSilent c.chan w
  else send (.channel c.chan trainingBytes) w

/-- SET_REFRESH: the tick rate, and the clock of its CS_N becomes clock 1,728 of the die's beat count (R166): the ticks that
are still to come in the beat are those after it. -/
def setRefresh (c : Nat) (r : RefreshSet) (w : Work) : Work :=
  if chanWorks w.toBlk c = false then w
  else
    let phase := (1728 + 1800 - r.clock) % 1800
    let past := ((tickClocks phase (r.rate == 2)).filter (fun t => decide (t ≤ r.clock))).length
    quadPut (chanQuad c) (0x84 + c % 3) (r.rate - 1) (setChan c { chanNow w.toBlk c with phase := phase, ticks := past } w)

/-- READ_STATUS: byte 0 is the count of refresh operations; the spec gives the other seven no value. -/
def readStatus (c : DieRead) (w : Work) : Work :=
  if chanWorks w.toBlk c.chan = false then w
  else if c.silent then dieSilent c.chan w
  else
    let f := takeFree w
    send (.channel c.chan (leBytes 1 (chanOf w.toBlk c.chan).ops ++ leBytes 7 (Config.freeValue f.1))) f.2

/-- The tick rate follows the owning quad's sensor (R167): two per beat from 80 degrees on, one after 4,096 beats below
70. -/
def rateSwitch (c : Nat) (w : Work) : Work :=
  let q := chanQuad c
  let t := quadGet w.toBlk q 0x90
  if chanWorks w.toBlk c = false then w
  else if !(fLt t 0x42A00000) then quadPut q (0x84 + c % 3) 1 (modChan c (fun x => { x with cool := none }) w)
  else if fLt t 0x428C0000 then
    let since := (chanOf w.toBlk c).cool.getD w.time.beat
    let w := modChan c (fun x => { x with cool := some since }) w
    if since + 4096 ≤ w.time.beat then quadPut q (0x84 + c % 3) 0 w else w
  else modChan c (fun x => { x with cool := none }) w

/-- The channels of the quads that an estimate reads. -/
def rateSwitches (quads : List Nat) (w : Work) : Work :=
  forAll ((quads.filter (fun q => decide (q < quadCount w.fuses))).flatMap (fun q => [3 * q, 3 * q + 1, 3 * q + 2])) rateSwitch w

/-! ## Background work (R181 to R183) -/

/-- Calibration: a matching pattern or not, and the step of the sampling delay, at most one. -/
def calibrate (c : Nat) (good : Bool) (step : Int) (w : Work) : Work :=
  let x := chanNow w.toBlk c
  let bad := if good then 0 else x.calBad + 1
  let w := setChan c { x with calBad := bad, delay := x.delay + clampInt (-1) 1 step } (send (.channel c trainingBytes) w)
  doIf (decide (4 ≤ bad)) (raise 0x043 c 0) w

/-- Scrub reads the burst at SCRUB_PTR and moves on. A burst that a foreground request has queued is read as it stands, and
only the scrub count takes notice of it (R183). -/
def scrubRead (c : Nat) (queued : Bool) (errs : List (Nat × Nat)) (w : Work) : Work :=
  let x := chanNow w.toBlk c
  let w := if queued then w else reportBurst 0x500 c x.scrub true (burstWords w (burstKey c x.scrub) errs) w
  let w := modQuad (chanQuad c) (fun r => { r with tested := testMark (26 + c % 3) r.tested }) w
  let x := chanNow w.toBlk c
  let from_ := x.scrubFrom.getD w.time.beat
  if x.scrub = 2097151 then
    quadAdd (chanQuad c) (0x80 + c % 3) 1
      (setChan c { x with scrub := 0, scrubFrom := some (w.time.beat + 1), starved := false } w)
  else setChan c { x with scrub := x.scrub + 1, scrubFrom := some from_ } w

/-- Slot 40 of the present beat (R181). A write-back stores the corrected burst: the same data bytes. A die that stays silent
leaves a calibration or a scrub read to its next slot (R168, R183). -/
def backgroundSlot (c : Nat) (r : SlotReport) (step : Int) (errs : List (Nat × Nat)) (w : Work) : Work :=
  let x := chanNow w.toBlk c
  if chanWorks w.toBlk c = false ∨ x.slot = true then w
  else
    let w := setChan c { x with slot := true, scrubFrom := some (x.scrubFrom.getD w.time.beat) } w
    if (w.time.beat + c) % 64 = 0 then (if r.silent then dieSilent c w else calibrate c r.agrees step w)
    else match x.queue with
      | _ :: rest => modChan c (fun x => { x with queue := rest }) w
      | [] => if r.silent then raise 0x042 c x.scrub w else scrubRead c r.queued errs w

/-- A scrub pass that has not completed in time (R182), reported once. -/
def scrubStarved (c : Nat) (w : Work) : Work :=
  let x := chanOf w.toBlk c
  match x.scrubFrom with
  | some f =>
    if f + 4260882 ≤ w.time.beat ∧ x.starved = false ∧ chanWorks w.toBlk c = true then
      raise 0x044 c x.scrub (modChan c (fun x => { x with starved := true }) w)
    else w
  | none => w

/-- The grade has a channel (00 R3). -/
def chanThere (s : State) (c : Nat) : Bool := decide (c < channelCount s.blk.fuses)

end Sys2Proof.Machine
end

