-- ==== Sys2Proof/Machine/TemporalMem.lean ====
section
/-! DEFINITION. Temporal memory (08): the page map, allocation and eviction, scores, the list a slice sees, the work
region the walk unit writes, and the slots of pair 4. -/

namespace Sys2Proof.Machine

/-! ## A slot's configuration (R187, R196, R209) -/

def tmGet (b : Blk) (t sub : Nat) : Nat := odGet b (0x26E0 + t) sub
def tmPut (t sub v : Nat) (w : Work) : Work := odPut (0x26E0 + t) sub v w
def tmSlot (b : Blk) (t : Nat) : TSlot := tabGet TSlot.idle b.tm.slots t
def modTm (t : Nat) (f : TSlot → TSlot) (w : Work) : Work := { w with tm.slots := tabMod TSlot.idle w.tm.slots t f }

def tmFwd (b : Blk) (t : Nat) : Nat := tmGet b t 2
def tmBack (b : Blk) (t : Nat) : Nat := tmGet b t 3
def tmEb (b : Blk) (t : Nat) : Nat := if tmGet b t 5 = 0xA then 2 else 1
/-- Bytes of a key, and of a value. -/
def tmDk (b : Blk) (t : Nat) : Nat := tmGet b t 6 * tmEb b t
def tmDv (b : Blk) (t : Nat) : Nat := tmGet b t 7 * tmEb b t
def tmPageBytes (b : Blk) (t : Nat) : Nat := 64 * (tmDk b t + tmDv b t)
def tmQuota (b : Blk) (t : Nat) : Nat := tmGet b t 8
def tmA (b : Blk) (t : Nat) : Nat := tmGet b t 9 + tmGet b t 0xA + tmGet b t 0xB
def tmC (b : Blk) (t : Nat) : Nat := ceilDiv (tmQuota b t) 512
def tmAppend (b : Blk) (t : Nat) : Nat := tmGet b t 0xC
def pair4Mode (b : Blk) (t : Nat) : Bool := decide (512 < tmQuota b t)
def tmBase (b : Blk) (t : Nat) : Nat := odGet b (0x2640 + tmGet b t 4) 2
def tmFrame (b : Blk) (t f : Nat) : Nat := tmBase b t + f * tmPageBytes b t
def tmIndex (b : Blk) (t f : Nat) : Nat := tmBase b t + tmQuota b t * tmPageBytes b t + f * tmDk b t

/-- The engines of a placement's quads, ascending. -/
def placeEngines (quads : Nat) : List Nat := (List.range 256).filter (inPlace quads)

/-- The attention engine (R196): of the engines of the forward context's placement in force. -/
def tmEngine (b : Blk) (t : Nat) : Option Nat := (placeEngines (activeQuads b (tmFwd b t)))[tmGet b t 0xE]?

/-- The bytes of the parts of the work region, in order: header, entries, descriptors, mask, scores, masses, append
source, summary source, discard, page buffer, index buffer. -/
def tmParts (b : Blk) (t : Nat) : List Nat :=
  let a := tmA b t
  let src := tmAppend b t * (tmDk b t + tmDv b t)
  [64, 16 * a, 32 * (a + tmC b t + 3), 256 * a, 4 * 512 * tmC b t, 4 * a, src, tmDk b t, src + tmDk b t,
   a * tmPageBytes b t, min (tmQuota b t) 512 * tmDk b t]

/-- The scratchpad byte address of part k: each starts at the next 64-byte boundary. -/
def tmPart (b : Blk) (t k : Nat) : Nat :=
  64 * tmGet b t 0xF + ((tmParts b t).take k).foldl (fun s n => s + 64 * ceilDiv n 64) 0

/-- The whole region. -/
def tmRegionOk (b : Blk) (t e : Nat) : Bool :=
  spmRangeOk b (tmFwd b t) e (64 * tmGet b t 0xF) (tmPart b t 11 - 64 * tmGet b t 0xF)

/-! ## The page map (R189 to R191) -/

def pageKey (t f : Nat) : Nat := t * 32768 + f

/-- The resident pages of a slot: frame and page. -/
def tmPages (b : Blk) (t : Nat) : List (Nat × Page) :=
  b.tm.pages.filterMap (fun p => if p.1 / 32768 = t then p.2.map (fun x => (p.1 % 32768, x)) else none)

/-- A change of an entry: what the look-aside buffers hold of it goes (R199). -/
def setPage (t f : Nat) (x : Option Page) (w : Work) : Work :=
  let old := tabGet none w.tm.pages (pageKey t f)
  if old = x then w
  else
    let gone := (match old with | some p => [p.logical] | none => []) ++ (match x with | some p => [p.logical] | none => [])
    { w with tm := { w.tm with pages := tabSet none w.tm.pages (pageKey t f) x,
                               lab := w.tm.lab.map (fun l => l.filter (fun k => !(k.1 == t && gone.contains k.2))) } }

/-- The newest k logical pages that are resident. -/
def newestPages (b : Blk) (t k : Nat) : List Nat :=
  ((tmPages b t).map (fun p => p.2.logical)).foldl (fun l x =>
    ((l.filter (fun y => decide (x < y))) ++ [x] ++ l.filter (fun y => decide (y < x))).take k) []

def residentOf (b : Blk) (t lp : Nat) : Option (Nat × Page) := (tmPages b t).find? (fun p => p.2.logical == lp)

/-- The page that gives way (R191): of the lowest score, then of the lowest logical page. -/
def tmVictim (b : Blk) (t : Nat) : Option (Nat × Page) :=
  let safe := newestPages b t (tmGet b t 9 - 1)
  ((tmPages b t).filter (fun p => !p.2.pinned && !safe.contains p.2.logical)).foldl (fun m p => match m with
    | none => some p
    | some q => if fLt p.2.score q.2.score || (!(fLt q.2.score p.2.score) && decide (p.2.logical < q.2.logical)) then some p
        else some q) none

/-- Allocation at a release boundary (R191). -/
def tmAllocate (t : Nat) (w : Work) : Work :=
  let b := w.toBlk
  let pos := tmGet b t 0x15
  let new : Page := { logical := pos / 64, fill := 0, score := 0, pinned := false, glob := false }
  if pos % 64 ≠ 0 ∨ (residentOf b t (pos / 64)).isSome = true then w
  else if (tmPages b t).length < tmQuota b t then
    let used := (tmPages b t).map (·.1)
    match (List.range (tmQuota b t)).find? (fun f => !used.contains f) with
    | some f => setPage t f (some new) w
    | none => w
  else match tmVictim b t with
    | some (f, _) => setPage t f (some new) (odAdd (0x26E0 + t) 0x19 1 w)
    | none => w

/-! ## Pins (R193) -/

def pinned (b : Blk) (t : Nat) : Nat := ((tmPages b t).filter (·.2.pinned)).length
def globals (b : Blk) (t : Nat) : Nat := ((tmPages b t).filter (·.2.glob)).length

/-- A pin that is allowed. -/
def pinOk (b : Blk) (t lp : Nat) (glob : Bool) : Bool :=
  match residentOf b t lp with
  | none => false
  | some (_, p) =>
    decide (pinned b t + b2n (!p.pinned) ≤ tmQuota b t - tmGet b t 9) &&
    decide (globals b t + b2n (glob && !p.glob) ≤ tmGet b t 0xA)

def countPins (t : Nat) (w : Work) : Work := tmPut t 0x18 (pinned w.toBlk t) w

def pinPage (t lp : Nat) (glob : Bool) (w : Work) : Work :=
  match residentOf w.toBlk t lp with
  | none => w
  | some (f, p) =>
    if pinOk w.toBlk t lp glob then countPins t (setPage t f (some { p with pinned := true, glob := p.glob || glob }) w) else w

def unpinPage (t lp : Nat) (w : Work) : Work :=
  match residentOf w.toBlk t lp with
  | none => w
  | some (f, p) => countPins t (setPage t f (some { p with pinned := false, glob := false }) w)

/-- TM_RESET (R209): every page free, POSITION, scores and pins cleared. -/
def tmReset (t : Nat) (w : Work) : Work :=
  let w := { w with tm := { w.tm with pages := w.tm.pages.filter (fun p => p.1 / 32768 != t),
                                      lab := w.tm.lab.map (fun l => l.filter (fun k => k.1 != t)) } }
  let w := modTm t (fun s => { s with scores := none, staged := none, list := [], phase := 0, back := 0, fwdOk := false }) w
  tmPut t 0x13 1 (tmPut t 0x15 0 (tmPut t 0x18 0 w))

/-- Invalidate the look-aside buffers (R199), and forget the scores at an entry to RUN or ADAPT: a list that pair 4 has staged
keeps no retrieved entry (R201). -/
def tmEnter (w : Work) : Work :=
  let forget := fun (_ : Nat) (s : TSlot) =>
    { s with scores := none, staged := s.staged.map (fun l => l.filter (fun e => e.source != 1)) }
  { w with tm.lab := [[], []], tm.slots := tabMap TSlot.idle forget w.tm.slots }

/-! ## Scores (R192) -/

/-- A mass as it counts. -/
def massOk (m : Nat) : Bool := !(fIsNaN m || fIsInf m || (fpNeg fp32 m && !fIsZero m))

/-- The update of every resident page of a slot. -/
def tmScores (t : Nat) (given : Bool) (w : Work) : Work :=
  let s := tmSlot w.toBlk t
  let w := if given then odAdd (0x26E0 + t) 0x1B (s.masses.filter (fun m => !massOk m)).length w
    else odAdd (0x26E0 + t) 0x1C 1 w
  forAll (tmPages w.toBlk t) (fun p w =>
    let m := if given then
        (match (List.zip s.list s.masses).find? (fun x => x.1.frame == p.1) with
         | some x => if massOk x.2 then Nat.land x.2 0x7FFFFFFF else 0
         | none => 0) else 0
    setPage t p.1 (some { p.2 with score := fAdd (fMul p.2.score (tmGet w.toBlk t 0xD)) m }) w) w

/-! ## Uncorrectable entries of the page map (R207) -/

/-- The entry of a logical page is cleared, its frame freed, and the error reported; one of the newest takes the slot out of
service. -/
def mapClear (t lp : Nat) (w : Work) : Work :=
  match residentOf w.toBlk t lp with
  | none => w
  | some (f, _) =>
    let near := (newestPages w.toBlk t (tmGet w.toBlk t 9)).contains lp
    let w := countPins t (setPage t f none w)
    doIf near (tmPut t 0x13 2) (raiseBy none16 5 0x030 0x400 lp w)

/-- The slice that the entry was read for is stopped. -/
def mapUncorrectable (t n lp : Nat) (w : Work) : Work := stopSlice n false (mapClear t lp w)

/-- The resident pages of a slot among those found uncorrectable. -/
def mapBad (b : Blk) (maps : List (Nat × Nat)) (t : Nat) : List Nat :=
  (maps.filter (fun p => p.1 == t && (residentOf b t p.2).isSome)).map (·.2)

/-- The end of a forward slice's response time (R188, R192). A slice that meets an uncorrectable entry is stopped, and changes
no score (R207). -/
def tmForwardEnd (maps : List (Nat × Nat)) (t : Nat) (good : Bool) (w : Work) : Work :=
  let bad := mapBad w.toBlk maps t
  let good := good && bad.isEmpty
  let w := forAll bad (mapUncorrectable t (tmFwd w.toBlk t)) w
  let s := tmSlot w.toBlk t
  let w := if good then
      let w := tmScores t (s.phase == 4) w
      let n := tmAppend w.toBlk t
      let w := match residentOf w.toBlk t (s.pos / 64) with
        | some (f, p) => setPage t f (some { p with fill := min 64 (p.fill + n) }) w
        | none => w
      tmPut t 0x15 (s.pos + n) w
    else w
  modTm t (fun s => { s with phase := 0, fwdOk := good }) w

/-- A slot whose second trigger has been given but whose masses have not been read (R198). -/
def triggerOf (b : Blk) (t : Nat) : Nat := ((syncOf b (tmGet b t 0x10)).map (·.count)).getD 0
def tmPending (b : Blk) (n : Nat) : Bool :=
  (List.range 32).any (fun t => tmFwd b t == n && (tmSlot b t).phase == 3 && decide (0 < triggerOf b t))

/-- The end of the response time of a context's slice, for its slots. -/
def tmResponse (maps : List (Nat × Nat)) (n : Nat) (good : Bool) (w : Work) : Work :=
  let w := forAll ((List.range 32).filter (fun t => tmFwd w.toBlk t == n && (tmSlot w.toBlk t).phase != 0)) (fun t w =>
    tmForwardEnd maps t good w) w
  forAll ((List.range 32).filter (fun t => tmBack w.toBlk t == n)) (fun t w => modTm t (fun s => { s with back := 0 }) w) w

/-! ## The list (R194, R195) -/

/-- A rank of a candidate score: the larger comes first, a NaN below −∞. -/
def scoreOrder (x : Nat) : Int :=
  if fIsNaN x then -(2 ^ 40) else if fIsZero x then 0 else if fpNeg fp32 x then -(fpMag fp32 x : Int) else fpMag fp32 x

/-- Insert a candidate by score, then by logical page. -/
def rankInsert (x : Int × Nat × Page) : List (Int × Nat × Page) → List (Int × Nat × Page)
  | [] => [x]
  | y :: r =>
    if y.1 < x.1 ∨ (y.1 = x.1 ∧ x.2.2.logical < y.2.2.logical) then x :: y :: r else y :: rankInsert x r

/-- Entries in ascending logical page. -/
def entryInsert (x : TEntry) : List TEntry → List TEntry
  | [] => [x]
  | y :: r => if x.logical < y.logical then x :: y :: r else y :: entryInsert x r

/-- The valid entries of a slice's list, from the candidate scores by frame, none where there are no scores. -/
def tmList (b : Blk) (t pos : Nat) (scores : Option (List Nat)) : List TEntry :=
  let local_ := newestPages b t (tmGet b t 9)
  let ps := tmPages b t
  let cand := ps.filter (fun p => !p.2.glob && !local_.contains p.2.logical)
  let ranked := match scores with
    | none => []
    | some l => cand.foldl (fun (acc : List (Int × Nat × Page)) (p : Nat × Page) => rankInsert (scoreOrder (nth 0 l p.1), p.1, p.2) acc) []
  let got := (ranked.take (tmGet b t 0xB)).map (fun (x : Int × Nat × Page) => x.2.1)
  let fill := fun (p : Page) => if p.logical = pos / 64 then pos % 64 + tmAppend b t else p.fill
  ps.foldl (fun l p =>
    let e := fun (src : Nat) => ({ frame := p.1, logical := p.2.logical, fill := fill p.2, source := src } : TEntry)
    if p.2.glob then entryInsert (e 0) l
    else if local_.contains p.2.logical then entryInsert (e 2) l
    else if got.contains p.1 then entryInsert (e 1) l
    else l) []

/-! ## The look-aside buffer (R199) -/

/-- One translation of a slot's page on a die: counted, and the page most recently used. -/
def labLook (die t lp : Nat) (w : Work) : Work :=
  let l := nth [] w.tm.lab die
  let hit := l.contains (t, lp)
  let l := ((t, lp) :: l.filter (fun k => k != (t, lp))).take 64
  odAdd 0x26C0 (5 + 2 * die + b2n (!hit)) 1 { w with tm.lab := setNth w.tm.lab die l }

def labLooks (die t : Nat) (es : List TEntry) (w : Work) : Work :=
  if pair4Mode w.toBlk t then w else forAll es (fun e w => labLook die t e.logical w) w

/-! ## What the walk unit writes (R197) -/

/-- A DMA descriptor of one row: kind, source space, engine and address, destination space, engine and address, bytes. -/
def dmaWord (kind src se sa dst de da bytes : Nat) : Nat :=
  2 ^ 252 + kind * 2 ^ 249 + src * 2 ^ 246 + dst * 2 ^ 243 + se * 2 ^ 232 + de * 2 ^ 224 + sa * 2 ^ 152 + bytes * 2 ^ 128 +
  da * 2 ^ 88

/-- The descriptors A to A + C + 2. A backward slice's appends and summary go to the discard part. -/
def tmFixedDescs (b : Blk) (t e frame pos : Nat) (back : Bool) : List Nat :=
  let n := tmAppend b t
  let dk := tmDk b t
  let dv := tmDv b t
  let src := tmPart b t 6
  let dis := tmPart b t 8
  let f := tmFrame b t frame
  let store := fun (from_ to_ off len : Nat) =>
    if back then dmaWord 0 0 e from_ 0 e (dis + off) len else dmaWord 0 0 e from_ 2 0 to_ len
  (List.range (tmC b t)).map (fun j =>
    dmaWord 0 2 0 (tmIndex b t (512 * j)) 0 e (tmPart b t 10) (min 512 (tmQuota b t - 512 * j) * dk)) ++
  [store src (f + pos % 64 * dk) 0 (n * dk), store (src + n * dk) (f + 64 * dk + pos % 64 * dv) (n * dk) (n * dv),
   store (tmPart b t 7) (tmIndex b t frame) (n * (dk + dv)) dk]

/-- Descriptors 0 to A − 1. -/
def tmPageDescs (b : Blk) (t e : Nat) (l : List TEntry) : List Nat :=
  (List.range (tmA b t)).map (fun i =>
    let da := tmPart b t 9 + i * tmPageBytes b t
    match l[i]? with
    | some x => dmaWord 0 2 0 (tmFrame b t x.frame) 0 e da (tmPageBytes b t)
    | none => dmaWord 2 0 0 0 0 e da (tmPageBytes b t))

def entryWord (x : TEntry) : Nat := x.frame * 2 ^ 64 + x.source * 2 ^ 50 + 2 ^ 49 + x.fill * 2 ^ 42 + x.logical

/-- The entry table, and the mask. -/
def tmEntryBytes (b : Blk) (t : Nat) (l : List TEntry) : List Byte :=
  (List.range (tmA b t)).flatMap (fun i => leBytes 16 ((l[i]?).elim 0 entryWord))
def tmMaskBytes (b : Blk) (t : Nat) (l : List TEntry) : List Byte :=
  (List.range (tmA b t)).flatMap (fun i => (List.range 64).flatMap (fun j =>
    leBytes 4 (if j < (l[i]?).elim 0 (·.fill) then 0 else 0xFF800000)))

/-- Phase 1's bytes. -/
def tmPhase1 (t e : Nat) (back : Bool) (w : Work) : Work :=
  let b := w.toBlk
  let s := tmSlot b t
  let frame := ((residentOf b t (s.pos / 64)).map (·.1)).getD 0
  let flags := b2n (pair4Mode b t) + 2 * b2n back + 4 * b2n (pair4Mode b t && s.scores.isNone)
  let head := leBytes 1 1 ++ leBytes 1 (tmA b t) ++ leBytes 1 (tmC b t) ++ leBytes 1 flags ++ leBytes 4 0 ++ leBytes 8 s.pos ++
    leBytes 8 s.rel ++ leBytes 2 (tmPages b t).length ++ leBytes 38 0
  let w := put (spmKey e (tmPart b t 0)) head w
  put (spmKey e (tmPart b t 2 + 32 * tmA b t)) ((tmFixedDescs b t e frame s.pos back).flatMap (leBytes 32)) w

/-- Phase 2's bytes. -/
def tmPhase2 (t e : Nat) (l : List TEntry) (w : Work) : Work :=
  let b := w.toBlk
  let w := put (spmKey e (tmPart b t 1)) (tmEntryBytes b t l) w
  let w := put (spmKey e (tmPart b t 2)) ((tmPageDescs b t e l).flatMap (leBytes 32)) w
  put (spmKey e (tmPart b t 3)) (tmMaskBytes b t l) w

/-- Take one from SEM_TRIGGER. -/
def takeTrigger (t : Nat) (w : Work) : Work :=
  { w with syncs := tabMod none w.syncs (tmGet w.toBlk t 0x10) (fun s => s.map (fun s => { s with count := s.count - 1 })) }

def signalDone (t e : Nat) (w : Work) : Work := signalSync e (tmGet w.toBlk t 0x11) 1 w

/-- A slice that still runs. -/
def sliceRuns (b : Blk) (n : Nat) : Bool :=
  (sliceOf b n).live && (sliceOf b n).stopped.isNone && (sliceOf b n).doneAt.isNone

/-! ## The walk (R198, R199, R205) -/

/-- WALK_PHASE1 of slot t, for its forward or its backward slice; `ue` names a logical page whose map entry is
uncorrectable. -/
def walkPhase1 (t : Nat) (back : Bool) (ue : Option Nat) (w : Work) : Work :=
  let b := w.toBlk
  let s := tmSlot b t
  let n := if back then tmBack b t else tmFwd b t
  match tmEngine b t with
  | none => w
  | some e =>
    if (if back then s.back else s.phase) ≠ 1 ∨ sliceRuns b n = false then w
    else match ue.bind (residentOf b t) with
      | some x => mapUncorrectable t n x.2.logical w
      | none =>
        let near := (tmList b t s.pos none)
        let w := labLooks (e / 128) t (if back then s.list else near) w
        let w := signalDone t e (tmPhase1 t e back w)
        modTm t (fun s => if back then { s with back := 2 } else { s with phase := 2 }) w

/-- The candidate scores in the work region, by frame. -/
def tmScoresAt (w : Work) (t e : Nat) : List Nat :=
  (List.range (tmQuota w.toBlk t)).map (fun f => rdNat w (spmKey e (tmPart w.toBlk t 4 + 4 * f)) 4)

/-- WALK_PHASE2: on the first trigger of a forward slice, or after phase 1 of a backward one. -/
def walkPhase2 (t : Nat) (back : Bool) (ue : Option Nat) (w : Work) : Work :=
  let b := w.toBlk
  let s := tmSlot b t
  let n := if back then tmBack b t else tmFwd b t
  match tmEngine b t with
  | none => w
  | some e =>
    if (if back then s.back else s.phase) ≠ 2 ∨ sliceRuns b n = false ∨ (back = false ∧ triggerOf b t = 0) then w
    else match ue.bind (residentOf b t) with
      | some x => mapUncorrectable t n x.2.logical w
      | none =>
        if back then signalDone t e (modTm t (fun s => { s with back := 3 }) (tmPhase2 t e s.list w))
        else
          let w := takeTrigger t w
          let l := if pair4Mode b t then s.list else tmList b t s.pos (some (tmScoresAt w t e))
          let w := labLooks (e / 128) t (l.filter (fun x => x.source == 1)) w
          let keep := if pair4Mode b t then some (tmScoresAt w t e) else none
          signalDone t e (modTm t (fun s => { s with phase := 3, list := l, scores := keep }) (tmPhase2 t e l w))

/-- MASS_READ: on the second trigger. -/
def massRead (t : Nat) (w : Work) : Work :=
  let b := w.toBlk
  match tmEngine b t with
  | none => w
  | some e =>
    if (tmSlot b t).phase ≠ 3 ∨ (sliceOf b (tmFwd b t)).live = false ∨ triggerOf b t = 0 then w
    else
      let ms := (List.range (tmA b t)).map (fun i => rdNat w (spmKey e (tmPart b t 5 + 4 * i)) 4)
      modTm t (fun s => { s with phase := 4, masses := ms }) (takeTrigger t w)

/-- PAIR4_LIST_BUILD: the list for the next release, with that release's allocation applied (R201). An entry found
uncorrectable is cleared and the list is not staged, so that the slice it is for stops as late unless another is built (R207;
DEDUCED, log 142). -/
def pair4Build (t : Nat) (ue : Option Nat) (w : Work) : Work :=
  let b := w.toBlk
  if pair4Mode b t = false ∨ tmGet b t 0x13 ≠ 1 ∨ (sliceOf b (tmFwd b t)).live = true ∨ pairRuns b 4 = false then w
  else match ue.bind (residentOf b t) with
  | some x => modTm t (fun s => { s with staged := none }) (mapClear t x.2.logical w)
  | none =>
    let next := tmAllocate t w
    modTm t (fun s => { s with staged := some (tmList next.toBlk t (tmGet b t 0x15) s.scores) }) w

/-! ## Release (R191, R201, R205, R207) -/

/-- A slot at a release of its forward context: whether the slice may go on. An entry found uncorrectable is cleared before the
allocation, which stands (R207). -/
def tmForwardRelease (maps : List (Nat × Nat)) (t : Nat) (w : Work) : Bool × Work :=
  let b := w.toBlk
  if tmGet b t 0x13 ≠ 1 then (false, w)
  else
    let bad := mapBad b maps t
    let w := forAll bad (mapClear t) w
    let s := tmSlot b t
    let pos := tmGet b t 0x15
    let late := pair4Mode b t && (s.staged.isNone || !pairRuns b 4)
    let w := tmAllocate t w
    let w := modTm t (fun s => { s with phase := if late then 0 else 1, fwdOk := false, pos := pos, rel := w.time.beat,
                                        list := s.staged.getD [], masses := [], staged := none,
                                        scores := if late then none else s.scores }) w
    if late then (false, raise 0x050 t (tmFwd b t) (odAdd (0x26E0 + t) 0x1A 1 w)) else (bad.isEmpty, w)

/-- A slot at a release of its backward context. -/
def tmBackRelease (t : Nat) (w : Work) : Bool × Work :=
  let s := tmSlot w.toBlk t
  if tmGet w.toBlk t 0x13 ≠ 1 ∨ s.fwdOk = false then (false, w)
  else (true, modTm t (fun s => { s with back := 1, fwdOk := false }) w)

/-- The slots of a context that is released, in ascending number: false when its slice is to be stopped. -/
def tmRelease (maps : List (Nat × Nat)) (n : Nat) (w : Work) : Bool × Work :=
  (List.range 32).foldl (fun (p : Bool × Work) t =>
    let r := if tmFwd p.2.toBlk t = n then tmForwardRelease maps t p.2
      else if tmBack p.2.toBlk t = n then tmBackRelease t p.2
      else (true, p.2)
    (p.1 && r.1, r.2)) (true, w)

/-! ## Commits and admission (R202, R209) -/

/-- After a commit: the mode and state of a slot; a change of its layout resets it. -/
def tmCommit (t : Nat) (changed : Bool) (w : Work) : Work :=
  let on := tmFwd w.toBlk t != none16
  let w := tmPut t 0x12 (b2n (on && pair4Mode w.toBlk t)) w
  let w := doIf (changed && !(tmPages w.toBlk t).isEmpty) (tmReset t) w
  if on then (if tmGet w.toBlk t 0x13 = 0 then tmPut t 0x13 1 w else w) else tmPut t 0x13 0 w

/-- QUOTA_COMMITTED. -/
def tmQuotas (b : Blk) : Nat :=
  (List.range 32).foldl (fun s t => if tmFwd b t = none16 then s else s + tmQuota b t) 0

/-- The counts that show at each boundary. -/
def tmBoundary (w : Work) : Work :=
  let all := (w.tm.pages.filter (fun p => p.2.isSome)).length
  let w := forAll (List.range 32) (fun t w =>
    let n := (tmPages w.toBlk t).length
    if tmGet w.toBlk t 0x16 = n then w else tmPut t 0x16 n w) w
  if odGet w.toBlk 0x26C0 3 = all then w else odPut 0x26C0 3 all w

/-- A slice-scope semaphore of the forward context on the attention engine's die. -/
def tmSemOk (b : Blk) (t e o : Nat) : Bool :=
  decide (o < 8192) && o / 4096 == e / 128 &&
  (match syncOf b o with
   | some s => s.kind == .semaphore && !s.persistent && s.owner == tmFwd b t
   | none => false)

/-- What R202 asks of a slot for its context n on a placement: R201 and R205 hold for its two contexts, whichever asks. -/
def tmSlotOk (b : Blk) (t n p : Nat) : Bool :=
  let fwd := tmFwd b t
  let back := tmBack b t
  let es := placeEngines (placeQuads b fwd (if n = fwd then p else if activePlace b fwd < 4 then activePlace b fwd else 0))
  tmGet b t 0x13 == 1 &&
  (match es[tmGet b t 0xE]? with
   | none => false
   | some e => tmRegionOk b t e && tmSemOk b t e (tmGet b t 0x10) && tmSemOk b t e (tmGet b t 0x11)) &&
  (!pair4Mode b t || (decide (2 ≤ ctxClass b fwd) &&
    decide (ctxGet b fwd 5 + 4 + ceilDiv (tmQuota b t) 2048 ≤ ctxGet b fwd 3))) &&
  (back == none16 || (ctxGet b back 7 == fwd && decide (ctxGet b back 5 + ctxGet b fwd 5 ≤ ctxGet b back 3)))

/-- The admission check of a context's slots (code 0x000E). -/
def tmAdmits (b : Blk) (n p : Nat) : Bool :=
  (List.range 32).all (fun t => (tmFwd b t != n && tmBack b t != n) || tmSlotOk b t n p)

/-- A quad is removed (R207): a slot whose pool lies on one of its channels goes out of service. -/
def tmQuadRemoved (q : Nat) (w : Work) : Work :=
  forAll ((List.range 32).filter (fun t => tmFwd w.toBlk t != none16 && chanQuad (memChannel (tmBase w.toBlk t)) == q))
    (fun t w => tmPut t 0x13 2 w) w

end Sys2Proof.Machine
end

