-- ==== Sys2Proof/Machine/Ingest.lean ====
section
/-! DEFINITION. The record pipeline (09): frames and positions, stand-ins, the record table and the digest chain (10 R248,
R249), the hub's writer with its rings, stores and masks, and the taps (10 R267). -/

namespace Sys2Proof.Machine

/-! ## Streams -/

def inOf (b : Blk) (n : Nat) : InStream := tabGet InStream.idle b.ingest.streams n
def modIn (n : Nat) (f : InStream → InStream) (w : Work) : Work :=
  { w with ingest.streams := tabMod InStream.idle w.ingest.streams n f }
def inEnabled (b : Blk) (n : Nat) : Bool := inGet b n 2 == 1
def inReplay (b : Blk) (n : Nat) : Bool := inGet b n 4 == 1
/-- The stream's context runs (02 R46): it is admitted, not suspended, and its state releases slices. -/
def inCtxRuns (b : Blk) (n : Nat) : Bool := activeState b && ctxGet b (inContext b n) 0x0B == 2
/-- The hub's writer may write to the compute dies (R237). -/
def inWrites (b : Blk) (f : SFrame) : Bool := f.wr && !resetting b && activeState b
/-- In ADAPT a replay stream has no deadlines (R235). -/
def inFree (b : Blk) (n : Nat) : Bool := b.dev.state == .adapt && inReplay b n
/-- The ingest pipeline runs: the hub is out of reset and firmware has started. -/
def inRuns (b : Blk) : Bool := servedState b && b.dev.state != .safe && !b.dev.warm && !b.dev.noRefclk

def deadlineOf (b : Blk) (n : Nat) (f : SFrame) (r : Nat) : Nat :=
  f.ref + inGet b n 0x12 + r * inGet b n 0x13 + inGet b n 0x14

def modFrame (n idx : Nat) (f : SFrame → SFrame) (w : Work) : Work :=
  modIn n (fun s => { s with frames := s.frames.map (fun x => if x.idx = idx then f x else x) }) w
def frameOf (b : Blk) (n idx : Nat) : Option SFrame := (inOf b n).frames.find? (fun f => f.idx == idx)

/-! ## Records (R211, R212) -/

def inLayout (b : Blk) (n : Nat) : Nat := if inType b n = 2 ∨ inType b n = 4 then inGet b n 0xB else 0xFF

/-- The 32-byte header of a record. -/
def recHeader (b : Blk) (n ctr pos time flags count : Nat) (payload : List Byte) : List Byte :=
  leBytes 1 1 ++ leBytes 1 (inType b n) ++ leBytes 1 n ++ leBytes 1 (inLayout b n) ++ leBytes 2 ctr ++ leBytes 2 pos ++
  leBytes 8 time ++ leBytes 2 flags ++ leBytes 2 count ++ leBytes 4 payload.length ++ leBytes 4 (crc32c payload) ++ leBytes 4 0

/-- COORD_KIND in FLAGS. -/
def coordFlags (b : Blk) (n : Nat) : Nat := if inType b n = 2 then lGet b (inGet b n 0xB) 0xA % 4 * 16 else 0

/-- CAPTURE_TIME of a camera row (R219). -/
def rowTime (b : Blk) (n : Nat) (f : SFrame) (pos : Nat) : Nat :=
  twos 64 ((f.ref : Int) + sgn 32 (inGet b n 0xC) + (pos * inGet b n 0x13 : Nat))

/-! ## Taps (10 R267) -/

/-- The bytes a port carries in a beat (10 R269); a USB port that trained lower scales with its rate. -/
def portBudget (b : Blk) (port : Nat) : Nat :=
  match port with
  | 0 => (match odGet b 0x2800 2 with | 4 => 4500 | 3 => 2250 | 2 => 1125 | 1 => 108 | _ => 0)
  | 5 => 0
  | _ => 2250

/-- A port is up: a USB session is open, or the Ethernet link is. -/
def portUp (b : Blk) (port : Nat) : Bool :=
  if port = 0 then b.links.usb.up else if port = 5 then true else odGet b (0x2820 + (port - 1)) 0xB == 1

def portUsed (b : Blk) (port : Nat) : Nat := tabGet 0 b.res.used port
def usePort (port k : Nat) (w : Work) : Work := { w with res.used := tabSet 0 w.res.used port (portUsed w.toBlk port + k) }

/-- One tap record on an output stream, dropped whole when it does not fit, or when `drop` says so; TAP_SEQ counts it either
way. -/
def tapRecord (drop : Bool) (s : Nat) (bs : List Byte) (w : Work) : Work :=
  let port := odGet w.toBlk (0x6000 + s) 6
  let sq := (outOf w.toBlk s).tapSeq
  let w := modOut s (fun o => { o with tapSeq := (sq + 1) % 2 ^ 32 }) w
  let all := leBytes 1 1 ++ leBytes 1 s ++ leBytes 2 0 ++ leBytes 4 sq ++ bs
  if drop = false ∧ portUp w.toBlk port = true ∧ portUsed w.toBlk port + all.length + 64 ≤ portBudget w.toBlk port then
    send (.record port sq all) (usePort port (all.length + 64) w)
  else odAdd (0x6000 + s) 0x48 1 w

/-- A tap is on: its output stream is enabled and of TYPE 0x01. -/
def tapsOf (b : Blk) (n : Nat) : List Nat :=
  (List.range 64).filter (fun s => odGet b (0x6000 + s) 2 == 1 && odGet b (0x6000 + s) 3 == 1 && odGet b (0x6000 + s) 5 == n)

/-- The taps of a stream; the throttle's L1 drops their records whole (14 R363). -/
def tapAll (n : Nat) (bs : List Byte) (w : Work) : Work :=
  forAll (tapsOf w.toBlk n) (fun s => tapRecord (decide (0 < actionCount w.toBlk 5)) s bs) w

/-! ## The hub's writer (R217, R224, R232, 07 R173) -/

/-- A writer's refusal (07 R173); the spec names no unit of the hub, so the unit is free (log 31). -/
def writerRefused (n : Nat) (w : Work) : Work :=
  let (k, w) := takeFree w
  raise 0x018 (Config.freeValue k % 8192) (inContext w.toBlk n * 256 + 0x0B) w

/-- Bytes to main memory, work of the stream's context. -/
def writerStore (n a : Nat) (bs : List Byte) (w : Work) : Work :=
  if bs = [] then w
  else if memWriteOk w.toBlk (inContext w.toBlk n) a bs.length then
    countBursts (inContext w.toBlk n) (memChannel a) (ceilDiv (a % 64 + bs.length) 64) (memStore a bs w)
  else writerRefused n w

/-- The engine and header unit of target k (R232). -/
def targetOf (b : Blk) (n k : Nat) : Option (Nat × Nat) :=
  let t := inGet b n (0x25 + k)
  ((placeEngines (activeQuads b (inContext b n)))[fld t 31 24]?).map (fun e => (e, fld t 10 0))
def targets (b : Blk) (n : Nat) : List Nat := List.range (min 8 (inGet b n 0x24))

/-- A ring's header matches the stream. -/
def ringMatches (b : Blk) (n : Nat) (h : List Byte) : Bool :=
  hImgW h == outW b n && hImgH h == outH b n && hFmt h == inGet b n 0x20 && hChannels h == outChannels b n

/-- The writer restarts a ring (05 R107): the line buffer's fields go to 0. -/
def restartRing (e u : Nat) (w : Work) : Work :=
  let h := ringHeader w e u
  setRing e u (h.take 32 ++ List.replicate 32 0) w

/-- A row of a ring from an output row: the ring's columns, each padded to its pixel's bytes. A column beyond the row has
no stated value. -/
def ringRow (b : Blk) (n : Nat) (h row : List Byte) (open_ : Nat) : List Byte :=
  let px := outChannels b n * outElemBytes b n
  let one : Nat → List Byte := fun x =>
    if x < outW b n then (row.drop (x * px)).take px
    else (List.range px).map (fun i => BitVec.ofNat 8 (Config.freeValue (open_ + i)))
  let cols : List Byte := (List.range (hSlotW h)).flatMap (fun x => one (hX0 h + x) ++ List.replicate (hPixBytes h - px) 0)
  (cols ++ List.replicate (64 * hSlotUnits h - cols.length) 0).take (64 * hSlotUnits h)

/-- The next row of a ring may be written: its slot is retired (05 R110). -/
def slotFree (h : List Byte) : Bool := decide (hRowsIn h < hRetire h + hRows h)

def writeRing (n e u : Nat) (row : List Byte) (w : Work) : Work :=
  let h := ringHeader w e u
  let a := lbKey e (64 * (u + 1 + hRowsIn h % hRows h * hSlotUnits h))
  let w' := put a (ringRow w.toBlk n h row w.free) { w with free := w.free + 8 }
  put (lbKey e (64 * u + 32)) (leBytes 8 (hRowsIn h + 1)) w'

/-- Target k writes the rows it holds as far as their slots are retired; `fuel` rows at most. A row that comes to the port and
is held there counts in LB_WRITE_HOLDS of the ring's quad (05 R110, R126); `anew` says that the first one comes to it now. -/
def drainHeld (n k : Nat) : Bool → Nat → Work → Work
  | _, 0, w => w
  | anew, fuel + 1, w =>
    match tabGet [] (inOf w.toBlk n).held k, targetOf w.toBlk n k with
    | row :: rest, some (e, u) =>
      if slotFree (ringHeader w e u) then
        drainHeld n k true fuel (writeRing n e u row (modIn n (fun s => { s with held := tabSet [] s.held k rest }) w))
      else doIf anew (quadAdd (quadOf e) 0x40 1) w
    | _, _ => w

/-- LB_HELD_WRITE_RESUME for the hub's writers: every target of every stream. -/
def writersResume (w : Work) : Work :=
  if resetting w.toBlk then w
  else forAll (w.ingest.streams.map (·.1)) (fun n w =>
    forAll (targets w.toBlk n) (fun k w => drainHeld n k false (tabGet [] (inOf w.toBlk n).held k).length w) w) w

/-- The rings' headers as the frame's first row finds them (R232). -/
def checkRings (n idx : Nat) (w : Work) : Work :=
  match frameOf w.toBlk n idx with
  | some f =>
    if f.rings.isSome then w
    else
      let ok := (targets w.toBlk n).map (fun k => match targetOf w.toBlk n k with
        | some (e, u) => ringMatches w.toBlk n (ringHeader w e u)
        | none => false)
      let w := modFrame n idx (fun f => { f with rings := some ok }) w
      forAll (targets w.toBlk n) (fun k w => doIf (!nth false ok k) (raise 0x063 n k) w) w
  | none => w

/-- The targets whose rings match the stream in this frame. -/
def ringsOf (b : Blk) (n idx : Nat) : List Nat :=
  (targets b n).filter (nth false (((frameOf b n idx).bind (·.rings)).getD []) ·)

/-- An output row into every ring that matches; a ring whose slot is not retired holds it. -/
def writeRow_ (n idx : Nat) (row : List Byte) (w : Work) : Work :=
  forAll (ringsOf w.toBlk n idx) (fun k w =>
    let old := tabGet [] (inOf w.toBlk n).held k
    drainHeld n k old.isEmpty (old.length + 1) (modIn n (fun s => { s with held := tabSet [] s.held k (old ++ [row]) }) w))
    (modFrame n idx (fun f => { f with last := some row }) w)

/-- A ring of the stream still holds a row (05 R112). -/
def ringHolds (b : Blk) (n idx : Nat) : Option Nat :=
  (ringsOf b n idx).find? (fun k => tabGet [] (inOf b n).held k != [])

/-- What stands in for a refused output row (05 R112): the last row written in this frame, or the value 0 before conversion
(R216). -/
def standInRow (b : Blk) (n idx : Nat) : List Byte :=
  match inGet b n 0x15, (frameOf b n idx).bind (·.last) with
  | 1, some row => row
  | _, _ => convertRow b n (List.replicate 3 (List.replicate (outW b n) 0))

/-- An output row is refused while target k holds one: counted, and reported once per frame (05 R112). -/
def refuseRow (n idx k : Nat) (w : Work) : Work :=
  let e := ((targetOf w.toBlk n k).map (·.1)).getD 0
  let first := match frameOf w.toBlk n idx with | some f => !f.overrun | none => false
  quadAdd (quadOf e) 0x41 1 (doIf first (fun w => raise 0x021 e n (modFrame n idx (fun f => { f with overrun := true }) w)) w)

/-- The rows as written, whether one of them was refused, and the state: each row that arrives while a ring holds one is
refused and its stand-in written in its place (05 R112). With several target rings, the first that holds a row refuses it
for all of them (DESIGN CHOICE, log 148). -/
def writeRows (n idx : Nat) (arrive : Bool) (rows : List (List Byte)) (w : Work) : (List (List Byte) × Bool) × Work :=
  rows.foldl (fun (a : (List (List Byte) × Bool) × Work) row =>
    let w := checkRings n idx a.2
    match (if arrive then ringHolds w.toBlk n idx else none) with
    | none => ((a.1.1 ++ [row], a.1.2), writeRow_ n idx row w)
    | some k =>
      let other := standInRow w.toBlk n idx
      ((a.1.1 ++ [other], true), writeRow_ n idx other (refuseRow n idx k w))) (([], false), w)

/-! ## Frame buffer, frame store and mask -/

/-- GEOM_MODE 3: a lookup row to the frame buffer, 6 bytes a pixel (R230). -/
def bufferKey (b : Blk) (n idx y : Nat) : Nat := inGet b n 0x30 + (idx % 2 * imgH b n + y) * imgW b n * 6
def bufferRow (n idx y : Nat) (r : PRow) (w : Work) : Work :=
  let bs := (List.range (imgW w.toBlk n)).flatMap (fun x => (List.range 3).flatMap (fun c => leBytes 2 (nth 0 (nth [] r c) x)))
  writerStore n (bufferKey w.toBlk n idx y) bs w

/-- The output rows of a frame that is whole in the buffer. A channel of an absent or removed quad returns no data (07 R171):
the pixels that would come from it are values that the spec does not state. -/
def bufferOut (n idx : Nat) (w : Work) : List (List Byte) × Work :=
  let b := w.toBlk
  let (x0, y0, _, _) := cropOf b n
  let src := fun (c x y : Nat) =>
    let at_ := 6 * (x + x0) + 2 * c
    let a := bufferKey b n idx (y + y0) + at_
    if memThere b a 2 then rdNat w a 2 else Config.freeValue (w.free + (y + y0) * imgW b n * 6 + at_) % 65536
  ((List.range (outH b n)).map (fun y => convertRow b n ((List.range 3).map (fun c => (List.range (outW b n)).map (fun x =>
    samplePixel b n src c x y)))), { w with free := w.free + imgH b n * imgW b n * 6 })

/-- BLOCK_BYTES, and the place of a position in the frame store (R224). -/
def blockBytes (b : Blk) (n : Nat) : Nat := ceilDiv (32 + 16 * inGet b n 0x32) 64 * 64
def storeSlot (b : Blk) (n idx : Nat) : Nat := if inGet b n 0x31 = 0 then 0 else idx % inGet b n 0x31
def storeKey (b : Blk) (n idx pos : Nat) : Nat :=
  inGet b n 0x30 + (storeSlot b n idx * inRecords b n + pos) * blockBytes b n

/-- The mask of a frame whose last position has closed (R217). -/
def maskBytes (b : Blk) (n : Nat) (f : SFrame) : List Byte :=
  let rs := inRecords b n
  let valid := if f.wr then f.valid % 2 ^ rs else 0
  let slot := if inPixels b n then (if inGet b n 0x1C = 3 then f.idx % 2 else 0) else storeSlot b n f.idx
  leBytes 1 1 ++ leBytes 1 n ++ leBytes 2 f.ctr ++ leBytes 2 rs ++ leBytes 2 (popCount rs valid) ++ leBytes 8 f.ref ++
  leBytes 8 f.idx ++ leBytes 1 slot ++ List.replicate 39 0 ++ leBytes (ceilDiv rs 512 * 64) valid

def writeMask (n : Nat) (f : SFrame) (w : Work) : Work :=
  if resetting w.toBlk ∨ activeState w.toBlk = false then w
  else
    let bs := maskBytes w.toBlk n f
    let a := inGet w.toBlk n 0x2D + f.ctr % (max 1 (inGet w.toBlk n 0x2E)) * bs.length
    let w := writerStore n a bs w
    let sem := inGet w.toBlk n 0x2F
    if sem = none16 then w
    else
      let (k, w) := takeFree w
      signalSync (Config.freeValue k) (sem % 8192) 1 w

/-! ## The guard copy (R234) -/

/-- Every D-th row and column of the lookup output, channel 0, the top 8 bits; a concealed row reaches the guard path as
marks of its values' absence. -/
def guardRows (n : Nat) (rows : List (Nat × Bool × PRow)) (w : Work) : Work :=
  let d := inGet w.toBlk n 0x23
  if d = 0 then w
  else forAll rows (fun r w =>
    if r.1 % d ≠ 0 then w
    else
      let one : Nat → Option Byte := fun i => if r.2.1 then none else some (BitVec.ofNat 8 (nth 0 (nth [] r.2.2 0) (i * d) / 256))
      let bs := (List.range (ceilDiv (imgW w.toBlk n) d)).map one
      { w with guard.cams := tabMod GuardCam.idle w.guard.cams n (fun c => { c with cur := c.cur ++ bs }) }) w

/-- GUARD_STREAMS names the stream (15 R393). -/
def guardOn (b : Blk) (n : Nat) : Bool := (odGet b 0x2320 2).testBit n && inType b n == 2

def guardPoints (n time : Nat) (pts : List (Nat × Nat × Nat)) (w : Work) : Work :=
  if guardOn w.toBlk n then
    { w with guard.points := w.guard.points ++ pts.map (fun p =>
      ({ beat := w.time.beat, stream := n, time, x := p.1, y := p.2.1, z := p.2.2 } : GPoint)) }
  else w

/-- At a frame's end the camera program looks at its copy (15 R394). The mean is over the values that are there; without any
there is none, and neither limit is passed (log 146). -/
def guardFrame (n : Nat) (w : Work) : Work :=
  if inPixels w.toBlk n = false ∨ inGet w.toBlk n 0x23 = 0 then w
  else
    let c := tabGet GuardCam.idle w.guard.cams n
    let there := c.cur.filterMap id
    let sum := there.foldl (fun s x => s + x.toNat) 0
    let len := there.length
    let dark := decide (sum < odGet w.toBlk 0x2320 6 * len)
    let bright := decide (odGet w.toBlk 0x2320 7 * len < sum)
    let same := if c.prev = some c.cur then c.same + 1 else 0
    let stale := decide (odGet w.toBlk 0x2320 8 ≤ same)
    let w := { w with guard.cams := tabSet GuardCam.idle w.guard.cams n { cur := [], prev := some c.cur, same } }
    { w with guard.ends := w.guard.ends ++ [(w.time.beat, n, dark || bright || stale)] }

/-! ## Closing a position -/

/-- The chain moves on, and the record table takes the position (10 R248, R249). -/
def tableEntry (n : Nat) (f : SFrame) (pos : Nat) (hdr payload : List Byte) (w : Work) : Work :=
  modIn n (fun s =>
    let clear := (hdr.take 16) ++ leBytes 2 (leAt hdr 16 2 - (if bit (leAt hdr 16 2) 2 then 4 else 0)) ++ hdr.drop 18
    let chain := if inWrites w.toBlk f then (sha3 (s.chain ++ clear ++ payload)).take 32 else s.chain
    let first := s.fresh && inWrites w.toBlk f
    { s with chain, fresh := s.fresh && !first,
             table := ({ idx := f.idx, pos, hdr, chain, first } :: s.table).take (odGet w.toBlk 0x6080 (3 + n)) }) w

/-- Signal values of a stand-in: those of the last valid record, or +0 for each present field. -/
def standInValues (b : Blk) (n : Nat) : List Byte :=
  (inOf b n).vals.getD ((List.range 8).flatMap (fun k =>
    if fieldOn (lGet b (inGet b n 0xB) (0x10 + k)) then List.replicate 4 0 else []))

/-- A stand-in's CAPTURE_TIME: a row's own; the spec states none for the others, nor in ADAPT, where a replayed frame has no
reference of its own (log 32). -/
def standInTime (n : Nat) (f : SFrame) (pos : Nat) (w : Work) : Nat × Work :=
  if inType w.toBlk n = 1 ∧ inFree w.toBlk n = false then (rowTime w.toBlk n f pos, w)
  else let (k, w) := takeFree w; (Config.freeValue k % 2 ^ 64, w)

/-- Free values for the raw rows of a concealed position. -/
def takeFrees (k : Nat) (w : Work) : Nat × Work := (w.free, { w with free := w.free + k })

/-- Pixel rows of a position enter pre-processing: the output rows. -/
def feedPos (n pos : Nat) (xs : List (Option PRow)) (w : Work) : List (List Byte) × Work :=
  let (base, w) := takeFrees (xs.length * imgW w.toBlk n) w
  let p := if pos = 0 then Pix.idle else (inOf w.toBlk n).pix
  let r := feedRows w.toBlk n xs base p
  let w := guardRows n r.2.formed w
  (r.1, modIn n (fun s => { s with pix := r.2 }) w)

/-- Rows that a position of a pixel stream has. -/
def posRows (b : Blk) (n pos : Nat) : Nat :=
  if inCamera n then 1 else min (sliceRows b n) (imgH b n - pos * sliceRows b n)

/-- The rows formed by the position go to the frame buffer in GEOM_MODE 3 where the frame is written. -/
def bufferFormed (wr : Bool) (n idx : Nat) (w : Work) : Work :=
  let rows := (inOf w.toBlk n).pix.formed
  let w := modIn n (fun s => { s with pix := { s.pix with formed := [] } }) w
  if wr = true ∧ inGet w.toBlk n 0x1C = 3 then forAll rows (fun r w => bufferRow n idx r.1 r.2.2 w) w else w

/-- GEOM_MODE 3 forms the frame's rows at its last close, with this position (R230). -/
def wholeAt (b : Blk) (n : Nat) (f : SFrame) (pos : Nat) : Bool :=
  inGet b n 0x1C == 3 && inWrites b f && pos + 1 == inRecords b n

/-- The output rows that a position makes possible: those that its own rows form, or the whole image. -/
def outRows (n : Nat) (f : SFrame) (pos : Nat) (xs : List (Option PRow)) (w : Work) : List (List Byte) × Work :=
  let r := feedPos n pos xs w
  let w := bufferFormed (inWrites r.2.toBlk f) n f.idx r.2
  if wholeAt w.toBlk n f pos then bufferOut n f.idx w else (r.1, w)

/-! ## The decoded-sample cache (R236) -/

def cacheOn (b : Blk) (n : Nat) : Bool :=
  b.dev.state == .adapt && inReplay b n && decide (inGet b n 0x35 < 128) &&
  odGet b (0x2640 + inGet b n 0x35) 4 == inContext b n

/-- The entry that a record hits: its key and the CRC of the received payload match, and the entry's payload in the pool has
the CRC that its header states. -/
def cacheFind (n time pos crc : Nat) (w : Work) : Option CacheEntry :=
  if cacheOn w.toBlk n then
    (w.ingest.cache.find? (fun e => e.stream == n && e.time == time && e.pos == pos && e.crc == crc)).filter (fun e =>
      memThere w.toBlk e.at_ e.bytes && leAt (rd w e.at_ 32) 24 4 == crc32c (rd w (e.at_ + 32) (e.bytes - 32)))
  else none

/-- An entry's payload as written. -/
def cachePayload (w : Work) (e : CacheEntry) : List Byte := rd w (e.at_ + 32) (e.bytes - 32)

/-- A record that has closed good enters the cache, its header and payload as written after those of the pool's other
entries, until the pool is full or every key slot is used (log 35). -/
def cacheFill (n time pos crc : Nat) (hdr payload : List Byte) (rows : List PRow) (w : Work) : Work :=
  let p := inGet w.toBlk n 0x35
  let l := w.ingest.cache
  let bytes := hdr.length + payload.length
  let used := (l.filter (fun e => inGet w.toBlk e.stream 0x35 == p)).foldl (fun a e => a + e.bytes) 0
  if cacheOn w.toBlk n = false ∨ 65536 ≤ l.length ∨ odGet w.toBlk (0x2640 + p) 3 < used + bytes ∨
      l.any (fun e => e.stream == n && e.time == time && e.pos == pos) then w
  else
    let at_ := odGet w.toBlk (0x2640 + p) 2 + used
    writerStore n at_ (hdr ++ payload) { w with ingest.cache := l ++ [{ stream := n, time, pos, crc, at_, bytes, rows }] }

def cacheClear (w : Work) : Work := { w with ingest.cache := [] }
def cacheClearOf (n : Nat) (w : Work) : Work :=
  { w with ingest.cache := w.ingest.cache.filter (fun e => e.stream != n) }

/-! ## The close -/

/-- What every concealed position does once its stand-in's payload is known (R216): the fault, the counts, the header with
CONCEALED and the reason, the record's place in the store, the table, the chain and the taps. A record that was recorded as
concealed keeps the CAPTURE_TIME and the FLAGS it came with. -/
def concealed (n : Nat) (f : SFrame) (pos reason off : Nat) (kept : Option (Nat × Nat)) (payload : List Byte) (w : Work) : Work :=
  let w := raise 0x061 n (pos * 65536 + reason) w
  let w := inAdd n 0x41 1 w
  let w := inPut n 0x48 (f.ctr % 65536 * 2 ^ 48 + pos % 65536 * 2 ^ 32 + off % 2 ^ 24 * 256 + reason % 256) w
  let (time, w) := match kept with | some k => (k.1, w) | none => standInTime n f pos w
  let replay := if inReplay w.toBlk n then 4 else 0
  let flags := 1 + replay + coordFlags w.toBlk n + reason % 16 * 256 + ((kept.map (·.2)).getD 0) % 4 / 2 * 2
  let count := if inPixels w.toBlk n then 0 else payload.length / 4
  let hdr := recHeader w.toBlk n f.ctr pos time flags count payload
  let w := doIf (!inPixels w.toBlk n && inWrites w.toBlk f) (writerStore n (storeKey w.toBlk n f.idx pos) (hdr ++ payload)) w
  let bare := if inPixels w.toBlk n then recHeader w.toBlk n f.ctr pos time flags 0 [] else hdr
  tapAll n bare (tableEntry n f pos hdr payload w)

/-- The stand-in's payload of a stream that is no pixel stream. -/
def standInData (b : Blk) (n : Nat) : List Byte := if inType b n = 4 then standInValues b n else []

/-- Conceal a position (R216): the stand-in rows of a pixel stream enter pre-processing in its place. -/
def concealPos (n : Nat) (f : SFrame) (pos reason off : Nat) (kept : Option (Nat × Nat)) (w : Work) : Work :=
  if inPixels w.toBlk n then
    let r := outRows n f pos (List.replicate (posRows w.toBlk n pos) none) w
    let x := if inWrites r.2.toBlk f then writeRows n f.idx (wholeAt r.2.toBlk n f pos) r.1 r.2 else ((r.1, false), r.2)
    concealed n f pos reason off kept x.1.1.flatten x.2
  else concealed n f pos reason off kept (standInData w.toBlk n) w

/-- The reason of a position that is not written though its record is good: the spec states none (log 33). -/
def unwritten (n : Nat) (f : SFrame) (pos : Nat) (r : Rec) (w : Work) : Work :=
  let w := if inPixels w.toBlk n then (outRows n f pos (r.rows.map some) w).2 else guardPoints n r.time r.pts w
  let (k, w) := takeFree w
  concealed n f pos (Config.freeValue k % 16) 0xFFFFFF none (if inPixels w.toBlk n then [] else standInData w.toBlk n) w

/-- A payload of the cache, row by row. -/
def splitRows (b : Blk) (n : Nat) (m : List Byte) : List (List Byte) :=
  let one := outW b n * outChannels b n * outElemBytes b n
  (List.range (m.length / one)).map (fun i => (m.drop (i * one)).take one)

/-- A position of a pixel stream closes with its record, unless one of its output rows is refused (05 R112). -/
def goodPixels (n : Nat) (f : SFrame) (pos : Nat) (r : Rec) (w : Work) : Work :=
  let raw := recHeader w.toBlk n f.ctr pos r.time r.flags r.rawCount r.body ++ r.body
  let o := outRows n f pos (r.rows.map some) w
  let rows := match r.cached with | some m => splitRows o.2.toBlk n m | none => o.1
  let x := writeRows n f.idx true rows o.2
  let payload := x.1.1.flatten
  if x.1.2 then concealed n f pos 0xA 0xFFFFFF none payload x.2
  else
    let hdr := recHeader x.2.toBlk n f.ctr pos r.time r.flags 0 payload
    let w := modFrame n f.idx (fun f => { f with valid := f.valid + 2 ^ pos }) x.2
    tapAll n raw (tableEntry n f pos hdr payload (cacheFill n r.time pos (crc32c r.body) hdr payload r.rows w))

/-- A position closes with its record. -/
def goodPos (n : Nat) (f : SFrame) (pos : Nat) (r : Rec) (w : Work) : Work :=
  if inPixels w.toBlk n then goodPixels n f pos r w
  else
    let raw := recHeader w.toBlk n f.ctr pos r.time r.flags r.rawCount r.body ++ r.body
    let hdr := recHeader w.toBlk n f.ctr pos r.time r.flags r.count r.data
    let w := writerStore n (storeKey w.toBlk n f.idx pos) (hdr ++ r.data) (guardPoints n r.time r.pts w)
    let w := modFrame n f.idx (fun f => { f with valid := f.valid + 2 ^ pos }) w
    let w := doIf (inType w.toBlk n == 4) (modIn n (fun s => { s with vals := some r.data })) w
    tapAll n raw (tableEntry n f pos hdr r.data (cacheFill n r.time pos (crc32c r.body) hdr r.data [] w))

/-- The last position of a frame has closed. -/
def frameEnd (n : Nat) (f : SFrame) (w : Work) : Work :=
  let w := writeMask n f (guardFrame n w)
  modIn n (fun s => { s with frames := s.frames.filter (fun x => x.idx != f.idx) }) w

/-- One step of the head frame: its next position, or its end; none where it has to wait. -/
def closeOne (n : Nat) (w : Work) : Option Work :=
  match (inOf w.toBlk n).frames with
  | [] => none
  | f :: _ =>
    let pos := f.closed
    if inRecords w.toBlk n ≤ pos then some (frameEnd n f w)
    else
      let fate := match tabGet none f.ready pos with
        | some x => some x
        | none => if f.gone then some (Fate.lost 8 0xFFFFFF) else none
      fate.map (fun x =>
        let w := modFrame n f.idx (fun f => { f with closed := pos + 1, ready := tabErase f.ready pos, busy := f.busy.filter (· != pos) }) w
        match x with
        | .lost reason off => concealPos n f pos reason off none w
        | .recorded reason time flags => concealPos n f pos reason 0xFFFFFF (some (time, flags)) w
        | .good r => if inWrites w.toBlk f then goodPos n f pos r w else unwritten n f pos r w)

/-- Positions close in ascending order as far as they are decided (R215). -/
def closeRun (n : Nat) : Nat → Work → Work
  | 0, w => w
  | fuel + 1, w => match closeOne n w with | some w' => closeRun n fuel w' | none => w

def closeReady (n : Nat) (w : Work) : Work :=
  closeRun n ((inOf w.toBlk n).frames.length * (inRecords w.toBlk n + 1)) w

/-- Decide a position. -/
def decide_ (n idx pos : Nat) (x : Fate) (w : Work) : Work :=
  closeReady n (modFrame n idx (fun f => { f with ready := tabSet none f.ready pos (some x) }) w)

/-- Close every open position of a frame concealed with reason 0x08; a record that waits keeps its place. -/
def goneFrame (n idx : Nat) (w : Work) : Work :=
  closeReady n (modFrame n idx (fun f => { f with gone := true, busy := [] })
    (modIn n (fun s => { s with queue := s.queue.filter (fun j => j.idx != idx),
                                run := s.run.filter (fun j => j.idx != idx) }) w))

/-! ## Frames (R213) -/

/-- A frame begins at a reference. -/
def beginFrame (n ref : Nat) (ctr : Option Nat) (w : Work) : Work :=
  let s := inOf w.toBlk n
  let starts := s.mode == 1 && inCtxRuns w.toBlk n && !resetting w.toBlk
  let w := if starts then
      forAll (targets w.toBlk n) (fun k w => match targetOf w.toBlk n k with
        | some (e, u) => restartRing e u w
        | none => w) (modIn n (fun s => { s with mode := 2, chain := zeroChain, fresh := true, held := [] }) w)
    else w
  let idx := s.next
  let c := ctr.getD (idx % 65536)
  let w := inPut n 0x49 (idx % 65536) w
  let f : SFrame := { SFrame.idle with idx, ctr := c, ref, wr := starts || s.mode == 2 }
  modIn n (fun s => { s with next := idx + 1, frames := s.frames ++ [f], lastRef := some ref, fs := false }) w

/-- A stream's writing stops (R237): its context is suspended, or the compute part is reset. -/
def inSuspend (n : Nat) (w : Work) : Work :=
  modIn n (fun s => { s with mode := 0, held := [], frames := s.frames.map (fun f => { f with wr := false }) }) w

/-- Streams of a context. -/
def streamsOf (b : Blk) (c : Nat) : List Nat :=
  (List.range 32).filter (fun n => inEnabled b n && inContext b n == c)
def suspendIngest (c : Nat) (w : Work) : Work := forAll (streamsOf w.toBlk c) inSuspend w
/-- A context's release: its streams write from the next frame that begins. -/
def releaseIngest (c : Nat) (w : Work) : Work :=
  forAll (streamsOf w.toBlk c) (fun n => modIn n (fun s => if s.mode = 0 then { s with mode := 1 } else s)) w

/-! ## Ingest admission (02 R49) -/

/-- Whether a record of so many bytes is accepted, with the counts of either outcome; the throttle's L2 refuses those of
Elastic contexts (14 R363). -/
def admitBytes (n bytes : Nat) (w : Work) : Bool × Work :=
  let c := inContext w.toBlk n
  let held := decide (0 < actionCount w.toBlk 6) && ctxClass w.toBlk c == 3
  if inCtxRuns w.toBlk n ∧ held = false ∧ (ctxRun w.toBlk c).ingest + bytes ≤ ctxGet w.toBlk c 8 then
    (true, inAdd n 0x40 1 (modCtx c (fun x => { x with ingest := x.ingest + bytes }) w))
  else if c < 1024 then (false, ctxAdd c 0x51 1 (ctxAdd c 0x50 bytes w)) else (false, w)

/-! ## Positions by arrival (R214) -/

/-- The place that a time gives in a frame, negative before its first. -/
def placeOf (b : Blk) (n : Nat) (f : SFrame) (t : Nat) : Int :=
  let i := inGet b n 0x13
  if i = 0 then 0 else ((t : Int) - f.ref - inGet b n 0x12 + (i / 2 : Nat)) / (i : Int)

/-- The frame that a record belongs to by arrival. Without a trigger, and after Frame Start, it is the newest one; with one, it
is the newest whose places have begun, else the oldest open one. -/
def frameFor (b : Blk) (n t : Nat) : Option SFrame :=
  let s := inOf b n
  let open_ := s.frames
  if s.fs ∨ inTrigger b n = 0xFF then open_.getLast?
  else
    match (open_.filter (fun f => decide (0 ≤ placeOf b n f t))).getLast? with
    | some f => some f
    | none => open_.head?

/-- Assign a position by arrival. -/
def assign (n t : Nat) (f : SFrame) (w : Work) : Nat × Work :=
  let p := placeOf w.toBlk n f t
  let pos := if p < (f.got : Int) then f.got else p.toNat
  (pos, if pos < inRecords w.toBlk n then modFrame n f.idx (fun f => { f with got := pos + 1 }) w else w)

/-- What a record meets at its position: discarded as out of range or closed, or late; otherwise it may go on. -/
def placeCheck (n t : Nat) (f : SFrame) (pos : Nat) (w : Work) : Bool × Work :=
  if inRecords w.toBlk n ≤ pos then (false, w)
  else if inFree w.toBlk n = false ∧ deadlineOf w.toBlk n f pos < t then (false, inAdd n 0x43 1 w)
  else if pos < f.closed ∨ (tabGet none f.ready pos).isSome ∨ f.busy.contains pos ∨ f.gone then (false, w)
  else (true, w)

/-- A record that arrives may begin a frame of a stream without TRIGGER (R213, R214): where no frame is open, after Frame
Start, and with a value of 0, which closes the old frame's open positions at once. -/
def newFrame (n t : Nat) (zero : Bool) (w : Work) : Work :=
  let s := inOf w.toBlk n
  if inTrigger w.toBlk n ≠ 0xFF then w
  else if zero then beginFrame n t none (forAll (s.frames.map (·.idx)) (goneFrame n) w)
  else if s.frames = [] ∨ s.fs then beginFrame n t none w
  else w

/-- POSITION_DEADLINE: every open position whose deadline has come and for which no record has arrived. -/
def positionDeadline (n t : Nat) (w : Work) : Work :=
  let at_ := moment t w
  let w := atTime t w
  if inEnabled w.toBlk n = false ∨ inRuns w.toBlk = false ∨ inFree w.toBlk n = true then w
  else
    let mark := fun (b : Blk) (f : SFrame) =>
      (List.range (inRecords b n)).filter (fun r => decide (f.closed ≤ r) && (tabGet none f.ready r).isNone &&
        !f.busy.contains r && decide (deadlineOf b n f r ≤ at_))
    let frames := (inOf w.toBlk n).frames
    closeReady n (forAll frames (fun f w =>
      modFrame n f.idx (fun g => { g with ready := (mark w.toBlk f).foldl (fun t r => tabSet none t r (some (Fate.lost 8 0xFFFFFF))) g.ready }) w) w)

/-- SENSOR_SILENT (R213). -/
def sensorSilent (n t : Nat) (w : Work) : Work :=
  let at_ := moment t w
  let w := atTime t w
  let s := inOf w.toBlk n
  match s.lastRef with
  | none => w
  | some r =>
    if inEnabled w.toBlk n = false ∨ inRuns w.toBlk = false ∨ inFree w.toBlk n = true ∨ inTrigger w.toBlk n ≠ 0xFF ∨
        at_ < r + inGet w.toBlk n 0x11 + inGet w.toBlk n 0x14 then w
    else
      let w := beginFrame n (r + inGet w.toBlk n 0x11) none w
      let w := inAdd n 0x42 1 w
      let w := raise 0x060 n (s.next % 65536) w
      goneFrame n s.next w

/-- A trigger output's edge is a frame reference for the streams that name it (R213). -/
def triggerFrames (k at_ : Nat) (w : Work) : Work :=
  forAll ((List.range 32).filter (fun n => inEnabled w.toBlk n && inTrigger w.toBlk n == k && !inFree w.toBlk n)) (fun n w =>
    beginFrame n at_ none w) w

end Sys2Proof.Machine
end

