-- ==== Sys2Proof/Machine/Fabric.lean ====
section
/-! DEFINITION. The fabric's send side (17 R434, R438, R439, R444): the ports' partners, the flits of a result stream, and
the record kept of it for the arrival sets. -/

namespace Sys2Proof.Machine

/-! ## Members and ports (R433, R434) -/

def casSize (b : Blk) : Nat := odGet b 0x2700 3
/-- The member number; a device that runs standalone, invalid straps included, is its own master. -/
def casMe (b : Blk) : Nat := if casSize b ≤ 1 then 0 else odGet b 0x2700 2 % 4
/-- CASC_STATE is "formed". -/
def formed (b : Blk) : Bool := odGet b 0x2700 4 == 2
/-- The member behind a port. -/
def peerOf (b : Blk) (p : Nat) : Nat := (casMe b + p + 1) % 4
def portTo (b : Blk) (j : Nat) : Nat := (j + 3 - casMe b) % 4
/-- The ports that a cascade of this size connects. -/
def connected (b : Blk) (p : Nat) : Bool := decide (p < 3) && decide (peerOf b p < casSize b)

def portOf (b : Blk) (p : Nat) : CascPort := nth CascPort.idle b.casc.ports p
def modPort (p : Nat) (f : CascPort → CascPort) (w : Work) : Work :=
  { w with casc.ports := setNth w.casc.ports p (f (portOf w.toBlk p)) }
def partnerAt (b : Blk) (j : Nat) : Partner := nth Partner.idle b.casc.partners j
def modPartner (j : Nat) (f : Partner → Partner) (w : Work) : Work :=
  { w with casc.partners := setNth w.casc.partners j (f (partnerAt w.toBlk j)) }

/-! ## Collectives (R443) -/

def collGet (b : Blk) (k sub : Nat) : Nat := odGet b (0x2720 + k) sub
/-- Whether member i sends its part of collective k to member j. -/
def collSends (b : Blk) (k i j : Nat) : Bool :=
  let mask := collGet b k 3
  i != j && mask.testBit i &&
  (match collGet b k 2 with
   | 1 => mask.testBit j
   | 2 => j == collGet b k 4
   | 3 => i == collGet b k 4 && mask.testBit j
   | _ => false)

/-- A member takes part in collective k: by its mask, or as the root (R443). -/
def collMember (b : Blk) (k j : Nat) : Bool :=
  collGet b k 2 != 0 && ((collGet b k 3).testBit j || (collGet b k 2 != 1 && collGet b k 4 == j))

/-- The ports on which a fabric stream of this member leaves. -/
def fabricPorts (b : Blk) (s : Nat) : List Nat :=
  (List.range 3).filter (fun p => connected b p && (List.range 32).any (fun k =>
    collGet b k 5 == s && collSends b k (casMe b) (peerOf b p)))

/-- Flits of the longest record of a stream. -/
def streamFlits (b : Blk) (s : Nat) : Nat := ceilDiv (128 + 16 * odGet b (0x6000 + s) 8 + odGet b (0x6000 + s) 7) 256
def isFabric (b : Blk) (s : Nat) : Bool := odGet b (0x6000 + s) 2 == 1 && odGet b (0x6000 + s) 3 == 0 && odGet b (0x6000 + s) 6 == 5

/-- The first record slot of a stream on a port: in ascending stream number from slot 17 (R444). -/
def slotBase (b : Blk) (p s : Nat) : Nat :=
  ((List.range s).filter (fun t => isFabric b t && (fabricPorts b t).contains p)).foldl (fun a t => a + streamFlits b t) 17

/-! ## Flits (R438, R439) -/

/-- A flit: header, 256 bytes of payload, CRC-32C. -/
def flitBytes (kind seq ack stream flags index : Nat) (payload : List Byte) : List Byte :=
  let m := leBytes 1 1 ++ leBytes 1 kind ++ leBytes 2 seq ++ leBytes 2 ack ++ leBytes 1 stream ++ leBytes 1 flags ++
    leBytes 2 index ++ leBytes 2 0 ++ (payload ++ List.replicate 256 0).take 256
  m ++ leBytes 4 (crc32c m)

/-- Send one numbered flit on a port; it is kept until it is acknowledged. -/
def sendFlit (p slot kind stream flags index : Nat) (payload : List Byte) (w : Work) : Work :=
  let c := portOf w.toBlk p
  let f : SentFlit := { seq := c.next, stream := stream, flags := flags, index := index, kind := kind, bytes := payload }
  let w := send (.flit p slot kind (flitBytes kind c.next c.ack stream flags index payload)) w
  let w := modPort p (fun c => { c with next := (c.next + 1) % 65536, sent := c.sent ++ [f] }) w
  odAdd (0x2710 + p) 4 1 w

/-- A record as the fabric's receivers and this member's own arrival sets keep it, complete in beat `came`. -/
def partRec (member came : Nat) (bs : List Byte) : PartRec :=
  let head := 128 + 16 * leAt bs 50 1
  let pay := (bs.drop head).take (leAt bs 44 4)
  { member := member, out := leAt bs 2 1, seq := leAt bs 4 4, kind := leAt bs 1 1, digest := (bs.drop 64).take 16,
    pay := (sha3 pay).take 32, oldest := leAt bs 24 8, latest := leAt bs 32 8, close := leAt bs 16 8, mark := leAt bs 8 4,
    body := bs.take (head + pay.length), gone := false, came }

/-- A partner's record is settled: it lies at or before the last WATERMARK received of its stream (10 R259). -/
def partnerSettled (b : Blk) (p : Nat × Nat × Nat) : Bool :=
  match tabFind b.casc.marks (p.1 * 64 + p.2.1) with
  | some m => m != 0xFFFFFFFF && seqLe p.2.2 m
  | none => false

/-- Keep a record: the latest 64 content records of a stream, and as many of the others (R446). -/
def keepRec (r : PartRec) (w : Work) : Work :=
  let same := fun (x : PartRec) => x.member == r.member && x.out == r.out && ((x.kind == 1) == (r.kind == 1))
  let mine := (r :: w.casc.recs.filter same).take 64
  { w with casc.recs := mine ++ w.casc.recs.filter (fun x => !same x) }

/-- A closed record of a fabric stream leaves in the beat that follows, in the stream's own slots (R444). -/
def fabricSend (s : Nat) (bs : List Byte) (w : Work) : Work :=
  let n := ceilDiv bs.length 256
  let w := keepRec (partRec (casMe w.toBlk) w.time.beat bs) w
  if formed w.toBlk = false then w
  else forAll (fabricPorts w.toBlk s) (fun p w =>
    let base := slotBase w.toBlk p s
    forAll (List.range n) (fun i w =>
      sendFlit p (base + i) 2 s (b2n (i == 0) + 2 * b2n (i + 1 == n)) i ((bs.drop (256 * i)).take 256) w) w) w

end Sys2Proof.Machine
end

