-- ==== Sys2Proof/Machine/Admission.lean ====
section
/-! DEFINITION. The admission test (02 R38 to R45), its decision, the schedule's commit, withdrawal (02 R44), and the
recomputation after a loss of capacity (02 R52 to R54). -/

namespace Sys2Proof.Machine

/-! ## Figures of a candidate schedule: `pl` gives each context of `set` its placement -/

/-- The stretch allowance (R38). -/
def stretch (x : Nat) : Nat := ceilDiv (33 * x) 32
def figAt (b : Blk) (pl : Nat → Nat) (n i : Nat) : Nat := ctxGet b n (0x10 + 16 * pl n + i)
def quadsAt (b : Blk) (pl : Nat → Nat) (n : Nat) : Nat := if pl n < 4 then placeQuads b n (pl n) else 0

/-- The clock of the test: the admitted clock, or one step below it where the retest's step waits (15 R398). -/
def testClock (b : Blk) (q : Nat) : Nat :=
  let f := quadGet b q 0x10
  if (quadRun b q).remedy = 2 then (if f = 1000 then 900 else if f = 900 then 800 else 500) else f

/-- The quads of a context's steal group (R50). -/
def stealQuads (b : Blk) (pl : Nat → Nat) (n : Nat) : List Nat :=
  let own := maskQuads (quadsAt b pl n)
  match ctxGet b n 9 with
  | 0 => []
  | 1 => own
  | _ => own ++ own.flatMap meshNeighbours

/-- B_q of R39. -/
def arrayBlock (b : Blk) (pl : Nat → Nat) (set : List Nat) (i q : Nat) : Nat :=
  let low := set.filter (fun j => above b i j)
  let longest := (low.filter (fun j => (quadsAt b pl j).testBit q)).foldl (fun m j => max m (stretch (figAt b pl j 2))) 0
  if low.any (fun j => (stealQuads b pl j).contains q) then max longest 1056 else longest

/-- Iterate a response time from `r` until it no longer changes or exceeds the limit; the answer says which. -/
def respIter (f : Nat → Nat) (limit : Nat) : Nat → Nat → Nat × Bool
  | 0, r => (r, true)
  | k + 1, r =>
    if limit < r then (r, true)
    else
      let n := f r
      if n = r then (r, false) else respIter f limit k n

/-- The array term on one quad (R39), in 36ths of a nanosecond, and whether it stopped with refusal. -/
def arrayTerm (b : Blk) (pl : Nat → Nat) (set : List Nat) (i q : Nat) : Nat × Bool :=
  let f := testClock b q
  let c := 2 * f
  let base := arrayBlock b pl set i q + stretch (figAt b pl i 1)
  let hp := set.filter (fun j => above b j i && (quadsAt b pl j).testBit q)
  let step := fun (r : Nat) => base + hp.foldl (fun a j => a + ceilDiv r (ctxGet b j 3 * c) * stretch (figAt b pl j 1)) 0
  let limit := ctxGet b i 5 * c
  let x := respIter step limit (limit + 2) base
  (36000 * x.1 / f, x.2)

/-- A pool stands on a channel. -/
def poolOn (b : Blk) (p ch : Nat) : Bool :=
  let base := odGet b (0x2640 + p) 2
  let len := odGet b (0x2640 + p) 3
  decide (len ≠ 0) && decide (memChannel base ≤ ch) && decide (ch ≤ memChannel (base + len - 1))

/-- A context may use a pool (07 R174). -/
def poolNames (b : Blk) (p n : Nat) : Bool :=
  odGet b (0x2640 + p) 3 != 0 && (odGet b (0x2640 + p) 4 == n || memberOf b (odGet b (0x2640 + p) 5) n)

/-- A context uses a channel (07 R174). -/
def usesChannel (b : Blk) (pl : Nat → Nat) (n ch : Nat) : Bool :=
  (quadsAt b pl n).testBit (ch / 3) || (List.range 128).any (fun p => poolOn b p ch && poolNames b p n)

def channelsOf (b : Blk) (pl : Nat → Nat) (n : Nat) : List Nat :=
  (List.range (channelCount b.fuses)).filter (usesChannel b pl n)

/-- The memory term (R40, 07 R174), in nanoseconds. -/
def memTerm (b : Blk) (pl : Nat → Nat) (set : List Nat) (i : Nat) : Nat × Bool :=
  let bursts := fun j => ceilDiv (figAt b pl j 3) 64
  if bursts i = 0 then (0, false)
  else
    let one := fun ch =>
      let users := set.filter (fun j => j != i && usesChannel b pl j ch)
      let base := (if users.any (fun j => above b i j) then 96 else 0) + 48 * bursts i
      let hp := users.filter (fun j => above b j i)
      let step := fun (r : Nat) =>
        base + hp.foldl (fun a j => a + ceilDiv r (ctxGet b j 3 * 2000) * (48 * bursts j)) 0 + ceilDiv r 2000 * 176
      let limit := ctxGet b i 5 * 2000
      respIter step limit (limit + 2) base
    (channelsOf b pl i).foldl (fun (m : Nat × Bool) ch => let x := one ch; (max m.1 x.1, m.2 || x.2)) (0, false)

/-- The links of a context (R41). -/
def linksOf (b : Blk) (pl : Nat → Nat) (set : List Nat) (i : Nat) : List Nat :=
  let own := maskQuads (quadsAt b pl i)
  let near := set.filter (fun j => ctxGet b i 7 == j || ctxGet b j 7 == i)
  let goals := own ++ near.flatMap (fun j => maskQuads (quadsAt b pl j)) ++ (channelsOf b pl i).map (fun ch => ch / 3)
  ((own.flatMap (fun a => goals.eraseDups.flatMap (route a)))).eraseDups

/-- The network term (R41), in nanoseconds. -/
def netTerm (b : Blk) (pl : Nat → Nat) (set : List Nat) (i : Nat) : Nat × Bool :=
  let packets := fun j => ceilDiv (figAt b pl j 4) 256
  if packets i = 0 then (0, false)
  else
    let mine := linksOf b pl set i
    let h := figAt b pl i 5
    let base := 4 * packets i + (if mine.any isCrossing then 7 * (h - 1) + 32 else 7 * h)
    let hps := set.filter (fun j => above b j i)
    let one := fun (share : List Nat) =>
      let step := fun (r : Nat) =>
        base + share.foldl (fun a j => a + ceilDiv r (ctxGet b j 3 * 2000) * (4 * packets j)) 0 + ceilDiv r 2000 * 4
      let limit := ctxGet b i 5 * 2000
      respIter step limit (limit + 2) base
    mine.foldl (fun (m : Nat × Bool) l =>
      let x := one (hps.filter (fun j => (linksOf b pl set j).contains l))
      (max m.1 x.1, m.2 || x.2)) (one [])

/-- RESPONSE_BEATS and whether the context passes (R42). A term of a Safety or Timed context that stops ends the test at
its value; an Elastic context passes whatever its terms are, and all three are reported. -/
def respTest (b : Blk) (pl : Nat → Nat) (set : List Nat) (i : Nat) : Nat × Bool :=
  let elastic := ctxClass b i == 3
  let arr := (maskQuads (quadsAt b pl i)).foldl (fun (m : Nat × Bool) q =>
    if m.2 && !elastic then m
    else
      let x := arrayTerm b pl set i q
      if x.2 && !elastic then x else (max m.1 x.1, m.2 || x.2)) (0, false)
  let m := if arr.2 && !elastic then (0, true) else memTerm b pl set i
  let n := if (arr.2 || m.2) && !elastic then (0, true) else netTerm b pl set i
  let beats := ceilDiv (arr.1 + 36 * m.1 + 36 * n.1) 72000
  (beats, elastic || (!arr.2 && !m.2 && !n.2 && decide (beats ≤ ctxGet b i 5)))

/-- A response time in RESPONSE_BEATS; one above the object's 16 bits leaves it at a free value (log 74). -/
def respPut (n r : Nat) (w : Work) : Work :=
  if r < 65536 then ctxPut n 0x0D r w
  else
    let f := takeFree w
    ctxPut n 0x0D (Config.freeValue f.1 % 65536) f.2

/-! ## What makes a declaration ill formed (R45) -/

/-- A placement is present and free of absent and removed quads. -/
def placeFree (b : Blk) (n p : Nat) : Bool :=
  let m := placeQuads b n p
  m != 0 && (maskQuads m).all (fun q => decide (q < quadCount b.fuses) && !quadRemoved b q)

/-- A pool of the context stands on a channel of a removed quad (07 R174). -/
def poolLost (b : Blk) (n : Nat) : Bool :=
  (List.range 128).any (fun p => poolNames b p n &&
    (List.range (channelCount b.fuses)).any (fun ch => poolOn b p ch && quadRemoved b (ch / 3)))

/-- The first usable placement, 4 when there is none (R53). -/
def choosePlace (b : Blk) (n : Nat) : Nat :=
  if poolLost b n then 4 else ((List.range 4).find? (placeFree b n)).getD 4

/-- A class may be admitted in the present state (R44). -/
def classNow (b : Blk) (c : Nat) : Bool :=
  match b.dev.state with
  | .config => c == 1 || c == 2 || c == 3
  | .run => c == 2 || c == 3
  | .adapt => c == 3
  | _ => false

/-- The effective offset of a context of a commit (R43): none when the predecessor is missing, of another period, or the
chain closes on itself. -/
def effOffset (b : Blk) (grp : List Nat) : Nat → Nat → Option Nat
  | 0, _ => none
  | k + 1, n =>
    let p := ctxGet b n 7
    let per := ctxGet b n 3
    if p = none16 then some (ctxGet b n 4)
    else if 1024 ≤ p ∨ ctxGet b p 3 ≠ per then none
    else if grp.contains p then (effOffset b grp k p).map (fun o => (o + ctxGet b p 5) % per)
    else if ctxGet b p 0x0B = 2 ∨ ctxGet b p 0x0B = 5 then some ((ctxGet b p 0x0F + ctxGet b p 5) % per)
    else none

/-- What this member's own objects refuse of a collective (17 R445): 0, 0x0F or 0x10. -/
def collReason (b : Blk) (eff : Nat → Nat) (k : Nat) : Nat :=
  let i := 0x2720 + k
  let out := odGet b i 5
  let cons := odGet b i 6
  let d := odGet b (0x6000 + out) 4
  if odGet b i 2 = 0 ∨ 64 ≤ out ∨ 1024 ≤ d then 0
  else if odGet b (0x6000 + out) 9 ≠ 1 ∨ (odGet b i 2 = 2 ∧ odGet b (0x6000 + out) 7 % 4 ≠ 0) then 0x10
  else if cons < 1024 then
    let per := ctxGet b d 3
    let a := eff d + ctxGet b d 5 + (if odGet b i 2 = 2 then 3 else 2)
    if ctxGet b cons 3 ≠ per ∨ (eff cons) % per ≠ a % per then 0x0F else 0
  else 0

/-- The reason, with the lowest code first (log 7), for which a context of a commit is refused by itself; 0 for none. -/
def declReason (b : Blk) (grp : List Nat) (n : Nat) : Nat :=
  let c := ctxClass b n
  let per := ctxGet b n 3
  let lead := ctxGet b n 6
  let limit := if c = 3 then 1024 else 4096
  let st := ctxGet b n 9
  if ctxGet b n 1 ≠ 1 then 1
  else if classNow b c = false then 2
  else if isPow2 per = false ∨ 8192 < per ∨ per ≤ ctxGet b n 4 ∨ (ctxGet b n 7 ≠ none16 ∧ ctxGet b n 4 ≠ 0) then 3
  else if ctxGet b n 5 = 0 ∨ per < ctxGet b n 5 then 4
  else if placeQuads b n 0 = 0 ∨ choosePlace b n = 4 then 5
  else if (List.range 4).any (fun p => placeQuads b n p != 0 && decide (limit < ctxGet b n (0x12 + 16 * p))) then 6
  else if lead < 20 ∨ 16000 < lead ∨ lead % 20 ≠ 0 then 7
  else if (effOffset b grp 1025 n).isNone then 0x0A
  else if 2 < st ∨ (c = 1 ∧ st = 2) then 0x0C
  else if tmAdmits b n (choosePlace b n) = false then 0x0E
  else 0

/-! ## The decision (R44) -/

/-- The contexts with a schedule decided and not yet committed. -/
def decidedCtxs (b : Blk) : List Nat := (b.ctxs.filter (fun p => p.2.decided.isSome)).map (·.1)

/-- The oldest commit with requests that wait for a decision, by its order. -/
def oldestGroup (b : Blk) : Option Nat :=
  let ts := b.ctxs.filterMap (fun p => p.2.pendingAt)
  ts.head?.map (fun t => ts.foldl min t)

def groupOf (b : Blk) (at_ : Nat) : List Nat := (b.ctxs.filter (fun p => p.2.pendingAt == some at_)).map (·.1)

/-- Refuse a context's request. -/
def refuseCtx (n reason resp : Nat) (w : Work) : Work :=
  let w := ctxPut n 0x0B 3 (ctxPut n 0x0C reason (respPut n resp w))
  modCtx n (fun c => { c with pendingAt := none }) w

/-- ADMISSION_BUSY stands while a request or a recomputation waits for its decision (R55). -/
def busyStep (w : Work) : Work :=
  let on := (oldestGroup w.toBlk).isSome || (w.sched.recompute.isSome && w.sched.commitAt.isNone)
  odPut 0x2010 2 (b2n on) w

/-- The contexts share a quad, a channel or a link (R44). -/
def sharesUnit (b : Blk) (pl : Nat → Nat) (set : List Nat) (i j : Nat) : Bool :=
  Nat.land (quadsAt b pl i) (quadsAt b pl j) != 0 ||
  (channelsOf b pl i).any (usesChannel b pl j) ||
  (let l := linksOf b pl set j; (linksOf b pl set i).any l.contains)

/-- Contexts in the order of R36. -/
def inOrder (b : Blk) (l : List Nat) : List Nat :=
  l.foldl (fun s n => s.filter (fun x => above b x n) ++ [n] ++ s.filter (fun x => !above b x n)) []

/-- A decided schedule keeps the clocks it was tested at: they are the admitted ones from its commit (R55, log 143). -/
def keepClocks (w : Work) : Work :=
  forAll (List.range (quadCount w.fuses)) (fun q w => modQuad q (fun r => { r with clockTested := quadGet w.toBlk q 0x10 }) w) w

/-- The clocks that pair 2's latest test took become the admitted ones (R55). -/
def takeClocks (w : Work) : Work :=
  forAll (List.range (quadCount w.fuses)) (fun q w => modQuad q (fun r => { r with admitClock := r.clockTested }) w) w

/-- Pair 2 decides one commit's requests; the schedule is to commit `delay` beats later. In a formed cascade the master
decides for every member: `others` holds what the test of the other members says of this one's contexts (17 R442, R445).
Only an admitted context that shares a unit with a new one can be harmed (R44); 0x0009 names the first of all that are
(log 75). -/
def admissionDecision (delay : Nat) (others : List (Nat × Nat × Nat)) (w : Work) : Work :=
  let b := w.toBlk
  match oldestGroup b with
  | none => w
  | some g =>
    if pairRuns b 2 = false then w
    else
      let grp := inOrder b (groupOf b g)
      let ill := fun n => declReason b grp n
      let fit := grp.filter (fun n => ill n == 0)
      let old := (admitted b).filter (fun n => n != 0)
      let due := decidedCtxs b
      let set := old ++ due.filter (fun n => !old.contains n) ++ fit
      let pl := fun n => if fit.contains n then choosePlace b n
        else match (ctxRun b n).decided with | some d => d.2.1 | none => activePlace b n
      let eff := fun n => if fit.contains n then (effOffset b grp 1025 n).getD 0
        else match (ctxRun b n).decided with | some d => d.2.2.1 | none => ctxGet b n 0x0F
      let resp := fun n => respTest b pl set n
      let casc := odGet b 0x2700 4 == 2
      let coll := fun n => if casc then (jobsOf b n).foldl (fun m k => if m = 0 then collReason b eff k else m) 0 else 0
      let touched := fun n => fit.any (fun i => sharesUnit b pl set i n)
      let hurt := inOrder b ((set.filter (fun n => !fit.contains n && ctxClass b n != 3 && touched n && !(resp n).2)))
      let said := fun n => if casc then others.find? (fun o => o.1 == n) else none
      let reason := fun n =>
        if ill n ≠ 0 then (ill n, 0)
        else if (resp n).2 = false then (8, (resp n).1)
        else match hurt.find? (sharesUnit b pl set n) with
          | some j => (9, (hurt.head?).getD j)
          | none =>
            if coll n ≠ 0 then (coll n, (resp n).1)
            else match said n with
              | some o => (o.2.1, o.2.2)
              | none => (0, (resp n).1)
      let bad := grp.any (fun n => (reason n).1 != 0) || !hurt.isEmpty
      let w := if bad then
          forAll grp (fun n w => let r := reason n; refuseCtx n (if r.1 = 0 then 0x0B else r.1) r.2 w) w
        else
          forAll grp (fun n w =>
            let d := some (b.time.beat + max 8 delay, pl n, eff n, (resp n).1)
            modCtx n (fun c => { c with pendingAt := none, decided := d }) w) (keepClocks w)
      busyStep w

/-! ## The schedule's commit -/

/-- ARRAY_LOAD_PERMILLE of every quad (R55): the sum is exact, its thousandths are rounded down, and a load above the
object's 16 bits leaves it at a free value (DESIGN CHOICE, log 144). -/
def loadFigures (w : Work) : Work :=
  let b := w.toBlk
  let set := (admitted b).filter (fun n => n != 0)
  forAll (List.range (quadCount b.fuses)) (fun q w =>
    let c := 2 * (quadRun b q).admitClock
    let on := set.filter (fun n => (activeQuads b n).testBit q)
    let sum := on.foldl (fun a n => a + stretch (activeFig b n 1) * 8192 / ctxGet b n 3) 0
    let load := 1000 * sum / (8192 * c)
    if load < 65536 then quadPut q 0x11 load w
    else
      let f := takeFree w
      quadPut q 0x11 (Config.freeValue f.1 % 65536) f.2) w

/-- The sum of the deadlines along a context's chain (R43). -/
def chainDeadline : Nat → Blk → Nat → Nat
  | 0, _, _ => 0
  | k + 1, b, n => if 1024 ≤ n then 0 else ctxGet b n 5 + chainDeadline k b (ctxGet b n 7)

/-- What every commit of a schedule renews: the generation, the quads' loads, the streams' age bounds (10 R261), the
fabric's slots (17 R456). -/
def scheduleDone (w : Work) : Work :=
  let w := odPut 0x2010 1 ((odGet w.toBlk 0x2010 1 + 1) % 2 ^ 32) w
  let w := loadFigures w
  let w := forAll (List.range 64) (fun s w =>
    let c := odGet w.toBlk (0x6000 + s) 4
    let hold := decide (c < 1024) && odGet w.toBlk (0x6000 + s) 3 == 0 && (admitted w.toBlk).contains c
    doIf hold (odPut (0x6000 + s) 0x43
      (min (2 ^ 32 - 1) (odGet w.toBlk (0x6000 + s) 0xA + 2000 * chainDeadline 1024 w.toBlk c))) w) w
  forAll (List.range 3) (fun p w =>
    let on := (List.range 64).filter (fun s => isFabric w.toBlk s && (fabricPorts w.toBlk s).contains p)
    let slots := on.foldl (fun a s => a + streamFlits w.toBlk s) 0
    doIf (odGet w.toBlk (0x2710 + p) 2 == 2) (odPut (0x2710 + p) 7 (min 98 slots)) w) w

/-- One context becomes admitted: its first release lies strictly after the commit (R44), its counters are cleared, and
what takes effect at its admission is taken. -/
def admitCtx (n place eff resp : Nat) (w : Work) : Work :=
  let b := w.toBlk
  let off := b.dev.state == .squall && decide (2 ≤ ctxClass b n)
  let w := ctxPut n 0x0B (if off then 5 else 2) (ctxPut n 0x0C 0 (respPut n resp (ctxPut n 0x0E place (ctxPut n 0x0F eff w))))
  let w := forAll [0x50, 0x51, 0x52, 0x53, 0x54] (fun i w => ctxPut n i 0 w) w
  let any := (odGet b 0x2610 (n / 64 + 1)).testBit (n % 64)
  let lv := fld (odGet b 0x2300 0xB) (2 * n + 1) (2 * n)
  let fresh : CtxRun := { CtxRun.idle with firstAt := b.time.beat + 1, anyCore := any, minLevel := lv }
  let w := modCtx n (fun c => { fresh with level := c.level }) w
  suspendIngest n w

/-- SCHEDULE_COMMIT: the decided schedule whose boundary has come replaces the old one. -/
def scheduleCommit (w : Work) : Work :=
  let ready := (w.ctxs.filter (fun p => match p.2.decided with | some d => decide (d.1 ≤ w.time.beat) | none => false))
  if ready.isEmpty then w
  else
    let w := forAll ready (fun p w => match p.2.decided with
      | some d => admitCtx p.1 d.2.1 d.2.2.1 d.2.2.2 w
      | none => w) w
    scheduleDone (takeClocks w)

/-! ## Requests and withdrawals (R44) -/

/-- A committed request for admission, of the commit with that order. -/
def admitRequest (n order : Nat) (w : Work) : Work :=
  let s := ctxGet w.toBlk n 0x0B
  if s = 2 ∨ s = 5 then modCtx n (fun c => { c with withdrawAt := none }) w
  else if s = 1 then w
  else
    let w := ctxPut n 0x0B 1 (ctxPut n 0x0C 0 w)
    busyStep (modCtx n (fun c => { c with pendingAt := some order, decided := none }) w)

/-- The end of a context's current period: the next boundary that would release it (R44). -/
def periodEnd (b : Blk) (n : Nat) : Nat :=
  let per := max 1 (ctxGet b n 3)
  let eff := ctxGet b n 0x0F
  b.time.beat + (per - (b.time.beat + per - eff % per) % per)

/-- A committed withdrawal: of an admitted context at its period's end; of a request before its commit at once. -/
def withdrawRequest (n : Nat) (w : Work) : Work :=
  let s := ctxGet w.toBlk n 0x0B
  if s = 2 ∨ s = 5 then
    let at_ := periodEnd w.toBlk n
    modCtx n (fun c => { c with withdrawAt := some (c.withdrawAt.getD at_) }) w
  else if s = 1 then
    let w := ctxPut n 0x0B 0 w
    busyStep (modCtx n (fun c => { c with pendingAt := none, decided := none }) w)
  else w

/-- A context loses its admission: its status, and its present slice when `stop`. -/
def dropAdmission (n status reason : Nat) (w : Work) : Work :=
  let w := ctxPut n 0x0B status (ctxPut n 0x0C reason (ctxPut n 0x0E 0xFF w))
  modCtx n (fun c => { c with decided := none, pendingAt := none, withdrawAt := none, needPred := none, anyCore := false }) w

/-- WITHDRAWAL_EFFECT at the end of the current period: a committed schedule (R55, DEDUCED, log 45). -/
def withdrawalEffect (n : Nat) (w : Work) : Work :=
  match (ctxRun w.toBlk n).withdrawAt with
  | none => w
  | some t => if t ≤ w.time.beat then scheduleDone (suspendIngest n (dropAdmission n 0 0 w)) else w

/-! ## Recomputation (R52 to R54) -/

/-- Retract what a context's streams have left provisional (R54, 17 R448). -/
def retractCtx (n : Nat) (w : Work) : Work :=
  forAll (List.range 64) (fun s w =>
    if odGet w.toBlk (0x6000 + s) 4 = n ∧ odGet w.toBlk (0x6000 + s) 3 = 0 then
      match (outOf w.toBlk s).unsettled with
      | [] => w
      | u :: _ => retractFrom s u.seq w
    else w) w

/-- A context is shed. The Garnet context of a removed quad is a Safety context too (R35, R53, R54). -/
def shedCtx (n : Nat) (w : Work) : Work :=
  let safety := ctxClass w.toBlk n == 1
  let w := doIf (sliceOf w.toBlk n).live (stopSlice n false) w
  let w := suspendIngest n (modCtx n (fun c => { c with lost := false }) (dropAdmission n 4 0x0D w))
  let w := odAdd 0x2010 4 1 w
  if safety then
    let w := { w with dev.safetyShed := true }
    retractCtx n (raise 0x073 n 0 w)
  else w

/-- The loop of R53 over placements chosen once: the contexts to shed, in the order of shedding. -/
def shedLoop (b : Blk) (pl : Nat → Nat) : Nat → List Nat → List Nat → List Nat × List Nat
  | 0, set, gone => (set, gone)
  | k + 1, set, gone =>
    match (inOrder b set).find? (fun n => ctxClass b n != 3 && n != 0 && !(respTest b pl set n).2) with
    | none => (set, gone)
    | some _ =>
      match (inOrder b (set.filter (fun n => n != 0 && !isGarnet n))).getLast? with
      | none => (set, gone)
      | some v => shedLoop b pl k (set.filter (· != v)) (gone ++ [v])

/-- The recomputation's outcome: the contexts kept with their placements, and those to shed. -/
def recomputeSet (b : Blk) : (Nat → Nat) × List Nat × List Nat :=
  let all := admitted b
  let lost := fun n => (ctxRun b n).lost
  let pl := fun n => if n = 0 then 0 else choosePlace b n
  let none_ := all.filter (fun n => n != 0 && (pl n == 4 || lost n))
  let set := all.filter (fun n => !none_.contains n)
  let r := shedLoop b pl 1024 (set.filter (· != 0)) none_
  (pl, r.1, r.2)

/-- Pair 2 decides the pending recomputation; it commits `delay` beats later. -/
def recomputeDecide (delay : Nat) (w : Work) : Work :=
  if w.sched.recompute.isNone ∨ w.sched.commitAt.isSome ∨ pairRuns w.toBlk 2 = false ∨ resetting w.toBlk = true then w
  else { w with sched.commitAt := some (w.time.beat + delay) }

/-- ADMIT_CLOCK_MHZ takes the lower value of the retest's step, as a commit of the device's own (12 R303, 15 R398). -/
def stepCommit (q : Nat) (w : Work) : Work :=
  if (quadRun w.toBlk q).remedy = 2 then
    let f := testClock w.toBlk q
    let w := quadPut q 0x10 f w
    let w := deviceCommit w
    modQuad q (fun r => { r with cap := min r.cap f, remedy := 3 }) w
  else w

/-- ADMISSION_RECOMPUTE: the recomputation commits. -/
def recomputeCommit (w : Work) : Work :=
  match w.sched.recompute, w.sched.commitAt with
  | some _, some t =>
    if w.time.beat < t then w
    else
      let b := w.toBlk
      let r := recomputeSet b
      let w := forAll r.2.2 shedCtx w
      let w := forAll r.2.1 (fun n w =>
        let moved := activePlace b n != r.1 n || ctxGet b n 0x0B == 5
        let off := b.dev.state == .squall && decide (2 ≤ ctxClass b n)
        let w := ctxPut n 0x0B (if off then 5 else 2) (ctxPut n 0x0E (r.1 n) (respPut n (respTest b r.1 r.2.1 n).1 w))
        doIf moved (modCtx n (fun c => { c with firstAt := max c.firstAt (b.time.beat + 1) })) w) w
      let w := takeClocks (keepClocks (forAll (List.range (quadCount b.fuses)) stepCommit w))
      let w := { w with sched.recompute := none, sched.commitAt := none }
      busyStep (scheduleDone w)
  | _, _ => w

/-! ## Self-admission (R35, 01 R27) -/

/-- At each entry to CONFIG from BOOT: every other context is withdrawn, and context 0 and the Garnet contexts of present
quads are admitted, as one committed schedule. -/
def selfAdmission (w : Work) : Work :=
  let b := w.toBlk
  let w := forAll ((List.range 1024).filter (fun n => ctxExists b.fuses n && !ctxFixed n)) (fun n w =>
    let w := doIf (ctxGet w.toBlk n 0x0B != 0) (dropAdmission n 0 0) w
    let w := modCtx n (fun _ => CtxRun.idle) w
    ctxPut n 0x0A 0 w) w
  let w := { w with sched := Sched.reset }
  let w := ctxPut 0 0x0A 1 (admitCtx 0 0 0 0 w)
  let w := forAll (List.range (quadCount b.fuses)) (fun q w =>
    if quadRemoved b q then ctxPut (960 + q) 0x0B 4 w else ctxPut (960 + q) 0x0A 1 (admitCtx (960 + q) 0 q 0 w)) w
  let set := (admitted w.toBlk).filter (fun n => n != 0)
  let w := forAll set (fun n w => respPut n (respTest w.toBlk (fun _ => 0) set n).1 w) w
  busyStep (scheduleDone (takeClocks (keepClocks w)))

end Sys2Proof.Machine
end

