-- ==== Sys2Proof/Machine/Results.lean ====
section
/-! DEFINITION. The output unit (10): sources and digests, confirmation, retraction and the watermark, the records that
close at a boundary, and their way to the ports. -/

namespace Sys2Proof.Machine

/-! ## Sources (R246, R250, R251) -/

/-- What a content's sources come to: entries as they stand in the record, FLAGS bits 1 to 3, CONCEALED_COUNT, capture
times, the message M of R250, the partner sources, and whether one of these has been retracted or lost (R259). -/
structure Sources where
  entries : List (List Byte)
  flags : Nat
  concealed : Nat
  times : List Nat
  m : List Byte
  partners : List (Nat × Nat × Nat)
  gone : Bool

/-- The entries used, none where one follows an unused one. -/
def usedEntries (row : List Byte) : Option (List (List Byte)) :=
  let all := (List.range 16).map (fun i => (row.drop (16 * i)).take 16)
  let used := all.takeWhile (fun e => leAt e 0 1 != 0)
  if (all.drop used.length).all (fun e => leAt e 0 1 == 0) then some used else none

/-- The table entries of positions a to b of the newest frame of a counter, in order; none when one is missing. -/
def rangeOf (b : Blk) (n ctr lo hi : Nat) : Option (List (RtEntry × List Byte)) :=
  let t := (inOf b n).table
  match t.find? (fun e => leAt e.hdr 4 2 == ctr && e.pos == lo) with
  | none => none
  | some f =>
    let get := fun (r : Nat) =>
      match t.dropWhile (fun e => !(e.idx == f.idx && e.pos == r)) with
      | [] => none
      | e :: older =>
        if e.first then some (e, zeroChain) else (older.head?).map (fun o => (e, o.chain))
    ((List.range (hi + 1 - lo)).map (fun i => get (lo + i))).foldr (fun x acc => match x, acc with
      | some x, some l => some (x :: l)
      | _, _ => none) (some [])

/-- One sensor entry into the sources so far. -/
def addSensor (b : Blk) (e : List Byte) (s : Sources) : Option Sources :=
  let n := leAt e 1 1
  let lo := leAt e 4 2
  let hi := leAt e 6 2
  if 32 ≤ n ∨ hi < lo then none
  else match rangeOf b n (leAt e 2 2) lo hi with
    | none => none
    | some [] => none
    | some (x :: r) =>
      if r.any (fun p => p.1.first) then none
      else
        let hdrs := (x :: r).map (fun p => p.1.hdr)
        let k := (hdrs.filter (fun h => bit (leAt h 16 2) 0)).length
        let rep := hdrs.any (fun h => bit (leAt h 16 2) 2)
        let e := e.take 8 ++ leBytes 2 k ++ e.drop 10
        let last := (((x :: r).getLast?).map (fun p => p.1.chain)).getD zeroChain
        some { s with entries := s.entries ++ [e], concealed := s.concealed + k,
                      flags := Nat.lor s.flags (2 * b2n (k != 0) + 4 * b2n rep),
                      times := s.times ++ hdrs.map (fun h => leAt h 8 8), m := s.m ++ e ++ x.2 ++ last }

/-- One partner entry. -/
def addPartner (b : Blk) (e : List Byte) (s : Sources) : Option Sources :=
  let mem := leAt e 1 1
  let out := leAt e 2 1
  let first := leAt e 4 4
  let last := leAt e 8 4
  let k := (last + 2 ^ 32 - first) % 2 ^ 32
  if 3 < mem ∨ leAt e 3 1 ≠ 0 ∨ leAt e 12 4 ≠ 0 ∨ 15 < k then none
  else
    let recs := (List.range (k + 1)).map (fun i =>
      b.casc.recs.find? (fun r => r.member == mem && r.out == out && r.seq == (first + i) % 2 ^ 32 && r.kind == 1))
    if recs.any (·.isNone) then none
    else
      let rs := recs.filterMap id
      some { s with entries := s.entries ++ [e], flags := Nat.lor s.flags 8,
                    times := s.times ++ rs.flatMap (fun r => [r.oldest, r.latest]),
                    m := s.m ++ e ++ rs.flatMap (fun r => r.digest ++ r.pay),
                    partners := s.partners ++ (List.range (k + 1)).map (fun i => (mem, out, (first + i) % 2 ^ 32)),
                    gone := s.gone || rs.any (·.gone) }

def noSources : Sources := { entries := [], flags := 0, concealed := 0, times := [], m := [], partners := [], gone := false }

/-- Every source entry of a delivered row, none where one is malformed (R251). -/
def resolve (b : Blk) (row : List Byte) : Option Sources :=
  (usedEntries row).bind (fun es => es.foldl (fun (s : Option Sources) e => s.bind (fun s =>
    match leAt e 0 1 with
    | 1 => addSensor b e s
    | 2 => addPartner b e s
    | _ => none)) (some noSources))

/-! ## Confirmation and retraction (R254 to R256, R259) -/

/-- Every unit that worked for a result has a clean-through beat later than the beat in which the result's last slice on it
completed. A guard output rests on the guard engines and the hub units. -/
def unitsClean (b : Blk) (guard : Bool) (u : Unsettled) : Bool :=
  decide (u.beat < b.res.hubClean) &&
  (if guard then decide (u.beat < b.res.guardClean)
   else u.work.all (fun p => decide (p.2 < quadGet b p.1 0xA1)))

def partnersClean (b : Blk) (u : Unsettled) : Bool := u.partners.all (partnerSettled b)

/-- A stream's retraction, first of all at its boundary: every unsettled result from RETRACT_FROM on, which is the answer,
is retracted. -/
def retractStep (s : Nat) (w : Work) : Option Nat × Work :=
  match (outOf w.toBlk s).retract with
  | none => (none, w)
  | some f =>
    let old := (outOf w.toBlk s).unsettled
    let kept := old.filter (fun u => !seqLe f u.seq)
    let any := decide (kept.length < old.length)
    let w := odAdd (0x6000 + s) 0x46 (old.length - kept.length) w
    (some f, modOut s (fun o => { o with unsettled := kept, retract := none, settled := o.settled || any }) w)

/-- What can be confirmed is confirmed. -/
def confirmStep (s : Nat) (w : Work) : Work :=
  let old := (outOf w.toBlk s).unsettled
  let guard := odGet w.toBlk (0x6000 + s) 4 == 0
  let left := old.filter (fun u => !(unitsClean w.toBlk guard u && partnersClean w.toBlk u))
  let any := decide (left.length < old.length)
  modOut s (fun o => { o with unsettled := left, settled := o.settled || any }) w

/-- WATERMARK of the record with SEQ sq. -/
def watermark (o : OutStream) (sq : Nat) : Nat :=
  if o.settled = false then 0xFFFFFFFF
  else match o.unsettled with
    | [] => (sq + 2 ^ 32 - 1) % 2 ^ 32
    | u :: _ => (u.seq + 2 ^ 32 - 1) % 2 ^ 32

/-! ## Ports (R264, R269, 12 R319) -/

/-- A closed record leaves on its port, or is dropped whole: the port is down, the cascade is not formed, or `room` says that
the port's budget is spent. -/
def sendRecord (room : Bool) (s sq : Nat) (bs : List Byte) (w : Work) : Work :=
  let port := odGet w.toBlk (0x6000 + s) 6
  let dropped := fun (w : Work) => odAdd (0x6000 + s) 0x48 1 w
  if port = 5 then
    let w := fabricSend s bs w
    if formed w.toBlk then w else dropped w
  else if portUp w.toBlk port && room then send (.record port sq bs) (usePort port (64 + bs.length) w)
  else dropped (if port = 0 then w else odAdd (0x2820 + (port - 1)) 0xD 1 w)

/-! ## Records (R241 to R247, R262) -/

/-- The chain of a context: itself and its predecessors. -/
def chainOf : Nat → Blk → Nat → List Nat
  | 0, _, _ => []
  | k + 1, b, n => if 1024 ≤ n then [] else n :: chainOf k b (ctxGet b n 7)

/-- STATE_INPUT: the chain uses a temporal slot; the spec does not say which pools are persistent, so with a pool that
the chain may read the bit is free (log 37). -/
def stateInput (n : Nat) (w : Work) : Nat × Work :=
  let c := chainOf 16 w.toBlk n
  if (List.range 32).any (fun t => c.contains (tmFwd w.toBlk t) || c.contains (tmBack w.toBlk t)) then (32, w)
  else if (List.range 128).any (fun p => odGet w.toBlk (0x2640 + p) 3 != 0 && c.any (fun k =>
      odGet w.toBlk (0x2640 + p) 4 == k || memberOf w.toBlk (odGet w.toBlk (0x2640 + p) 5) k)) then
    let (k, w) := takeFree w
    (32 * (Config.freeValue k % 2), w)
  else (0, w)

/-- The 128-byte header. -/
structure ResHead where
  kind : Nat
  flags : Nat
  from_ : Nat
  oldest : Nat
  latest : Nat
  bound : Nat
  ctx : Nat
  sources : Nat
  concealed : Nat
  handles : Nat × Nat
  cfg : Nat × Tab Nat × Nat
  digest : List Byte
  quads : Nat
  rel : Nat

def recordBytes (b : Blk) (s sq : Nat) (h : ResHead) (entries payload : List Byte) : List Byte :=
  let member := if odGet b 0x2700 3 = 1 then 0xFF else odGet b 0x2700 2 % 4
  let head := leBytes 1 1 ++ leBytes 1 h.kind ++ leBytes 1 s ++ leBytes 1 h.flags ++ leBytes 4 sq ++
    leBytes 4 (odGet b (0x6000 + s) 0x42) ++ leBytes 4 h.from_ ++ leBytes 8 b.time.beat ++ leBytes 8 h.oldest ++
    leBytes 8 h.latest ++ leBytes 4 h.bound ++ leBytes 4 payload.length ++ leBytes 2 h.ctx ++ leBytes 1 h.sources ++
    leBytes 1 (min 255 h.concealed) ++ leBytes 2 h.handles.1 ++ leBytes 2 h.handles.2 ++ leBytes 4 h.cfg.1 ++
    leBytes 4 h.cfg.2.2 ++ (h.digest ++ List.replicate 16 0).take 16 ++ leBytes 16 (digestOf b h.cfg.2.1) ++ leBytes 8 h.quads ++
    leBytes 4 b.fuses.serial ++ leBytes 1 member ++ leBytes 3 0 ++ leBytes 8 h.rel ++ leBytes 4 0
  head ++ leBytes 4 (crc32c (head ++ entries ++ payload)) ++ entries ++ payload

/-- CONFIG_GENERATION, the entries of CONFIG_DIGEST and ADMISSION_GENERATION as they stand (R253). -/
def cfgNow (b : Blk) : Nat × Tab Nat × Nat := (odGet b 0x2002 1, configOf b, odGet b 0x2010 1)

/-- They are kept as they stand after step 2 of a boundary, for the guard's records. -/
def cfgStep (w : Work) : Work := { w with res.cfgs := (cfgNow w.toBlk :: w.res.cfgs).take 21 }

/-- What R253 stamps the guard's record with: as it stood at the release of its slice, 20 beats before. -/
def guardCfg (b : Blk) : Nat × Tab Nat × Nat :=
  match b.res.cfgs[20]? with
  | some c => c
  | none => b.res.cfgs.getLast?.getD (cfgNow b)

/-- A record of KIND 2, 3 or 4: ADMISSION_GENERATION stands in an empty one (R253), and is 0 in the others (R245; DEDUCED, log
138). RELEASE_BEAT stands in a withheld one. -/
def plainHead (b : Blk) (s kind : Nat) (from_ : Option Nat) (sq rel : Nat) : ResHead :=
  let c := cfgNow b
  { kind := kind, flags := b2n from_.isSome, from_ := from_.getD sq, oldest := 0, latest := (outOf b s).latest, bound := 0,
    ctx := 0, sources := 0, concealed := 0, handles := (0, 0), cfg := (c.1, c.2.1, if kind = 2 then c.2.2 else 0), digest := [],
    quads := 0, rel := if kind = 3 then rel else 0 }

/-- Records in a row without content, and "output stale" when they reach CONTENT_GAP_BEATS. -/
def gapStep (s sq : Nat) (content : Bool) (w : Work) : Work :=
  let g := if content then 0 else (outOf w.toBlk s).gap + 1
  let w := modOut s (fun o => { o with gap := g }) w
  let lim := odGet w.toBlk (0x6000 + s) 0xB
  doIf (decide (lim ≠ 0) && g == lim && w.dev.state != .adapt) (raise 0x072 s sq) w

/-- Close one record: its watermark and counts. It is given to its port with the boundary's others. -/
def closeRecord (s sq : Nat) (h : ResHead) (entries payload : List Byte) (w : Work) : Work :=
  let w := odPut (0x6000 + s) 0x41 sq w
  let w := odPut (0x6000 + s) 0x42 (watermark (outOf w.toBlk s) sq) w
  let w := odAdd (0x6000 + s) 0x44 1 w
  let w := gapStep s sq (h.kind == 1) w
  { w with closed := w.closed ++ [(s, sq, recordBytes w.toBlk s sq h entries payload)] }

/-- Close a record of KIND 2, 3 or 4; `from_` is the boundary's RETRACT_FROM. -/
def closePlain (s sq kind rel : Nat) (from_ : Option Nat) (w : Work) : Work :=
  let w := doIf (kind == 3) (odAdd (0x6000 + s) 0x45 1) w
  closeRecord s sq (plainHead w.toBlk s kind from_ sq rel) [] [] w

/-- A content that closes: its context, sources, payload, the quads that worked for it, the beat in which it was complete,
its release, and what R253 stamps it with. -/
structure Content where
  ctx : Nat
  src : Sources
  payload : List Byte
  work : Tab Nat
  doneAt : Nat
  rel : Nat
  cfg : Nat × Tab Nat × Nat

/-- The age monitor on a content result (R262): whether its age exceeds the bound. Neither check runs in ADAPT, and
MAX_AGE_NS is kept by the first of them (DEDUCED, log 139). -/
def ageStep (s sq latest : Nat) (w : Work) : Bool × Work :=
  let age := 2000 * w.time.beat - latest
  let check := w.dev.state != .adapt
  let late := check && decide (odGet w.toBlk (0x6000 + s) 0x43 < age)
  let w := doIf late (fun w => raise 0x071 s sq (odAdd (0x6000 + s) 0x47 1 w)) w
  (late, doIf (check && decide (odGet w.toBlk (0x6000 + s) 0x49 < age)) (odPut (0x6000 + s) 0x49 (min age (2 ^ 32 - 1))) w)

/-- A content result of the plausibility stream waits for pair 0's comparison (15 R396); a payload that is too short holds
no corridor. -/
def plausPush (s sq latest : Nat) (c : Content) (w : Work) : Work :=
  if odGet w.toBlk 0x2330 1 = 1 ∧ odGet w.toBlk 0x2330 2 = s ∧ c.ctx ≠ 0 then
    let off := odGet w.toBlk 0x2330 3
    let bins := if c.payload.length < off + 64 then [] else (List.range 32).map (fun i => leAt c.payload (off + 2 * i) 2)
    { w with guard.compare := w.guard.compare ++ [(w.time.beat, sq, latest, bins)] }
  else w

/-- Close a content result: its age is looked at, and it stays unsettled until it is confirmed or retracted. -/
def closeContent (s sq : Nat) (c : Content) (from_ : Option Nat) (w : Work) : Work :=
  let (k, w) := takeFrees 2 w
  let times := c.src.times
  let oldest := if times = [] then Config.freeValue k % 2 ^ 64 else times.foldl min (nth 0 times 0)
  let latest := if times = [] then Config.freeValue (k + 1) % 2 ^ 64 else times.foldl max 0
  let a := ageStep s sq latest w
  let st := stateInput c.ctx a.2
  let mine : Unsettled := { seq := sq, work := c.work, beat := c.doneAt, partners := c.src.partners }
  let w := modOut s (fun o => { o with latest := latest, lastContent := some sq, unsettled := o.unsettled ++ [mine] }) st.2
  let w := confirmStep s w
  let img := ((imageOf w.toBlk c.ctx (activePlace w.toBlk c.ctx)).map (·.handle)).getD 0
  let h : ResHead :=
    { kind := 1, flags := b2n from_.isSome + c.src.flags + 16 * b2n a.1 + st.1, from_ := from_.getD sq, oldest := oldest,
      latest := latest, bound := odGet w.toBlk (0x6000 + s) 0x43, ctx := c.ctx, sources := c.src.entries.length,
      concealed := c.src.concealed, handles := (img, tabGet 0 w.res.weights c.ctx), cfg := c.cfg, digest := (sha3 c.src.m).take 16,
      quads := c.work.foldl (fun m p => setBit m p.1 true) 0, rel := c.rel }
  plausPush s sq latest c (closeRecord s sq h c.src.entries.flatten c.payload w)

/-! ## What closes at a boundary (R241, R243, R257, R264) -/

/-- The content of an output stream that is due at the boundary. -/
def dueNow (b : Blk) (s : Nat) : Option Due := (outOf b s).due.find? (fun d => d.closeAt == some b.time.beat)

/-- The enabled result streams. -/
def resultStreams (b : Blk) : List Nat :=
  (List.range 64).filter (fun s => odGet b (0x6000 + s) 2 == 1 && odGet b (0x6000 + s) 3 == 0)

/-- A stream that the guard context delivers to. -/
def guardStream (b : Blk) (s : Nat) : Bool := odGet b (0x6000 + s) 4 == 0

/-- The deadline of every slice accepted so far has passed at boundary t, Garnet slices apart (01 R22, log 94). A context's
latest slice has the last of its deadlines, since no deadline is later than the next release (02 R34). -/
def deadlinesPassed (b : Blk) (t : Nat) : Bool :=
  b.slices.all (fun p => p.1 == 0 || isGarnet p.1 || p.2.rel == 0 || decide (p.2.rel + ctxGet b p.1 5 ≤ t))

/-- While RUN drains, a stream ends when nothing more is due on it and its last content is settled (R264). A guard stream, which
has content at every boundary (01 R16), goes on until that is so of every other stream and the last deadline will have
passed at the next boundary (DEDUCED, log 140). -/
def streamOver (b : Blk) (s : Nat) : Bool :=
  b.dev.draining && (outOf b s).unsettled.isEmpty &&
  (if guardStream b s then
    deadlinesPassed b (b.time.beat + 1) &&
    (resultStreams b).all (fun r => guardStream b r || odGet b (0x6000 + r) 0x40 == 3 || odGet b (0x6000 + r) 0x40 == 0)
   else (outOf b s).due.isEmpty)

/-- The content of a due delivery, none where it is withheld: its slice or a partner source is in doubt (R257, R259), the hub
cannot read it (07 R179), or its sources do not resolve (R251). -/
def dueContent (bad : List (Nat × Nat)) (s : Nat) (d : Due) (row : List Byte) (w : Work) : Option Content × Work :=
  if d.withheld then (none, w)
  else match bad.find? (fun p => p.1 == s) with
    | some p => (none, raise 0x030 0x400 (p.2 / 8 * 8) w)
    | none =>
      match resolve w.toBlk row with
      | none => (none, odAdd (0x6000 + s) 0x4A 1 (raise 0x070 s (odGet w.toBlk (0x6000 + s) 0x41) w))
      | some src =>
        if src.gone then (none, w)
        else (some { ctx := odGet w.toBlk (0x6000 + s) 4, src := src, payload := row.drop 256, work := d.work, doneAt := d.doneAt,
                     rel := d.rel, cfg := d.cfg }, w)

/-- The record of a result stream of a context other than the guard context. -/
def closeDue (bad : List (Nat × Nat)) (s sq : Nat) (from_ : Option Nat) (w : Work) : Work :=
  match dueNow w.toBlk s with
  | none => closePlain s sq 2 0 from_ w
  | some d =>
    let w := modOut s (fun o => { o with due := o.due.filter (fun x => x.rel != d.rel) }) (odPut (0x6000 + s) 0x41 sq w)
    match d.withheld, d.row with
    | false, none => closePlain s sq 2 0 from_ w
    | _, row =>
      match dueContent bad s d (row.getD []) w with
      | (none, w) => closePlain s sq 3 d.rel from_ w
      | (some c, w) => closeContent s sq c from_ w

/-- The guard's record (15 R395, R392): `g` its output of this boundary, none when it is withheld. -/
def closeGuard (s sq : Nat) (g : Option (List Byte)) (from_ : Option Nat) (w : Work) : Work :=
  let rel := w.time.beat - 20
  match g with
  | none => closePlain s sq 3 rel from_ w
  | some p =>
    closeContent s sq { ctx := 0, src := noSources, payload := p, work := [], doneAt := w.time.beat - 1, rel := rel,
                        cfg := guardCfg w.toBlk } from_ w

/-- One output stream at a boundary: it becomes active, closes its record, or ends (R241, R264). -/
def closeStream (g : Option (List Byte)) (bad : List (Nat × Nat)) (s : Nat) (w : Work) : Work :=
  let idx := 0x6000 + s
  let st := odGet w.toBlk idx 0x40
  if odGet w.toBlk idx 2 ≠ 1 ∨ odGet w.toBlk idx 3 ≠ 0 ∨ (st = 3 ∧ w.dev.draining = true) then w
  else
    let fresh := st == 0 || st == 3
    let w := if fresh then modOut s (fun o => { OutStream.idle with start := w.time.beat, tapSeq := o.tapSeq }) w else w
    let w := odPut idx 0x40 (if w.dev.draining then 2 else 1) w
    let sq := (w.time.beat - (outOf w.toBlk s).start) % 2 ^ 32
    let r := retractStep s w
    let w := confirmStep s r.2
    if streamOver w.toBlk s then odPut idx 0x40 3 (closePlain s sq 4 0 r.1 w)
    else if guardStream w.toBlk s then closeGuard s sq g r.1 w
    else closeDue bad s sq r.1 w

/-- The result streams of a port, the highest delivering context in R36 first. -/
def portOrder (b : Blk) (ss : List Nat) : List Nat :=
  let key := fun (s : Nat) => if odGet b (0x6000 + s) 4 < 1024 then rank b (odGet b (0x6000 + s) 4) else 2 ^ 64
  ss.foldl (fun l s => (l.filter (fun x => decide (key x ≤ key s))) ++ [s] ++ l.filter (fun x => decide (key s < key x))) []

/-- The records of a boundary go to their ports: what is in excess of a port's budget is dropped, the lowest in R36 first
(R269). -/
def sendClosed (w : Work) : Work :=
  let all := w.closed
  let w := { w with closed := [] }
  let size := fun (s : Nat) => ((all.find? (fun r => r.1 == s)).map (fun r => 64 + r.2.2.length)).getD 0
  forAll (List.range 6) (fun port w =>
    let ss := portOrder w.toBlk ((all.map (·.1)).filter (fun s => odGet w.toBlk (0x6000 + s) 6 == port))
    forAll (ss.mapIdx (fun i s => (i, s))) (fun x w =>
      match all.find? (fun r => r.1 == x.2) with
      | none => w
      | some r =>
        let upTo := (ss.take (x.1 + 1)).foldl (fun n s => n + size s) 0
        sendRecord (decide (upTo ≤ portBudget w.toBlk port)) r.1 r.2.1 r.2.2 w) w) w

/-- Step 3 of 02 R33 for the output unit: one record per active stream, the guard's after the others. -/
def closeAll (g : Option (List Byte)) (bad : List (Nat × Nat)) (w : Work) : Work :=
  if activeState w.toBlk = false then w
  else
    let ss := (List.range 64).filter (fun s => !guardStream w.toBlk s) ++ (List.range 64).filter (guardStream w.toBlk)
    sendClosed (forAll ss (closeStream g bad) w)

/-- Every stream has ended, so that RUN may be left (02 R22). -/
def streamsEnded (b : Blk) : Bool :=
  (resultStreams b).all (fun s => odGet b (0x6000 + s) 0x40 == 3 || odGet b (0x6000 + s) 0x40 == 0)

/-- Clean-through beats of the hub and guard units at a boundary (15 R380). -/
def hubCleanStep (w : Work) : Work :=
  let w := if w.res.flagged then w else { w with res.hubClean := w.time.beat }
  let w := if w.guard.mismatch then w else { w with res.guardClean := w.time.beat }
  { w with res.flagged := false }

/-- A fault against a unit of the hub's path puts results in doubt that used it after its clean-through beat. -/
def doubtHub (w : Work) : Work :=
  let clean := w.res.hubClean
  doubt (fun u => decide (clean ≤ u.beat)) { w with res.flagged := true }

end Sys2Proof.Machine
end

