-- ==== Sys2Proof/Machine/Release.lean ====
section
/-! DEFINITION. Slices at run time: their release (02 R32, R33), the quads' clocks (02 R47), the end of the response time,
the deadline (02 R37), and the watches over engines that do not go on (16 R416, R417). -/

namespace Sys2Proof.Machine

/-! ## When a context is released -/

/-- A release boundary of a context (R32). -/
def releaseBoundary (b : Blk) (n t : Nat) : Bool :=
  let per := max 1 (ctxGet b n 3)
  (t + per - ctxGet b n 0x0F % per) % per == 0

/-- The first boundary after `t` of a period and an offset. -/
def boundaryAfter (period offset t : Nat) : Nat :=
  let per := max 1 period
  t + (per - (t + per - offset % per) % per)

/-- The next release boundary of a context after `t`. -/
def nextBoundary (b : Blk) (n t : Nat) : Nat := boundaryAfter (ctxGet b n 3) (ctxGet b n 0x0F) t

/-- A job of the context is held: stretched, or a member's compute part is in reset (17 R448, R449). -/
def jobHeld (b : Blk) (n : Nat) : Bool :=
  let now := b.time.beat
  (jobsOf b n).any (fun k =>
    b.casc.stretch.any (fun x => x.2.1 == k && decide (x.2.2 ≤ now)) || b.casc.held.any (fun x => x.2 == k) ||
    decide (now < tabGet 0 b.casc.resumeAt k))

/-- The context has a release at the present boundary (R32, R44, 01 R18, R22). -/
def releaseDue (b : Blk) (n : Nat) : Bool :=
  let now := b.time.beat
  activeState b && !(b.dev.state == .squall && decide (2 ≤ ctxClass b n)) && n != 0 && ctxGet b n 0x0B == 2 && decide ((ctxRun b n).firstAt ≤ now) && releaseBoundary b n now &&
  (!b.dev.draining || isGarnet n) && !((sliceOf b n).live && (sliceOf b n).rel == now)

/-- No release is made and none is due: the throttle's C1 (14 R363), or a Timed context whose quads are below their
admitted clock (R55). -/
def releaseHeld (b : Blk) (n : Nat) : Bool :=
  (ctxClass b n == 3 && elasticHeld b) ||
  (ctxClass b n == 2 && (maskQuads (activeQuads b n)).any (fun q => decide (clockOf b q < (quadRun b q).admitClock)))

/-- The release is skipped and its content withheld: a suspect quad (15 R397), a compute-part reset or a chain that waits
for its head after one (16 R423), a held job (17 R448, R449). -/
def releaseSkipped (b : Blk) (n : Nat) : Bool :=
  resetting b || (maskQuads (activeQuads b n)).any (fun q => quadGet b q 0xA0 != 0) || jobHeld b n ||
  (match (ctxRun b n).needPred with
   | some m => decide ((ctxRun b (ctxGet b n 7)).lastRel < m)
   | none => false)

/-! ## Content that falls due (10 R243) -/

/-- Content of the release at the present boundary is due on the context's streams. -/
def pushDue (n : Nat) (withheld : Bool) (w : Work) : Work :=
  let now := w.time.beat
  forAll (streamsFor w.toBlk n) (fun s w =>
    let closeAt := if odGet w.toBlk (0x6000 + s) 9 = 1 then some (now + ctxGet w.toBlk n 5)
      else if withheld then some (now + 1) else none
    let d : Due := { rel := now, row := none, withheld := withheld, closeAt := closeAt, work := [], cfg := cfgNow w.toBlk, doneAt := now }
    modOut s (fun o => { o with due := o.due ++ [d] }) w) w

/-- The per-period counts restart at the release boundary (R48, R49). -/
def periodReset (n : Nat) (w : Work) : Work := modCtx n (fun c => { c with ingest := 0, bursts := [], packets := [] }) w

/-! ## The release -/

/-- The slot that a context takes on an engine: its own, a fresh one, or the lowest that is idle (04 R80). -/
def slotFor (g : Engine) (n : Nat) : Option Nat :=
  let idle := (List.range 16).filter (fun k => !(slotOf g k).live)
  match idle.find? (fun k => (slotOf g k).ctx == n) with
  | some k => some k
  | none => match idle.find? (fun k => (slotOf g k).ctx == none16) with
    | some k => some k
    | none => idle.head?

/-- The lower context's next pass goes back unstarted (04 R81): to its slot, or to the tile queue it was taken from. A pass
that continues the chain in progress stays, since the chain ends first (03 R78). -/
def preempt (e n : Nat) (w : Work) : Work :=
  forAll [false, true] (fun h w =>
    match (halfOf (engineOf w.toBlk e) h).next with
    | none => w
    | some r =>
      if above w.toBlk n r.ctx && (pStart r.desc || (chainHalf (engineOf w.toBlk e) r.ctx).isNone) then
        let w := modHalf e h Half.dropNext w
        if r.queued then
          let q := quadOf r.owner
          { w with tileq := tabSet [] w.tileq q (r :: tabGet [] w.tileq q) }
        else match slotIx w.toBlk r.owner r.ctx with
          | some k => modSlot r.owner k (fun s => { s with returned := s.returned ++ [r] }) w
          | none => w
      else w) w

/-- A slice on one engine: its program counter at the entry, DP, loop counters and charge 0. -/
def startOnEngine (n : Nat) (x : Nat × Nat) (w : Work) : Work :=
  let w := preempt x.1 n w
  match slotFor (engineOf w.toBlk x.1) n with
  | none => w
  | some k => modSlot x.1 k (fun _ => { Slot.idle with ctx := n, live := true, pc := 8 * x.2, progress := w.time.beat }) w

/-- The slice objects of a context take their initial values (04 R95). -/
def resetSliceSyncs (n : Nat) (w : Work) : Work :=
  let f := fun (_ : Nat) (o : Option SyncObj) =>
    o.map (fun s => if s.owner = n ∧ s.persistent = false then s.fresh else s)
  { w with syncs := tabMap none f w.syncs }

/-- A test step that a release meets is abandoned and counts nothing (15 R391): the step is one command, so none is under
way. The slice's planned start is the boundary itself, or for a Garnet slice the one of pair 2's plan (13 R335, 15 R382). -/
def plannedStart (b : Blk) (n : Nat) : Nat :=
  if isGarnet n then
    let q := n - 960
    let k := (b.time.beat - q) / 64
    b.time.beat + min (tabGet 0 b.sched.plan (64 * k + q)) (64 - min 64 (max 1 (ctxGet b n 0x0D)))
  else b.time.beat

/-- GARNET_WINDOW_EXPIRE: a Garnet slice that does not complete within its window of 64 beats (15 R383). -/
def garnetExpire (q : Nat) (w : Work) : Work :=
  let s := sliceOf w.toBlk (960 + q)
  if s.live && s.doneAt.isNone && s.stopped.isNone && decide (s.rel + 64 ≤ w.time.beat) then
    let k := (s.rel - q) / 64
    let w := quadAdd q 0xA3 1 w
    makeSuspect q (raise 0x010 q (k % 16) w)
  else w

/-- A slice that is unfinished at its context's next release is stopped (16 R416). A Garnet slice's window ends there. -/
def overran (n : Nat) (w : Work) : Work :=
  let w := doIf (isGarnet n) (garnetExpire (n - 960)) w
  let s := sliceOf w.toBlk n
  if s.live && s.doneAt.isNone && s.stopped.isNone then
    let w := odAdd 0x2420 6 1 w
    stopSlice n true (raise 0x01B n 0 w)
  else w

/-- Close the books of a slice that is over: its slots' memory (08 R192), and what its streams keep of it. -/
def endSlice (maps : List (Nat × Nat)) (n : Nat) (w : Work) : Work :=
  let s := sliceOf w.toBlk n
  let good := s.doneAt.isSome && s.stopped.isNone && !s.withheld
  let w := tmResponse maps n good w
  let now := w.time.beat
  let work := (ctxRun w.toBlk n).chainWork
  let at_ := s.doneAt.getD now
  let fill := fun (d : Due) =>
    if d.rel = s.rel then { d with work := work, doneAt := at_, closeAt := some (d.closeAt.getD now) } else d
  let w := forAll (streamsFor w.toBlk n) (fun o w => modOut o (fun x => { x with due := x.due.map fill }) w) w
  modSlice n (fun s => { s with live := false }) w

/-- A release of an Elastic context in ADAPT begins an adaptation step of the context unless one is in progress (01 R25, log
53). -/
def stepStart (n : Nat) (w : Work) : Work :=
  if w.dev.state = .adapt ∧ ctxClass w.toBlk n = 3 ∧ w.dev.steps.contains n = false then { w with dev.steps := n :: w.dev.steps } else w

/-- SLICE_RELEASE: the slice of a context at the present boundary; `maps` are the page-map entries found uncorrectable. -/
def releaseSlice (maps : List (Nat × Nat)) (n : Nat) (w : Work) : Work :=
  if releaseDue w.toBlk n = false then w
  else
    let w := periodReset n w
    if releaseHeld w.toBlk n then w
    else
      let ran := sliceOf w.toBlk n
      let late := ran.live && ran.doneAt.isNone && ran.stopped.isNone
      let w := overran n w
      let w := doIf (sliceOf w.toBlk n).live (endSlice maps n) w
      if releaseSkipped w.toBlk n then pushDue n true w
      else
        let es := ctxEngines w.toBlk n
        let sl : Slice := { Slice.idle with live := true, rel := w.time.beat, open_ := es.map (·.1),
                                            unacked := if late then es.map (·.1) else [],
                                            cfg := cfgNow w.toBlk, startAt := plannedStart w.toBlk n }
        let w := modSlice n (fun _ => sl) w
        let w := modCtx n (fun c => { c with needPred := none }) w
        let w := stepStart n (pushDue n false w)
        let w := resetSliceSyncs n w
        let w := forAll es (startOnEngine n) w
        let w := doIf (isGarnet n)
          (modQuad (n - 960) (fun r => { r with garnet := some ((w.time.beat - (n - 960)) / 64, []) })) w
        let w := releaseIngest n w
        let r := tmRelease maps n w
        if r.1 = false then stopSlice n false r.2
        else if es.isEmpty then sliceDone n r.2 else r.2

/-! ## The response time and the deadline -/

/-- SLICE_RESPONSE_END: the first boundary at or after the completion (R33), and after the mass read that a given second
trigger asks for (08 R198). A slice that was stopped ends here too. -/
def responseEnd (maps : List (Nat × Nat)) (n : Nat) (w : Work) : Work :=
  let s := sliceOf w.toBlk n
  if s.live && (s.doneAt.isSome || s.stopped.isSome) && !(tmPending w.toBlk n && s.stopped.isNone) then
    let w := endSlice maps n w
    if isGarnet n then garnetEnd (n - 960) s w else w
  else w
where
  /-- The clean-through beat of a quad whose Garnet slice completed with every block right (15 R380). -/
  garnetEnd (q : Nat) (s : Slice) (w : Work) : Work :=
    match (quadRun w.toBlk q).garnet with
    | none => w
    | some (_, blocks) =>
      let all := (List.range 4).all (fun i => blocks.any (fun p => p.1 == i && p.2))
      let w := modQuad q (fun r => { r with garnet := none }) w
      if all ∧ s.doneAt.isSome = true ∧ s.stopped.isNone = true ∧ quadGet w.toBlk q 0xA0 = 0 then
        let w := quadAdd q 0xA2 1 w
        quadPut q 0xA1 (max (quadGet w.toBlk q 0xA1) s.rel) w
      else w

/-- DEADLINE_MISSED: a slice that is not complete at its deadline (R37). An Elastic slice has no promise; its content is
withheld all the same when its boundary has passed (10 R243). -/
def deadlineMissed (n : Nat) (w : Work) : Work :=
  let s := sliceOf w.toBlk n
  let at_ := s.rel + ctxGet w.toBlk n 5
  if s.live && s.doneAt.isNone && s.stopped.isNone && !s.missed && decide (at_ ≤ w.time.beat) then
    let w := modSlice n (fun s => { s with missed := true }) w
    let w := doIf (decide (ctxClass w.toBlk n ≤ 2)) (raise 0x01A n (w.time.beat - at_)) w
    if s.withheld then w else withholdSlice n w
  else w

/-! ## Engines that do not go on -/

/-- PROGRESS_STALLED: a slot without progress for PROGRESS_LIMIT_BEATS (16 R417). -/
def progressStalled (e n : Nat) (w : Work) : Work :=
  match slotIx w.toBlk e n with
  | none => w
  | some k =>
    if w.time.beat < (slotOf (engineOf w.toBlk e) k).progress + odGet w.toBlk 0x2420 1 then w
    else
      let w := odAdd 0x2420 4 1 w
      let es := (ctxEngines w.toBlk n).map (·.1)
      let w := stopSlice n true (raise 0x01C e n w)
      modSlice n (fun s => { s with unacked := es }) w

/-- Acknowledgements that have come by the boundary after the next (16 R416). -/
def ackStep (w : Work) : Work :=
  let f := fun (_ : Nat) (s : Slice) =>
    if s.unacked ≠ [] ∧ (s.stopped.getD s.rel) + 2 ≤ w.time.beat then { s with unacked := [] } else s
  { w with slices := tabMap Slice.idle f w.slices }

/-- STOP_ACK_TIMEOUT: engine e has not acknowledged the stop of a context's slice; `units` names the units that did not
answer. The release made at the stop is taken back (16 R416, R417). -/
def stopAckTimeout (e n units : Nat) (w : Work) : Work :=
  let s := sliceOf w.toBlk n
  let at_ := s.stopped.getD s.rel
  if s.unacked.contains e && decide (at_ < w.time.beat) then
    let w := modSlice n (fun s => { s with unacked := s.unacked.filter (· != e) }) w
    let w := doIf (s.stopped.isNone && s.live) (stopSlice n true) w
    raise 0x01D e units (odAdd 0x2420 5 1 w)
  else w

/-! ## The quads' clocks (R47) -/

/-- The contexts placed on a quad, the suspended ones and those of a decided schedule among them. -/
def placedOn (b : Blk) (q : Nat) : List Nat :=
  (List.range 1024).filter (fun n => ctxExists b.fuses n && n != 0 &&
    (((ctxGet b n 0x0B == 2 || ctxGet b n 0x0B == 5) && (activeQuads b n).testBit q) ||
     (match (ctxRun b n).decided with | some d => (placeQuads b n d.2.1).testBit q | none => false)))

/-- A context's next release after the present moment: on the present schedule, or the first one of a decided schedule,
strictly after its commit (R44, R47). -/
def ctxRelease (b : Blk) (n : Nat) : Option Nat :=
  match (ctxRun b n).decided with
  | some d => if b.dev.state == .squall && decide (2 ≤ ctxClass b n) then none
    else some (boundaryAfter (ctxGet b n 3) d.2.2.1 (max b.time.beat d.1))
  | none => if ctxGet b n 0x0B = 2 then some (nextBoundary b n (max b.time.beat ((ctxRun b n).firstAt - 1))) else none

/-- The next release on a quad after the present moment, with the largest wake lead of the contexts released there. -/
def nextRelease (b : Blk) (q : Nat) : Option (Nat × Nat) :=
  let l := (placedOn b q).filterMap (fun n => (ctxRelease b n).map (fun t => (t, ctxGet b n 6)))
  match l with
  | [] => none
  | x :: r =>
    let t := r.foldl (fun m y => min m y.1) x.1
    some (t, (l.filter (fun y => y.1 == t)).foldl (fun m y => max m y.2) 0)

/-- A pass of another quad's queue runs on the quad. -/
def stealing (b : Blk) (q : Nat) : Bool :=
  (List.range 4).any (fun i => (halves (engineOf b (4 * q + i))).any (fun h =>
    (halfReqs h).any (fun r => r.queued && quadOf r.owner != q)))

/-- GUST: the sequencer opens the clock of a gated quad one wake lead before its next release, or in the last 1,024 beats of
a diagnostic cycle for the test steps that the quad lacks (15 R391); `opened` says whether the clock is open 20 ns later. -/
def gust (q t : Nat) (opened : Bool) (w : Work) : Work :=
  let at_ := moment t w
  let w := atTime t w
  let due := match nextRelease w.toBlk q with
    | some (r, lead) => decide (2000 * r ≤ at_ + lead)
    | none => false
  let test := decide (7168 ≤ w.time.beat % 8192) && w.safe.checkedAt.isSome && untested w.toBlk q != []
  if (quadRun w.toBlk q).gated = false ∨ quadRemoved w.toBlk q = true ∨ resetting w.toBlk = true ∨
      (due = false ∧ test = false) ∨ (activeState w.toBlk = false ∧ test = false) then w
  else
    let w := quadAdd q 0x98 1 w
    if opened then modQuad q (fun r => { r with gated := false }) w else raise 0x01F q 0 w

/-- QUAD_CLOCK_GATE: no released slice of the quad is unfinished, no steal is in progress, and the next release, which only
RUN, ADAPT and SQUALL have, is more than L_q + 40 ns away. -/
def quadGate (q t : Nat) (w : Work) : Work :=
  let at_ := moment t w
  let w := atTime t w
  let lead := (placedOn w.toBlk q).foldl (fun m n => max m (ctxGet w.toBlk n 6)) 0
  let far := match nextRelease w.toBlk q with
    | some (r, _) => decide (at_ + lead + 40 < 2000 * r)
    | none => true
  let far := far || !activeState w.toBlk
  let idle := !quadBusy w.toBlk q && !stealing w.toBlk q && far
  doIf (servedState w.toBlk && idle && quadGet w.toBlk q 0xA0 != 2 && !resetting w.toBlk)
    (modQuad q (fun r => { r with gated := true })) w

end Sys2Proof.Machine
end

