-- ==== Sys2Proof/Machine/Checking.lean ====
section
/-! DEFINITION. Checking and self-test (15): the diagnostic cycle, start-up checks, the guard path's output and its
plausibility check, suspect quads, the safety pins and the watchdog pulse. -/

namespace Sys2Proof.Machine

/-! ## The guard output (R393 to R395) -/

/-- ⌊m × 2^e⌋. -/
def floorDy (x : Int × Int) : Int := if x.2 < 0 then x.1 / (2 ^ x.2.natAbs : Int) else x.1 * 2 ^ x.2.toNat

/-- Component i of a point in the vehicle frame: formed exactly and rounded once; none when it is not finite. -/
def guardAxis (rot trans : Nat) (i : Nat) (p : List Nat) : Option (Int × Int) :=
  let r := fun j => fld rot (32 * (3 * i + j) + 31) (32 * (3 * i + j))
  let t := fld trans (32 * i + 31) (32 * i)
  let mul := fun (a c : Int × Int) => (a.1 * c.1, a.2 + c.2)
  let all := (List.range 3).map r ++ p ++ [t]
  if all.any fIsSpecial then none
  else
    let sum := (List.range 3).foldl (fun s j => dyAdd s (mul (fpVal fp32 (r j)) (fpVal fp32 (nth 0 p j)))) (fpVal fp32 t)
    let v := fRound false sum.1 sum.2
    if fIsSpecial v then none else some (fpVal fp32 v)

/-- The bin and distance of a point, none where it lies outside the limits. -/
def guardBin (b : Blk) (g : GPoint) : Option (Nat × Nat) :=
  let i := 0x2340 + (g.stream - 16)
  let at_ := fun k => guardAxis (odGet b i 1) (odGet b i 2) k [g.x, g.y, g.z]
  match at_ 0, at_ 1, at_ 2 with
  | some x, some y, some z =>
    let bin := floorDy (dyAdd (y.1 * 4, y.2) (16, 0))
    let h := floorDy (z.1 * 100, z.2)
    if 0 < x.1 ∧ 0 ≤ bin ∧ bin ≤ 31 ∧ sgn 16 (odGet b 0x2320 3) ≤ h ∧ h ≤ sgn 16 (odGet b 0x2320 4) then
      some (bin.toNat, (min (floorDy (x.1 * 100, x.2)) 20000).toNat)
    else none
  | _, _, _ => none

/-- Take the points of beat b − 20 into the present half window, which is exchanged every GUARD_WINDOW_BEATS / 2 beats. -/
def guardPointsStep (w : Work) : Work :=
  let now := w.time.beat
  let half := odGet w.toBlk 0x2320 5 / 2
  let w := if half ≠ 0 ∧ now % half = 0 then
      { w with guard.last := w.guard.now, guard.lastTime := w.guard.nowTime, guard.now := List.replicate 32 20000, guard.nowTime := none }
    else w
  let mine := w.guard.points.filter (fun p => p.beat + 20 == now)
  let w := odAdd 0x2320 9 (mine.length - 4096) w
  let w := { w with guard.points := w.guard.points.filter (fun p => decide (now < p.beat + 20)) }
  forAll (mine.take 4096) (fun p w => match guardBin w.toBlk p with
    | none => w
    | some (i, d) =>
      { w with guard.now := setNth w.guard.now i (min d (nth 20000 w.guard.now i)), guard.nowTime := some (max p.time (w.guard.nowTime.getD 0)) }) w

/-- The camera program's marks of the frames that ended in beat b − 20 (R394). -/
def guardCamStep (w : Work) : Work :=
  let now := w.time.beat
  let mine := w.guard.ends.filter (fun e => e.1 + 20 == now)
  let st := mine.foldl (fun s e => setBit s e.2.1 e.2.2) w.guard.status
  { w with guard.status := st, guard.ends := w.guard.ends.filter (fun e => decide (now < e.1 + 20)) }

/-- The guard engines run: in CONFIG and the states that publish (01 R17). -/
def guardRuns (b : Blk) : Bool := activeState b || b.dev.state == .config

/-- GUARD_OUTPUT: the 128-byte payload of the boundary (R395), none when the lockstep comparison failed in the beat. The
capture time is free while no point lies in the window (log 47). -/
def guardOutput (w : Work) : Option (List Byte) × Work :=
  if guardRuns w.toBlk = false then (none, w)
  else
    let w := guardCamStep (guardPointsStep w)
    let bins := (List.zip w.guard.now w.guard.last).map (fun p => min p.1 p.2)
    let none_ := w.guard.nowTime.isNone && w.guard.lastTime.isNone
    let (k, w) := takeFree w
    let time := if none_ then Config.freeValue k % 2 ^ 64 else max (w.guard.nowTime.getD 0) (w.guard.lastTime.getD 0)
    let near := ((List.range 12).map (fun i => nth 20000 bins (10 + i))).foldl min 20000
    let ttc := match w.guard.minima[24999]? with
      | some was => if near + 3 ≤ was then min (near * 50 / (was - near)) 0xFFFE else 0xFFFF
      | none => 0xFFFF
    let cams := w.guard.status % 65536
    let body := leBytes 1 1 ++ leBytes 1 (b2n none_ + 2 * b2n (w.guard.status != 0)) ++ leBytes 2 cams ++ leBytes 2 ttc ++
      leBytes 2 0 ++ leBytes 8 time ++ bins.flatMap (leBytes 2) ++ leBytes 48 0
    let o : GuardOut := { beat := w.time.beat, time := time, bins := bins }
    let w := { w with guard.minima := (near :: w.guard.minima).take 25000, guard.outs := (o :: w.guard.outs).take 2200000 }
    (if w.guard.mismatch then none else some body, w)

/-- GUARD_PATH_MISMATCH: a lockstep mismatch of program 0 (corridor) or 1 (camera) in the present beat (R392). -/
def guardMismatch (prog : Nat) (w : Work) : Work :=
  if guardRuns w.toBlk = false then w
  else
    let w := raise 0x080 prog (w.time.beat % 2 ^ 32) (odAdd 0x2320 0xA 1 w)
    let clean := w.res.guardClean
    let w := { w with guard.mismatch := true }
    forAll (List.range 64) (fun s w =>
      if odGet w.toBlk (0x6000 + s) 4 = 0 ∧ odGet w.toBlk (0x6000 + s) 3 = 0 then
        match (outOf w.toBlk s).unsettled.find? (fun u => decide (clean ≤ u.beat)) with
        | some u => retractFrom s u.seq w
        | none => w
      else w) w

/-! ## Plausibility (R396) -/

/-- The margin of a guard distance. -/
def plausMargin (b : Blk) (g : Nat) : Nat := odGet b 0x2330 4 + g * odGet b 0x2330 5 / 1000

/-- CONSEC disagreements in a row: the fault, and the retraction from the earliest that is unconfirmed. -/
def plausFault (s sq : Nat) (w : Work) : Work :=
  let first := w.guard.badSeq
  let w := { raise 0x074 s sq w with guard.bad := 0 }
  match (outOf w.toBlk s).unsettled.find? (fun u => seqLe first u.seq) with
  | some u => retractFrom s u.seq w
  | none => w

/-- PLAUSIBILITY_COMPARE: pair 0 compares the oldest result that waits. -/
def plausCompare (w : Work) : Work :=
  match w.guard.compare with
  | [] => w
  | (_, sq, latest, bins) :: rest =>
    let w := { w with guard.compare := rest }
    let s := odGet w.toBlk 0x2330 2
    let win := odGet w.toBlk 0x2330 8
    let fit := w.guard.outs.filter (fun o => decide (o.time ≤ latest) && decide (latest ≤ o.time + win))
    if pairRuns w.toBlk 0 = false then w
    else match fit with
    | [] => odAdd 0x2330 0xB 1 w
    | o :: os =>
      if bins = [] then odAdd 0x2330 0xB 1 w
      else
        let g := os.foldl (fun m x => if m.time < x.time then x else m) o
        let b := w.toBlk
        let ps := (List.zip bins g.bins).filter (fun p => p.2 != 20000)
        let bad := (ps.filter (fun p => decide (p.2 + plausMargin b p.2 < p.1))).length
        let low := (ps.filter (fun p => decide (p.1 + plausMargin b p.2 < p.2))).length
        let w := odAdd 0x2330 0xC low (odAdd 0x2330 9 1 w)
        let w := { w with cores.compareDue := false }
        if odGet b 0x2330 6 ≤ bad then
          let w := odAdd 0x2330 0xA 1 w
          let w := { w with guard.badSeq := if w.guard.bad = 0 then sq else w.guard.badSeq, guard.bad := w.guard.bad + 1 }
          if odGet b 0x2330 7 ≤ w.guard.bad then plausFault s sq w else w
        else { w with guard.bad := 0 }

/-! ## The diagnostic cycle (R379, R390, R391) -/

/-- TEST_STEP: a step on an idle quad that ends, 64 cycles later, before the next release on it (R391). -/
def testStep (q item t : Nat) (ok : Bool) (w : Work) : Work :=
  let at_ := moment t w
  let w := atTime t w
  let len := 64000 / max 1 (clockOf w.toBlk q)
  let room := match nextRelease w.toBlk q with
    | some (r, _) => decide (at_ + len ≤ 2000 * r)
    | none => true
  if guardRuns w.toBlk = false ∨ resetting w.toBlk = true ∨ quadGet w.toBlk q 0xA0 ≠ 0 ∨ (quadRun w.toBlk q).gated = true ∨
      quadBusy w.toBlk q = true ∨ stealing w.toBlk q = true ∨ room = false then w
  else if ok then modQuad q (fun r => { r with tested := testMark item r.tested }) w
  else
    let x := testSource q item
    makeSuspect q (raise 0x014 x.2 x.1 w)

/-- DIAGNOSTIC_CYCLE_END: `failed` holds the hub's own checkers that gave a wrong answer in the cycle (unit, guarded
source), `missed` the sources of those that were not exercised. A quad's checkers are looked up in its own list. A checker
that was not exercised, or not passed, is named by "diagnostic starved" (R379). -/
def cycleEnd (failed : List (Nat × Nat)) (missed : List Nat) (w : Work) : Work :=
  let cyc := w.time.beat / 8192
  if cyc ≤ w.safe.cycles then w
  else
    let w := { w with safe.cycles := cyc }
    if guardRuns w.toBlk = false ∨ w.safe.checkedAt.isNone = true then
      let w := odPut 0x2300 3 0 w
      { w with quads := tabMap QuadRun.idle (fun _ r => { r with tested := [] }) w.quads }
    else
      let lacks := (List.range (quadCount w.fuses)).flatMap (fun q => (untested w.toBlk q).map (fun i => (testSource q i).1))
      let w := forAll failed (fun f w =>
        let w := raise 0x014 f.1 f.2 w
        doIf (f.2 == 0x041) (makeSuspect (chanQuad f.1)) w) w
      let starved := (lacks ++ missed ++ failed.map (·.2)).eraseDups
      let w := forAll starved (fun s w => raise 0x015 0 s w) w
      let w := odPut 0x2300 3 (b2n starved.isEmpty) (doIf (!starved.isEmpty) (odAdd 0x2300 4 1) w)
      { w with quads := tabMap QuadRun.idle (fun _ r => { r with tested := [] }) w.quads }

/-! ## Start-up checks (R389) -/

/-- Take a quad out of service: 15 R399, and the temporal slots on its channels (08 R207). -/
def loseQuad (q cause : Nat) (w : Work) : Work :=
  if quadRemoved w.toBlk q then w else tmQuadRemoved q (removeQuad q cause w)

/-- STARTUP_CHECKS: `fails` lists what failed, in order: order number, unit, and whether the unit is a quad's. -/
def startupChecks (fails : List (Nat × Nat × Bool)) (w : Work) : Work :=
  if odGet w.toBlk 0x2300 5 ≠ 1 ∨ w.dev.state ≠ .config ∨ odGet w.toBlk 0x2510 1 ≠ 1 then w
  else
    let w := match fails with
      | [] => w
      | f :: _ => odPut 0x2300 6 (4096 * f.1 + f.2.1 % 4096) w
    let w := forAll (fails.filter (·.2.2)) (fun f w => loseQuad f.2.1 (if f.1 = 3 then 0x010 else 0x014) w) w
    if fails.any (fun f => !f.2.2) then odPut 0x2300 5 3 w
    else
      let w := odPut 0x2300 5 2 w
      let w := { w with dev.checksPassed := true, safe.checkedAt := some w.time.beat }
      forAll (List.range (quadCount w.fuses)) (fun q w => modQuad q (fun r => { r with tested := allItems }) w) w

/-! ## A suspect quad's remedy and retest (R398, R399) -/

/-- SUSPECT_REMEDY, once, at the boundary after the fault. -/
def suspectRemedy (q : Nat) (w : Work) : Work :=
  let used := quadGet w.toBlk q 0xA8
  if quadGet w.toBlk q 0xA0 ≠ 1 ∨ (quadRun w.toBlk q).remedy ≠ 1 ∨ resetting w.toBlk = true then w
  else if used.testBit 0 = false ∧ quadGet w.toBlk q 0x92 + 25 ≤ 825 then
    let w := quadPut q 0xA8 (Nat.lor used 1) w
    raiseVolt q (modQuad q (fun r => { r with raised := true, remedy := 3 }) w)
  else if used.testBit 1 = false ∧ 500 < clockOf w.toBlk q then
    let w := quadPut q 0xA8 (Nat.lor used 2) w
    askRecompute 2 (modQuad q (fun r => { r with remedy := 2 }) w)
  else loseQuad q 0x010 w

/-- A quad passes its retest, which started `beats` before the present boundary. -/
def quadRestored (q beats : Nat) (w : Work) : Work :=
  let w := quadPut q 0xA0 0 w
  let w := quadPut q 0xA1 (max (quadGet w.toBlk q 0xA1) (w.time.beat - beats)) w
  modQuad q (fun r => { r with remedy := 0, tested := allItems }) w

/-- RETEST: the core set, the rotating kernels and the checkers on a quad whose remedy has taken effect. -/
def retest (q beats : Nat) (pass : Bool) (w : Work) : Work :=
  let r := quadRun w.toBlk q
  if quadGet w.toBlk q 0xA0 ≠ 1 ∨ r.remedy ≠ 3 ∨ r.cap < clockOf w.toBlk q ∨ resetting w.toBlk = true ∨
      pairRuns w.toBlk 0 = false then w
  else if pass then quadRestored q beats w
  else loseQuad q 0x010 w

/-! ## The safety pins (R400) and EXT_WDG (R402) -/

/-- The failing conditions of R400, as the bits of SAFE_OK_STOP_CAUSE. -/
def safeCause (b : Blk) : Nat :=
  let p := nth PairRun.reset b.cores.pairs 0
  let conds : List Bool :=
    [b.dev.state == .run || b.dev.state == .squall,
     odGet b 0x2510 1 == 1 && p.start.isNone && decide (b.time.beat ≤ p.last + 250),
     decide (highestLatched b < 3),
     !(tabGet Input.idle b.pins.inputs 18).reported,
     odGet b 0x2300 3 == 1 || (match b.safe.checkedAt with
       | some t => decide ((b.time.beat / 8192 - 1) * 8192 ≤ t)
       | none => false),
     decide (250 ≤ b.safe.guardRun),
     b.safe.readback]
  (List.range 7).foldl (fun c i => c + (if nth true conds i then 0 else 2 ^ i)) 0

/-- SAFE_OK_TOGGLE at a boundary; `readback` says whether the monitor found both pins at their driven levels. -/
def safeOkStep (readback : Bool) (w : Work) : Work :=
  let w := { w with safe.readback := readback,
                    safe.guardRun := if guardRuns w.toBlk then w.safe.guardRun + 1 else 0 }
  let cause := safeCause w.toBlk
  let w := odPut 0x2300 8 cause w
  let now := w.time.beat
  if cause ≠ 0 then odPut 0x2300 7 0 { w with safe.high := false, safe.okFrom := none }
  else
    let from_ := w.safe.okFrom.getD now
    let w := { w with safe.okFrom := some from_ }
    if now % 250 ≠ 0 then w
    else if odGet w.toBlk 0x2300 7 = 1 then { w with safe.high := !w.safe.high }
    else if from_ + 250 ≤ now ∧ (w.cores.compareDue && odGet w.toBlk 0x2330 1 == 1) = false then
      odPut 0x2300 7 1 { w with safe.high := true }
    else w

/-- What a boundary does for the watchdog pulse. -/
def wdgStep (w : Work) : Work :=
  let on := guardRuns w.toBlk
  let joined := odGet w.toBlk 0x2510 1 == 1
  let until_ := match w.safe.wdgUntil with
    | some t => if on && decide (w.time.beat < t) then some t else none
    | none => none
  { w with safe.wdgJoined := w.safe.wdgJoined && joined, safe.wdgUntil := until_ }

/-- EXT_WDG_PULSE at a boundary that is a multiple of EXT_WDG_PERIOD_BEATS. -/
def extWdg (w : Work) : Work :=
  let now := w.time.beat
  if guardRuns w.toBlk = false ∨ now % max 1 (odGet w.toBlk 0x2300 9) ≠ 0 ∨ now ≤ w.safe.wdgFrom then w
  else
    let good := w.safe.wdgJoined && w.safe.wdgBeat && odGet w.toBlk 0x2510 1 == 1
    let w := { w with safe.wdgFrom := now, safe.wdgJoined := odGet w.toBlk 0x2510 1 == 1, safe.wdgBeat := false }
    if good then { w with safe.wdgUntil := some (now + 5) } else odAdd 0x2300 0xA 1 w

end Sys2Proof.Machine
end

