-- ==== Sys2Proof/Machine/Records.lean ====
section
/-! DEFINITION. How records come to be (09): camera packets, Ethernet frames and their datagrams, JPEG XS slices and their
decoders, replayed records, and the decoded-sample cache. -/

namespace Sys2Proof.Machine

/-! ## Camera packets (R218, R219). The packings of pixels into bytes are those of CSI-2: PRESUMED (log 34) -/

/-- Bits per pixel of a data type, 0 for one that is not supported. -/
def csiBits (dt : Nat) : Nat :=
  match dt with
  | 0x2A => 8
  | 0x2B => 10
  | 0x2C => 12
  | 0x2D => 14
  | 0x2E => 16
  | 0x1E => 16
  | 0x24 => 24
  | _ => 0

def byteAt (m : List Byte) (i : Nat) : Nat := ((m[i]?).map (·.toNat)).getD 0

/-- Sample x of a RAW row: the groups of RAW10, RAW12 and RAW14 hold the high bytes first and the low bits after them. -/
def rawSample (dt : Nat) (m : List Byte) (x : Nat) : Nat :=
  match dt with
  | 0x2A => byteAt m x * 256
  | 0x2B => (byteAt m (x / 4 * 5 + x % 4) * 4 + byteAt m (x / 4 * 5 + 4) / 4 ^ (x % 4) % 4) * 64
  | 0x2C => (byteAt m (x / 2 * 3 + x % 2) * 16 + byteAt m (x / 2 * 3 + 2) / 16 ^ (x % 2) % 16) * 16
  | 0x2D =>
    let low := leAt m (x / 4 * 7 + 4) 3
    (byteAt m (x / 4 * 7 + x % 4) * 64 + low / 64 ^ (x % 4) % 64) * 4
  | _ => byteAt m (2 * x) * 256 + byteAt m (2 * x + 1)

/-- A camera row's channels as they enter pre-processing (R228): RAW values scaled to 16 bits, YUV422 with its chroma
repeated, RGB888 in the order blue, green, red. The 8-bit channels enter as v × 2⁸. -/
def csiRow (dt width : Nat) (m : List Byte) : PRow :=
  let plane := fun (f : Nat → Nat) => (List.range width).map (fun x => f x * 256)
  match dt with
  | 0x1E => [plane (fun x => byteAt m (2 * x + 1)), plane (fun x => byteAt m (x / 2 * 4)), plane (fun x => byteAt m (x / 2 * 4 + 2))]
  | 0x24 => [plane (fun x => byteAt m (3 * x + 2)), plane (fun x => byteAt m (3 * x + 1)), plane (fun x => byteAt m (3 * x))]
  | _ => [(List.range width).map (rawSample dt m)]

/-- A receiver takes packets: the stream is enabled on its pins. -/
def cameraOn (b : Blk) (n : Nat) : Bool := inCamera n && inRuns b && inEnabled b n && !inReplay b n

/-- A place in a frame for a record that arrives at t, by its number where it carries one, a BLOCK_FIELD value or a slice
index, otherwise by arrival (R214); none where it is discarded. -/
def placeAt (n t : Nat) (number : Option Nat) (w : Work) : Option (SFrame × Nat) × Work :=
  match number with
  | some v =>
    let w := newFrame n t (v == 0) w
    match (inOf w.toBlk n).frames.getLast? with
    | none => (none, w)
    | some f => let r := placeCheck n t f v w; (if r.1 then some (f, v) else none, r.2)
  | none =>
    let w := newFrame n t false w
    match frameFor w.toBlk n t with
    | none => (none, w)
    | some f =>
      let p := assign n t f w
      let r := placeCheck n t f p.1 (modIn n (fun s => { s with fs := false }) p.2)
      (if r.1 then some (f, p.1) else none, r.2)

/-- A record refused beyond its declaration, or that goes on (R237: refused before any later check). -/
def admitRecord (n idx pos bytes : Nat) (f : Work → Work) (w : Work) : Work :=
  let r := admitBytes n bytes w
  if r.1 then f r.2 else decide_ n idx pos (.lost 9 0xFFFFFF) r.2

/-- The checks of a record on its way (R212, R237): an uncorrectable word in a store of the pipeline, reported with its
address (07 R179), and a CRC_32C that does not hold conceal the record, its whole position, with reason 0x04 (DEDUCED, log
149). -/
def pipeCheck (n idx pos : Nat) (ue : Option Nat) (mismatch : Bool) (f : Work → Work) (w : Work) : Work :=
  match ue with
  | some a => decide_ n idx pos (.lost 4 0xFFFFFF) (raise 0x030 0x400 a w)
  | none => if mismatch then decide_ n idx pos (.lost 4 0xFFFFFF) w else f w

/-- A camera row as its record holds it. -/
def rowRec (b : Blk) (n dt time flags : Nat) (body : List Byte) : Rec :=
  { time, flags, rawCount := 0, body, count := 0, data := [], rows := [csiRow dt (imgW b n) body], pts := [], cached := none }

/-- CSI2_LONG_PACKET: channel, type, payload, the time of its last byte; whether the header's ECC corrected a bit or
failed, whether the payload's CRC-16 held, and what the pipeline finds of the row (R212, R237). -/
def longPacket (n vc dt t : Nat) (fixed bad crcOk : Bool) (met : PipeMet) (payload : List Byte) (w : Work) : Work :=
  let at_ := moment t w
  let w := atTime t w
  if cameraOn w.toBlk n = false then w
  else
    let w := doIf fixed (inAdd n 0x45 1) w
    if bad = false ∧ (vc ≠ inGet w.toBlk n 7 ∨ dt ≠ inGet w.toBlk n 8) then w
    else
      match placeAt n at_ none w with
      | (none, w) => doIf (bad || !crcOk) (inAdd n 0x44 1) w
      | (some (f, pos), w) =>
        if bad ∨ crcOk = false then decide_ n f.idx pos (.lost 1 0xFFFFFF) (inAdd n 0x44 1 w)
        else if payload.length * 8 ≠ imgW w.toBlk n * csiBits dt then decide_ n f.idx pos (.lost 2 0xFFFFFF) (inAdd n 0x44 1 w)
        else admitRecord n f.idx pos payload.length (pipeCheck n f.idx pos met.ue (met.crc || met.writer) (fun w =>
          decide_ n f.idx pos (.good (rowRec w.toBlk n dt (rowTime w.toBlk n f pos) 0 payload)) w)) w

/-- A short packet's header (R218): a corrected bit is counted, whatever the packet's channel (DEDUCED, log 149), and one that
fails drops the packet. -/
def shortPacket (n : Nat) (h : ShortHead) (f : Work → Work) (w : Work) : Work :=
  if cameraOn w.toBlk n = false then w
  else
    let w := doIf h.fixed (inAdd n 0x45 1) w
    if h.bad = false ∧ h.vc = inGet w.toBlk n 7 then f w else w

def frameStart (n : Nat) (h : ShortHead) (t : Nat) (w : Work) : Work :=
  shortPacket n h (modIn n (fun s => { s with fs := true })) (atTime t w)

/-- Frame End closes nothing (R219). -/
def frameEndPacket (n : Nat) (h : ShortHead) (t : Nat) (w : Work) : Work := shortPacket n h id (atTime t w)

/-- Line Start and Line End are accepted and ignored (R218). -/
def linePacket (n : Nat) (h : ShortHead) (w : Work) : Work := shortPacket n h id w

/-! ## Records after ingest admission -/

/-- A point block or signal record through the parser, or from the cache (R236). -/
def parseRecord (n idx pos time flags : Nat) (met : PipeMet) (body : List Byte) (w : Work) : Work :=
  pipeCheck n idx pos met.ue met.crc (fun w =>
    let flags := flags + coordFlags w.toBlk n
    let hit := cacheFind n time pos (crc32c body) w
    let (open_, w) := takeFrees (parseFrees w.toBlk n) w
    let parsed := parseDatagram w.toBlk n body open_
    let pts := match parsed with | .good _ _ pts => pts | .bad _ => []
    let good : Rec := { time, flags, rawCount := 0, body, count := 0, data := [], rows := [], pts, cached := none }
    match hit, parsed with
    | some e, _ =>
      decide_ n idx pos (.good { good with count := leAt (rd w e.at_ 32) 18 2, data := cachePayload w e }) (inAdd n 0x47 1 w)
    | none, .bad off => decide_ n idx pos (.lost 5 off) w
    | none, .good count data _ =>
      pipeCheck n idx pos none met.writer (decide_ n idx pos (.good { good with count, data })) w) w

/-- A slice waits for its decoder, unless the cache holds it. -/
def queueSlice (n idx pos time flags : Nat) (body : List Byte) (w : Work) : Work :=
  let r : Rec := { time, flags, rawCount := 0, body, count := 0, data := [], rows := [], pts := [], cached := none }
  match cacheFind n time pos (crc32c body) w with
  | some e => decide_ n idx pos (.good { r with rows := e.rows, cached := some (cachePayload w e) }) (inAdd n 0x47 1 w)
  | none =>
    modFrame n idx (fun f => { f with busy := pos :: f.busy })
      (modIn n (fun s => { s with queue := s.queue ++ [{ idx, pos, rec_ := r, start := 0, depth := 0, tall := 0 }] }) w)

/-! ## The JPEG XS decoders (R226, R227) -/

/-- The bit depths of an entry of JXS_PROFILE (R226). -/
def jxsDepths (profile : Nat) : List Nat :=
  match profile with
  | 1 => [8, 10]
  | 2 => [8, 10, 12]
  | 3 => [8, 10, 12]
  | 4 => [8, 10, 12]
  | 5 => [8, 10, 12]
  | _ => []

/-- A codestream's header lies within the subset that the stream's JXS_PROFILE and JXS_SIZE select (R226). -/
def jxsInside (b : Blk) (n : Nat) (h : JxsHead) : Bool :=
  !h.other && h.profile == inGet b n 0xF && (jxsDepths h.profile).contains h.depth && h.width == imgW b n &&
  h.height == imgH b n && decide (h.width ≤ 4096) && decide (h.height ≤ 2304) && [8, 16, 32].contains h.tall

/-- The frame's codestream lies outside the subset: reported once per frame (R226). -/
def jxsOutside (n idx : Nat) (w : Work) : Work :=
  match frameOf w.toBlk n idx with
  | some f => doIf (!f.outside) (raise 0x062 n f.ctr) (modFrame n idx (fun f => { f with outside := true }) w)
  | none => w

/-- The frame's codestream has been found outside the subset: every record of it is discarded. -/
def isOutside (b : Blk) (n idx : Nat) : Bool := ((frameOf b n idx).map (·.outside)).getD false

/-- JXS_DECODE_START: the stream's next slice, with the codestream's header as the decoder reads it. -/
def decodeStart (n t : Nat) (h : JxsHead) (w : Work) : Work :=
  let at_ := moment t w
  let w := atTime t w
  let s := inOf w.toBlk n
  match s.queue, s.run with
  | j :: rest, none =>
    if inRuns w.toBlk = false then w
    else pipeCheck n j.idx j.pos h.met.ue h.met.crc (fun w =>
      if isOutside w.toBlk n j.idx = true ∨ jxsInside w.toBlk n h = false then
        decide_ n j.idx j.pos (.lost 7 0xFFFFFF) (jxsOutside n j.idx w)
      else modIn n (fun s => { s with run := some { j with start := at_, depth := h.depth, tall := h.tall } }) w)
      (modIn n (fun s => { s with queue := rest }) w)
  | _, _ => w

/-- What a decode of this slice can bring: rows of the slice's number and the image's width, of one channel or three, at the
depth of its header. -/
def rowsFit (b : Blk) (n : Nat) (j : JxsJob) (depth : Nat) (rows : List PRow) : Bool :=
  depth == j.depth && rows.length == min j.tall (imgH b n - j.pos * j.tall) &&
  rows.all (fun r => r.length == (if inOneChannel b n then 1 else 3) &&
    r.all (fun p => p.length == imgW b n && p.all (fun v => decide (v < 2 ^ depth))))

/-- A decode is abandoned at a payload byte (R227). -/
def abandonDecode (n : Nat) (j : JxsJob) (off : Nat) (w : Work) : Work :=
  decide_ n j.idx j.pos (.lost 6 off) (inAdd n 0x46 1 (modIn n (fun s => { s with run := none }) w))

/-- JXS_DECODE_COMPLETE: the decoded samples of depth `depth` enter scaled to 16 bits (R226). A decode that completes after
its budget has been abandoned there, at a byte that the row does not tell. -/
def decodeComplete (n t depth : Nat) (met : PipeMet) (rows : List PRow) (w : Work) : Work :=
  let at_ := moment t w
  let w := atTime t w
  match (inOf w.toBlk n).run with
  | none => w
  | some j =>
    if rowsFit w.toBlk n j depth rows = false then w
    else if j.start + inGet w.toBlk n 0x16 < at_ then
      let (k, w) := takeFree w
      abandonDecode n j (Config.freeValue k % 2 ^ 24) w
    else
      let scaled := rows.map (fun r => r.map (fun p => p.map (fun v => v * 2 ^ (16 - depth))))
      pipeCheck n j.idx j.pos met.ue (met.crc || met.writer) (decide_ n j.idx j.pos (.good { j.rec_ with rows := scaled }))
        (modIn n (fun s => { s with run := none }) w)

/-- JXS_DECODE_BUDGET_EXPIRED: abandoned at a payload byte (R227). -/
def decodeExpired (n t off : Nat) (w : Work) : Work :=
  let at_ := moment t w
  let w := atTime t w
  match (inOf w.toBlk n).run with
  | none => w
  | some j => if at_ < j.start + inGet w.toBlk n 0x16 then w else abandonDecode n j off w

/-- A record of an Ethernet stream at its position, from ingest admission on. -/
def etherRecord (n idx pos time flags : Nat) (met : PipeMet) (body : List Byte) (w : Work) : Work :=
  admitRecord n idx pos body.length (fun w =>
    if inType w.toBlk n = 3 then queueSlice n idx pos time flags body w
    else parseRecord n idx pos time flags met body w) w

/-! ## Ethernet frames (R220, R221) -/

/-- A number in network order. -/
def beAt (m : List Byte) (off k : Nat) : Nat := leNat ((m.drop off).take k).reverse

/-- The EtherType's place after the 802.1Q tags, and the outer tag's VLAN. -/
def vlanOf (m : List Byte) : Nat × Option Nat :=
  if beAt m 12 2 = 0x8100 then (if beAt m 16 2 = 0x8100 then (20, some (beAt m 14 2 % 4096)) else (16, some (beAt m 14 2 % 4096)))
  else (12, none)

/-- The upper-layer protocol of an IPv6 packet and its place, past the extension headers: hop-by-hop options, routing,
destination options, authentication, and a fragment header of a packet that is whole. -/
def ipv6Upper (p : List Byte) : Nat → Nat → Nat → Option (Nat × Nat)
  | 0, _, _ => none
  | fuel + 1, proto, at_ =>
    if proto = 0 ∨ proto = 43 ∨ proto = 60 then ipv6Upper p fuel (byteAt p at_) (at_ + 8 * (byteAt p (at_ + 1) + 1))
    else if proto = 51 then ipv6Upper p fuel (byteAt p at_) (at_ + 4 * (byteAt p (at_ + 1) + 2))
    else if proto = 44 then
      (if beAt p (at_ + 2) 2 / 8 = 0 ∧ byteAt p (at_ + 3) % 2 = 0 then ipv6Upper p fuel (byteAt p at_) (at_ + 8) else none)
    else some (proto, at_)

/-- An unfragmented UDP datagram: addresses of 16 bytes, destination port, whether its checksum is right where it has one,
and its payload. -/
structure Datagram where
  src : List Byte
  dst : List Byte
  port : Nat
  good : Bool
  body : List Byte
  deriving DecidableEq, Repr

/-- An IPv4 address as IPv4-mapped IPv6. -/
def mapped (a : List Byte) : List Byte := List.replicate 10 0 ++ [0xFF, 0xFF] ++ a

/-- The 16-bit words of some bytes, added up. -/
def sum16 (bs : List Byte) : Nat :=
  (List.range ((bs.length + 1) / 2)).foldl (fun s i => s + byteAt bs (2 * i) * 256 + byteAt bs (2 * i + 1)) 0

/-- The end-around carry of the Internet checksum. -/
def foldSum (s : Nat) : Nat := (List.range 4).foldl (fun s _ => s % 65536 + s / 65536) s

/-- UDP over a pseudo header's addresses. -/
def udpBody (pseudo u src dst : List Byte) : Option Datagram :=
  let len := beAt u 4 2
  if len < 8 ∨ u.length < len then none
  else
    let u := u.take len
    some { src, dst, port := beAt u 2 2, good := beAt u 6 2 == 0 || foldSum (sum16 pseudo + len + 17 + sum16 u) == 0xFFFF,
           body := u.drop 8 }

def udpOf (m : List Byte) : Option Datagram :=
  let at_ := (vlanOf m).1
  let p := m.drop (at_ + 2)
  if beAt m at_ 2 = 0x0800 then
    let h := byteAt p 0 % 16 * 4
    if byteAt p 0 / 16 ≠ 4 ∨ byteAt p 9 ≠ 17 ∨ beAt p 6 2 % 0x4000 ≠ 0 ∨ h < 20 then none
    else udpBody ((p.drop 12).take 8) (p.drop h) (mapped ((p.drop 12).take 4)) (mapped ((p.drop 16).take 4))
  else if beAt m at_ 2 = 0x86DD ∧ byteAt p 0 / 16 = 6 then
    match ipv6Upper p 16 (byteAt p 6) 40 with
    | some (17, o) => udpBody ((p.drop 8).take 32) (p.drop o) ((p.drop 8).take 16) ((p.drop 24).take 16)
    | _ => none
  else none

/-- The stream that a datagram belongs to. -/
def matchStream (b : Blk) (p : Nat) (m : List Byte) (src : List Byte) (port : Nat) : Option Nat :=
  (List.range 16).map (16 + ·) |>.find? (fun n =>
    inEnabled b n && !inReplay b n && inGet b n 5 == p && inGet b n 9 == port &&
    (inGet b n 6 == 0 || inGet b n 6 % 2 ^ 48 == beAt m 0 6) &&
    (inGet b n 7 == none16 || (vlanOf m).2 == some (inGet b n 7)) &&
    (inGet b n 8 == 0 || leBytes 16 (inGet b n 8) == src))

/-- An ARP request or a neighbour solicitation for the port's own address, which the host service answers (12 R317). -/
def asksAddress (b : Blk) (p : Nat) (m : List Byte) : Bool :=
  let ip := leBytes 16 (odGet b (0x2820 + p) 3)
  let at_ := (vlanOf m).1
  let a := m.drop (at_ + 2)
  ethAnswers b p &&
  ((beAt m at_ 2 == 0x0806 && beAt a 6 2 == 1 && mapped ((a.drop 24).take 4) == ip) ||
   (beAt m at_ 2 == 0x86DD && (match ipv6Upper a 16 (byteAt a 6) 40 with
     | some (58, o) => byteAt a o == 135 && (a.drop (o + 8)).take 16 == ip
     | _ => false)))

/-- Frames that go elsewhere and have rows of their own: PTP, what asks for the port's address, and datagrams to UDP_PORT at
that address where Crino is served. -/
def otherRow (b : Blk) (p : Nat) (m : List Byte) : Bool :=
  beAt m (vlanOf m).1 2 == 0x88F7 || asksAddress b p m ||
  (linkServes b 1 p && (match udpOf m with
    | some d => d.port == odGet b 0x2801 2 && d.dst == leBytes 16 (odGet b (0x2820 + p) 3)
    | none => false))

/-- CAPTURE_TIME, FLAGS and TIME_REJECTED of a datagram whose frame's start is stamped t0 (R221, 11 R278): the layout's field
through the inverse map, unless no map is in force or the time lies outside the window before the stamp. -/
def datagramTime (n t0 : Nat) (body : List Byte) (w : Work) : (Nat × Nat) × Work :=
  match fieldTime w.toBlk n body with
  | some x =>
    let t := mapDev w.time x
    if 2 ≤ w.time.sync ∧ t ≤ (t0 : Int) ∧ (t0 : Int) ≤ t + odGet w.toBlk 0x2100 0xA then ((twos 64 t, 0), w)
    else ((t0, 2), odAdd 0x2100 0xB 1 w)
  | none => ((t0, 2), w)

/-- A point block or signal record of n, its frame's start stamped t0, its last byte at t. -/
def datagram (n t0 t : Nat) (met : PipeMet) (body : List Byte) (w : Work) : Work :=
  match blockOf w.toBlk n body with
  | some none => w
  | number =>
    match placeAt n t (number.bind id) w with
    | (none, w) => w
    | (some (f, pos), w) =>
      let x := datagramTime n t0 body w
      etherRecord n f.idx pos x.1.1 x.1.2 met body x.2

/-! ## RTP and JPEG XS slices (R226). The RTP header and RFC 9134's payload header: PRESUMED (log 36) -/

/-- Place a slice whose last packet has come: whole, or to be discarded, because packets of it are missing (reason 0x03) or
because its content is not supported (reason 0x07). -/
def sliceArrives (n t v : Nat) (reason : Option Nat) (body : List Byte) (w : Work) : Work :=
  match placeAt n t (some v) w with
  | (none, w) => w
  | (some (f, pos), w) =>
    match reason with
    | some 7 => decide_ n f.idx pos (.lost 7 0xFFFFFF) (jxsOutside n f.idx w)
    | some r => decide_ n f.idx pos (.lost r 0xFFFFFF) (inAdd n 0x44 1 w)
    | none =>
      let (k, w) := takeFree w
      etherRecord n f.idx pos (Config.freeValue k % 2 ^ 64) 0 { ue := none, crc := false, writer := false } body w

/-- A frame in the codestream packetisation mode, which is not supported: every record of it is discarded (R226). -/
def wholeArrives (n t : Nat) (w : Work) : Work :=
  let w := newFrame n t true w
  match (inOf w.toBlk n).frames.getLast? with
  | none => w
  | some f =>
    let open_ := (List.range (inRecords w.toBlk n)).filter (fun r => decide (f.closed ≤ r) && (tabGet none f.ready r).isNone)
    forAll open_ (fun r => decide_ n f.idx r (.lost 7 0xFFFFFF)) (jxsOutside n f.idx w)

/-- One RTP packet: its sequence number, the payload header's K and L flags, interlace bits, slice (SEP) and packet (P) counters. A gap discards
the slice in assembly, and the slice whose first packets are missing. -/
def rtpPacket (n t : Nat) (m : List Byte) (w : Work) : Work :=
  let h := 12 + 4 * (byteAt m 0 % 16)
  let h := if bit (byteAt m 0) 4 then h + 4 + 4 * beAt m (h + 2) 2 else h
  let sq := beAt m 2 2
  let ph := beAt m h 4
  let whole := !bit ph 30
  let last := bit ph 29
  let reason := if fld ph 28 27 = 0 then none else some 7
  let sep := fld ph 21 11
  let pc := fld ph 10 0
  let data := m.drop (h + 4)
  let s := inOf w.toBlk n
  let gap : Bool := match s.seq with | some q => sq != (q + 1) % 65536 | none => false
  if m.length < h + 4 then w else
  let w := modIn n (fun s => { s with seq := some sq }) w
  let w := match s.asm with
    | some (v, _) => if gap || v != sep then sliceArrives n t v (some 3) [] (modIn n (fun s => { s with asm := none }) w) else w
    | none => w
  let have_ := (inOf w.toBlk n).asm
  if whole then doIf last (wholeArrives n t) w
  else if sep = 0x7FF then w
  else if have_.isNone ∧ pc ≠ 0 then (if last then sliceArrives n t sep (some 3) [] w else w)
  else
    let bytes := ((have_.map (·.2)).getD []) ++ data
    if last then sliceArrives n t sep reason bytes (modIn n (fun s => { s with asm := none }) w)
    else modIn n (fun s => { s with asm := some (sep, bytes) }) w

/-- ETHERNET_FRAME_RECEIVED: port, bytes without the FCS, whether the FCS held and what the pipeline finds of the record, the
stamps of its start and last byte. -/
def etherFrame (p t0 t : Nat) (x : FrameMet) (m : List Byte) (w : Work) : Work :=
  let at_ := moment t w
  let w := atTime t w
  if inRuns w.toBlk = false ∨ odGet w.toBlk (0x2820 + p) 0xB ≠ 1 then w
  else if x.fcs = false then odAdd (0x2820 + p) 0xE 1 w
  else if otherRow w.toBlk p m then w
  else match udpOf m with
    | none => odAdd (0x2820 + p) 0xC 1 w
    | some d =>
      match matchStream w.toBlk p m d.src d.port with
      | none => odAdd (0x2820 + p) 0xC 1 w
      | some n =>
        if d.good = false then inAdd n 0x44 1 w
        else if inType w.toBlk n = 3 then rtpPacket n at_ d.body w
        else datagram n t0 at_ x.met d.body w

/-! ## Replay (R235, 10 R268) -/

/-- The row or slice of a recorded payload enters as it would have at the record former. -/
def replayContent (n idx pos time flags : Nat) (met : PipeMet) (body : List Byte) (w : Work) : Work :=
  admitRecord n idx pos body.length (fun w =>
    if inType w.toBlk n = 1 then
      if body.length * 8 ≠ imgW w.toBlk n * csiBits (inGet w.toBlk n 8) then decide_ n idx pos (.lost 2 0xFFFFFF) (inAdd n 0x44 1 w)
      else pipeCheck n idx pos met.ue (met.crc || met.writer) (fun w =>
        let r := rowRec w.toBlk n (inGet w.toBlk n 8) time flags body
        match cacheFind n time pos (crc32c body) w with
        | some e => decide_ n idx pos (.good { r with cached := some (cachePayload w e) }) (inAdd n 0x47 1 w)
        | none => decide_ n idx pos (.good r) w) w
    else if inType w.toBlk n = 3 then queueSlice n idx pos time flags body w
    else parseRecord n idx pos time flags met body w) w

/-- The frame and position of a recorded record in ADAPT: a later position or frame closes the open ones before it. -/
def replayPlace (n ctr num : Nat) (w : Work) : Option SFrame × Work :=
  let cur := (inOf w.toBlk n).frames.getLast?
  let w := match cur with
    | some f => if f.ctr = ctr then w else beginFrame n w.time.ns (some ctr) (goneFrame n f.idx w)
    | none => beginFrame n w.time.ns (some ctr) w
  match (inOf w.toBlk n).frames.getLast? with
  | none => (none, w)
  | some f =>
    if inRecords w.toBlk n ≤ num ∨ num < f.closed ∨ (tabGet none f.ready num).isSome ∨ f.busy.contains num then (none, w)
    else
      let early := (List.range num).filter (fun r => decide (f.closed ≤ r) && (tabGet none f.ready r).isNone && !f.busy.contains r)
      let w := modFrame n f.idx (fun g => { g with ready := early.foldl (fun t r => tabSet none t r (some (Fate.lost 8 0xFFFFFF))) g.ready }) w
      (some f, closeReady n w)

/-- The number by which a recorded record is placed in RUN (R214, R235): the field's value, or a slice's index. A record that
was recorded as concealed has no payload, and its RECORD_NUMBER is its number. -/
def replayNumber (b : Blk) (n num : Nat) (concealed_ : Bool) (body : List Byte) : Option (Option Nat) :=
  match inType b n with
  | 1 => none
  | 3 => some (some num)
  | _ => match blockOf b n body with
    | none => none
    | some x => if concealed_ then some (some num) else some x

/-- REPLAY_RECORD: header and payload as formed at the record former; a record that fails its checks is dropped, and one
whose CRC fails is concealed. -/
def replayMsg (x : Arrival) (m : List Byte) (w : Work) : Work :=
  let at_ := moment x.time w
  let w := atTime x.time w
  let h := m.take 32
  let body := m.drop 32
  let n := leAt h 2 1
  let fl := leAt h 16 2
  let b := w.toBlk
  if m.length < 32 ∨ leAt h 0 1 ≠ 1 ∨ 32 ≤ n ∨ leAt h 28 4 ≠ 0 ∨ fl / 4096 ≠ 0 ∨ bit fl 3 = true ∨ fld fl 7 6 ≠ 0 ∨
      inEnabled b n = false ∨ inReplay b n = false ∨ leAt h 1 1 ≠ inType b n ∨ inRuns b = false ∨ pairRuns b 4 = false then w
  else
    let num := leAt h 6 2
    let place := if inFree b n then
        let r := replayPlace n (leAt h 4 2) num w
        (r.1.map (fun f => (f, num)), r.2)
      else match replayNumber b n num (bit fl 0) body with
        | some none => (none, w)
        | number => placeAt n at_ (number.bind id) w
    match place with
    | (none, w) => w
    | (some (f, pos), w) =>
      let time := leAt h 8 8
      let flags := 4 + fl % 4 / 2 * 2
      if bit fl 0 then decide_ n f.idx pos (.recorded (fld fl 11 8) time flags) w
      else if leAt h 24 4 ≠ crc32c body ∨ leAt h 20 4 ≠ body.length then decide_ n f.idx pos (.lost 4 0xFFFFFF) w
      else replayContent n f.idx pos time flags x.met body w

def replayFrame (hd : Hdr) (t : Arrival) (payload : List Byte) (w : Work) : Work := crino 0x50 0x50 hd payload (replayMsg t) w

/-- REPLAY_FRAME_END (12 R321): the next command entry, of its type. -/
def cmdReplayEnd (w : Work) : Work :=
  cmdRow 3 (fun _ tag args w =>
    let n := leAt args 0 1
    if w.dev.state ≠ .adapt then complete tag 4 3 0 w.time.beat w
    else if leAt args 1 1 ≠ 0 ∨ 32 ≤ n then complete tag 1 3 0 w.time.beat w
    else
      let w := match (inOf w.toBlk n).frames.find? (fun f => f.ctr == leAt args 2 2) with
        | some f => goneFrame n f.idx w
        | none => w
      complete tag 0 3 0 w.time.beat w) w

/-- A silent host or the absence of pair 4 in ADAPT: at the next boundary the open positions of the replay streams close
(12 R322, 13 R334). -/
def replaySilent (w : Work) : Work :=
  if w.dev.state ≠ .adapt ∨ (w.links.silent = false ∧ pairRuns w.toBlk 4 = true) then { w with links.silent := false }
  else forAll ((List.range 32).filter (fun n => inEnabled w.toBlk n && inReplay w.toBlk n)) (fun n w =>
    forAll ((inOf w.toBlk n).frames.map (·.idx)) (goneFrame n) w) { w with links.silent := false }

/-! ## Commits (R213, R236) -/

/-- A commit that enables a stream starts its counters and frames afresh; one that disables it ends them. -/
def inEnableCommit (n : Nat) (w : Work) : Work :=
  inPut n 0x49 0 { w with ingest.streams := tabSet InStream.idle w.ingest.streams n InStream.idle }

/-- TRIGGER_EDGE: the output is driven, and its edge is a frame reference for the streams that name it (R213). -/
def triggerEdge (k : Nat) (w : Work) : Work :=
  let w' := trigDrive k w
  match (trigOf w.toBlk k).sched with
  | some d => if (trigOf w'.toBlk k).sched.isNone then triggerFrames k d w' else w'
  | none => w'

end Sys2Proof.Machine
end

