-- ==== Sys2Proof/Machine/Cores.lean ====
section
/-! DEFINITION. The control cores (13): firmware loads, verification and activation, the pairs' restarts, splits and
debugging, the plan of the Garnet slices, attestation; and the loss of a host session (12 R322). -/

namespace Sys2Proof.Machine

/-! ## The firmware image (R327 to R330) -/

def zeros (bs : List Byte) (a k : Nat) : Bool := ((bs.drop a).take k).all (· == 0)
/-- A field of the entry of a section: 0 OFFSET, 4 BYTES, 8 ENTRY, 12 SPLIT_ENTRY. -/
def secField (m : List Byte) (i off : Nat) : Nat := leAt m (64 + 96 * i + off) 4
def secDigest (m : List Byte) (i : Nat) : List Byte := (m.drop (64 + 96 * i + 32)).take 64
def secBytes (m : List Byte) (i : Nat) : List Byte := (m.drop (secField m i 0)).take (secField m i 4)
/-- FW_DIGEST. -/
def fwDigest (m : List Byte) : List Byte := sha3 (m.take (m.length - 7232))
def fwKey (m : List Byte) : List Byte := (m.drop (m.length - 7232)).take 2592
def fwSign (m : List Byte) : List Byte := (m.drop (m.length - 4640)).take 4627
def fwVersion (m : List Byte) : Nat := leAt m 24 16

/-- Section i is well placed (R327). -/
def secOk (m : List Byte) (i : Nat) : Bool :=
  let a := secField m i 0
  let k := secField m i 4
  decide (k ≤ 1048576) && a % 64 == 0 && decide (768 ≤ a) && decide (a + k ≤ m.length - 7232) &&
  (secField m i 12 == 0 || (decide (2 ≤ i) && decide (i ≤ 5))) && zeros m (64 + 96 * i + 16) 16 &&
  (List.range 7).all (fun j => j == i || decide (a + k ≤ secField m j 0) || decide (secField m j 0 + secField m j 4 ≤ a))

/-- Step 1 of R330. -/
def fwForm (m : List Byte) : Bool :=
  decide (8000 ≤ m.length) && leAt m 0 1 == 1 && zeros m 1 3 && leAt m 4 4 == m.length && m.length % 64 == 0 &&
  decide (m.length ≤ 4194304) && leAt m 16 1 == 7 && zeros m 17 7 && zeros m 40 24 && zeros m 736 32 &&
  zeros m (m.length - 13) 13 && (List.range 7).all (secOk m)

/-- The unrevoked key slot that the image's public key matches (R329). -/
def fwSlot (f : Fuses) (m : List Byte) : Option Nat :=
  (List.range 4).find? (fun i => nth 0 f.keySlots i == sha3Nat (fwKey m) && !f.revoked.testBit i)

/-- "HLR-FW1". -/
def fwContext : List Byte := [0x48, 0x4C, 0x52, 0x2D, 0x46, 0x57, 0x31]

/-- The steps of R330, stopping at the first failure: 0, or the code. -/
def fwCheck (b : Blk) (m : List Byte) : Nat :=
  let same := match b.cores.active with
    | some a => secDigest a.bytes 0 == secDigest m 0
    | none => true
  if fwForm m = false then 0x20
  else if (leAt m 8 4 ≠ 0xFFFFFFFF ∧ leAt m 8 4 ≠ odGet b 0x1018 2) ∨ odGet b 0x1018 3 < leAt m 12 4 then 0x21
  else if (fwSlot b.fuses m).isNone then 0x22
  else if Config.mldsaOk (fwKey m) (fwDigest m) fwContext (fwSign m) = false then 0x23
  else if (List.range 7).any (fun i => sha3 (secBytes m i) != secDigest m i) then 0x24
  else if activeState b = true ∧ same = false then 0x25
  else if odGet b 0x2500 1 = 3 ∨ odGet b 0x2500 1 = 4 then 0x26
  else 0

/-! ## Loads (12 R318, R331, R341) -/

/-- A firmware load as a whole message: it waits for the crypto unit. -/
def firmwareMsg (link tag : Nat) (m : List Byte) (w : Work) : Work :=
  let there := w.dev.state == .boot || w.dev.state == .config || activeState w.toBlk
  if m.length < 16 then answer link tag 0x21 3 [] w
  else if leAt m 0 1 ≠ 1 ∨ leAt m 2 6 ≠ 0 ∨ leAt m 8 8 ≠ 0 then answer link tag 0x21 1 [] w
  else if there = false then answer link tag 0x21 4 [] w
  else { w with cores.crypto := w.cores.crypto ++ [.verify link tag m] }

/-- A LOAD by its kind. -/
def loadMsg (link tag : Nat) (m : List Byte) (w : Work) : Work :=
  match leAt m 1 1 with
  | 1 => firmwareMsg link tag m w
  | 2 => programMsg link tag m w
  | 3 => weightMsg link tag m w
  | _ => answer link tag 0x21 (if m.length < 16 then 3 else 1) [] w

/-! ## Pairs (R331 to R334, 16 R418) -/

def pairOf (b : Blk) (k : Nat) : PairRun := nth PairRun.reset b.cores.pairs k
def modPair (k : Nat) (f : PairRun → PairRun) (w : Work) : Work :=
  { w with cores.pairs := setNth w.cores.pairs k (f (pairOf w.toBlk k)) }
def pairPut (k sub v : Nat) (w : Work) : Work := odPut (0x2510 + k) sub v w
def pairState (b : Blk) (k : Nat) : Nat := odGet b (0x2510 + k) 1

/-- What the absence of a pair brings with it at once (R334). -/
def pairAbsent (k : Nat) (w : Work) : Work :=
  match k with
  | 0 => { w with cores.compareDue := true }
  | 1 => { w with pow.hint := none }
  | 3 =>
    let open_ := w.links.usb.up || w.links.udp.up
    let w := forAll [0, 1] (fun l w => closeSession l (dropStage l true w)) w
    let w := forAll [2, 3] (fun l w => doIf (stageOf w.toBlk l).commitAt.isSome (dropStage l true) w) w
    ringsStop { w with links.silent := w.links.silent || open_, links.can := w.links.can.map (fun c => { c with usdo := none }) }
  | 4 =>
    let w := forAll ((List.range 32).filter (fun t => tmGet w.toBlk t 0x12 == 1)) (fun t w => modTm t (fun s => { s with staged := none }) w) w
    cacheClear w
  | 5 => { w with dev.steps := [] }
  | _ => w

/-- A pair is held in reset (R332, R333); pair 0 held is an escalation at once (R334). -/
def pairHold (k : Nat) (w : Work) : Work :=
  let w := pairPut k 1 5 (modPair k (fun p => { p with start := none }) w)
  let w := raise 0x0C4 k 0 w
  if k = 0 ∧ w.dev.escalate = none ∧ w.dev.state ≠ .safe then { w with dev.escalate := some 0x0C4 } else w

/-- SPLIT_REQUEST of a pair that restarts becomes FALSE, by a commit of the device's own (R337). -/
def joinedNow (k : Nat) (w : Work) : Work :=
  doIf (odGet w.toBlk (0x2510 + k) 2 == 1) (fun w => deviceCommit (pairPut k 2 0 w)) w

/-- A restart begins: both cores are held in reset. A fourth counted cause within 30,000,000 beats holds the pair. SPLIT_REQUEST
becomes FALSE at the boundary of an activation, or at the next one. -/
def restartBegin (k cause pc : Nat) (w : Work) : Work :=
  let st := pairState w.toBlk k
  if st = 5 ∨ (st = 0 ∧ (pairOf w.toBlk k).start.isNone = true) then w
  else
    let now := w.time.beat
    let recent := (pairOf w.toBlk k).counted.filter (fun t => decide (now < t + 30000000))
    let counts := decide (1 ≤ cause) && decide (cause ≤ 4)
    let w := if cause = 5 then joinedNow k w
      else doIf (odGet w.toBlk (0x2510 + k) 2 == 1) (fun w => { w with links.effects := w.links.effects ++ [.joined k] }) w
    let w := pairAbsent k (modPair k (fun p => { p with split := false }) w)
    if counts ∧ 3 ≤ recent.length then pairHold k (modPair k (fun p => { p with counted := recent }) w)
    else
      let w := modPair k (fun p => { p with counted := if counts then now :: recent else recent, start := none }) w
      let w := odAdd (0x2510 + k) 3 1 (pairPut k 1 3 w)
      let w := pairPut k 5 now (pairPut k 4 cause w)
      let w := doIf (cause == 3) (pairPut k 9 (pc % 2 ^ 64)) w
      let (f, w) := takeFrees 5 w
      let v := fun (i : Nat) => Config.freeValue (f + i) % 2 ^ 32
      logWrite 3 7 (Config.freeValue (f + 4)) [v 0, v 1, v 2, v 3] w

/-- The pair's section of the active image. -/
def sectionDigest (b : Blk) (k : Nat) : Nat :=
  match b.cores.active with
  | some a => leNat (secDigest a.bytes k)
  | none => 0

/-- The restart's test and digest, and the start at ENTRY (R332). -/
def restartEnd (k : Nat) (testOk digestOk : Bool) (w : Work) : Work :=
  if pairState w.toBlk k ≠ 3 ∨ (pairOf w.toBlk k).start.isSome = true then w
  else if testOk = false ∨ digestOk = false then pairHold k w
  else pairPut k 8 (sectionDigest w.toBlk k) (modPair k (fun p => { p with start := some w.time.beat }) w)

/-- COMPARATOR_MISMATCH of a joined pair, halted or not: both cores stop and the restart begins (R325, R339). -/
def comparatorMismatch (k : Nat) (w : Work) : Work :=
  if (pairState w.toBlk k = 1 ∨ pairState w.toBlk k = 4) ∧ (pairOf w.toBlk k).split = false then
    restartBegin k 1 0 (raise 0x0C1 k 0 w)
  else w

/-- PAIR_RESTART with its cause: a fatal trap (3, at `pc`) or an uncorrectable error (4, at address `pc`) of a running pair,
an activation (5); a restart that has begun with the same cause goes on. -/
def pairRestart (k cause pc : Nat) (testOk digestOk : Bool) (w : Work) : Work :=
  let runs := pairRuns w.toBlk k
  let w := if runs ∧ cause = 3 then restartBegin k 3 pc (raise 0x0C2 k (pc % 2 ^ 32) w)
    else if runs ∧ cause = 4 then restartBegin k 4 0 (raise 0x0C3 k (pc % 2 ^ 32 / 8 * 8) w)
    else w
  if odGet w.toBlk (0x2510 + k) 4 = cause then restartEnd k testOk digestOk w else w

/-- PAIR_HEARTBEAT (16 R418). -/
def pairHeartbeat (k : Nat) (w : Work) : Work :=
  let st := pairState w.toBlk k
  let p := pairOf w.toBlk k
  let first := p.start.isSome && (st == 0 || st == 3)
  if first || st == 1 || st == 2 then
    let w := doIf first (pairPut k 1 1) w
    let w := modPair k (fun p => { p with start := none, last := w.time.beat }) w
    let w := odAdd (0x2510 + k) 6 1 w
    let w := { w with cores.reporting := w.cores.reporting.filter (· != k) }
    if k = 0 then { w with safe.wdgBeat := true } else w
  else w

/-- HEARTBEAT_MISSED: 250 beats without a write, or 500 from a start without a first heartbeat (16 R418). -/
def heartbeatMissed (k : Nat) (w : Work) : Work :=
  let st := pairState w.toBlk k
  let p := pairOf w.toBlk k
  let missed := match p.start with
    | some t => decide (t + 500 ≤ w.time.beat)
    | none => (st == 1 || st == 2) && decide (p.last + odGet w.toBlk 0x2420 3 ≤ w.time.beat)
  if missed then restartBegin k 2 0 (raise 0x0C0 k 0 w) else w

/-! ## Verification (R330, R331, R341) -/

/-- A LOAD_RESULT of a firmware load. -/
def fwResult (link tag status code : Nat) (m : List Byte) (w : Work) : Work := loadResult link tag 1 status code 0 m w

/-- The active image starts: each pair whose comparator passes its test starts at its section's ENTRY. -/
def startPairs (bad : List Nat) (w : Work) : Work :=
  let w := { w with dev.starting := true }
  forAll (List.range 6) (fun k w =>
    if bad.contains k then pairHold k w
    else pairPut k 8 (sectionDigest w.toBlk k) (pairPut k 1 0 (modPair k (fun p => { p with start := some w.time.beat }) w))) w

/-- FIRMWARE_VERIFIED: the crypto unit is done with the load at the head of its queue; `bad` names the pairs whose comparator
fails its Beryl patterns at the start (15 R389). -/
def firmwareVerified (bad : List Nat) (w : Work) : Work :=
  match w.cores.crypto with
  | .verify link tag msg :: rest =>
    let w := { w with cores.crypto := rest }
    let m := msg.drop 16
    let code := fwCheck w.toBlk m
    if code ≠ 0 then fwResult link tag 8 code msg w
    else
      let img : FwImage := { bytes := m, slot := (fwSlot w.fuses m).getD 0xFF }
      let w := fwResult link tag 0 0 msg w
      if w.dev.state = .boot then
        if w.dev.starting then w
        else startPairs bad { w with cores.active := some img, cores.recorded := fwDigest m }
      else
        let w := { w with cores.pending := some img }
        odPut 0x2500 1 2 (odPut 0x2500 5 (leNat (fwDigest m)) (odPut 0x2500 6 (fwVersion m) w))
  | _ => w

/-- RETAINED_FIRMWARE_CHECK (01 R26): `intact` says whether the retained bytes read as they were written. -/
def retainedCheck (intact : Bool) (w : Work) : Work :=
  match w.dev.state == .boot && !w.dev.warm && w.dev.retained && !w.dev.starting, w.cores.active with
  | true, some img =>
    if intact && fwDigest img.bytes == w.cores.recorded then startPairs [] w
    else { w with cores.active := none, dev.retained := false, dev.cause := 0x0B }
  | _, _ => w

/-! ## Activation (R341, R342) -/

/-- No LOAD is being received or verified. -/
def noLoad (b : Blk) : Bool :=
  let busy := fun (s : Session) => s.partials.any (fun p => p.ftype == 0x20)
  !busy b.links.usb && !busy b.links.udp && b.cores.crypto.all (fun o => match o with | .verify _ _ _ => false | .attest _ _ _ _ => true)

/-- The conditions of R342. -/
def mayActivate (b : Blk) : Bool :=
  (b.dev.state == .config || b.dev.state == .run || b.dev.state == .adapt) && b.dev.emergency == 0 && odGet b 0x2010 2 == 0 &&
  b.links.stages.all (fun s => s.commitAt.isNone) && noLoad b && !resetting b && (b.dev.state != .adapt || b.dev.steps.isEmpty) &&
  (b.dev.state == .config || (List.range 32).all (fun t =>
    !(tmGet b t 0x12 == 1) || !(decide (tmFwd b t < 1024) && holdsAdmission b (tmFwd b t))))

/-- Identity of the active image in the firmware objects. -/
def showImage (w : Work) : Work :=
  match w.cores.active with
  | none => w
  | some a => odPut 0x2500 2 (leNat (fwDigest a.bytes)) (odPut 0x2500 4 a.slot w)

/-- ACTIVATION_BEGIN. -/
def activationBegin (w : Work) : Work :=
  match w.cores.pending with
  | none => w
  | some img =>
    if odGet w.toBlk 0x2500 1 ≠ 3 ∨ mayActivate w.toBlk = false then w
    else
      let all := w.dev.state == .config
      let ks := (if all then [0] else []) ++ [1, 2, 3, 4, 5]
      let ks := ks.filter (fun k => pairRuns w.toBlk k)
      let w := { w with cores.active := some img, cores.pending := none, cores.recorded := fwDigest img.bytes, cores.reporting := ks }
      let w := showImage (odPut 0x2500 1 4 (odPut 0x2500 5 0 (odPut 0x2500 6 blankText w)))
      let w := if all then odPut 0x2300 5 0 { w with dev.checksPassed := false } else w
      forAll ks (fun k w => restartBegin k 5 0 w) w

/-- ACTIVATION_COMPLETE: every restarted pair has reported its heartbeat. -/
def activationComplete (w : Work) : Work :=
  if odGet w.toBlk 0x2500 1 ≠ 4 ∨ w.cores.reporting ≠ [] then w
  else
    let w := odPut 0x2500 1 1 w
    let w := match w.cores.active with
      | some a => odPut 0x2500 3 (fwVersion a.bytes) w
      | none => w
    doIf (w.dev.state == .config && odGet w.toBlk 0x2300 5 == 0) (odPut 0x2300 5 1) w

/-! ## Committed effects with rows of their own -/

/-- Take the first committed effect that satisfies a test. -/
def takeEffect (ok : Effect → Bool) (w : Work) : Option Effect × Work :=
  match w.links.effects.find? ok with
  | none => (none, w)
  | some e => (some e, { w with links.effects := w.links.effects.erase e })

/-- PAIR_SPLIT: pair k has run to its sync point (R336). -/
def pairSplit (k : Nat) (w : Work) : Work :=
  match takeEffect (· == .split k) w with
  | (none, w) => w
  | (some _, w) => if pairState w.toBlk k = 1 ∧ odGet w.toBlk (0x2510 + k) 2 = 1 then
      pairPut k 1 2 (modPair k (fun p => { p with split := true }) w) else w

/-- The restart of R337. -/
def rejoinNow (k : Nat) (w : Work) : Work := if (pairOf w.toBlk k).split then restartBegin k 6 0 w else w

/-- PAIR_REJOIN: the restart of R337 begins. -/
def pairRejoin (k : Nat) (w : Work) : Work :=
  match takeEffect (· == .rejoin k) w with
  | (none, w) => w
  | (some _, w) => rejoinNow k w

/-- FW_STATE with a request for activation, or without it (R341). -/
def fwWanted (on : Bool) (w : Work) : Work :=
  let st := odGet w.toBlk 0x2500 1
  if on then (if st = 2 then odPut 0x2500 1 3 w else w) else if st = 3 then odPut 0x2500 1 2 w else w

/-- FW_ACTIVATE_REQUEST becomes non-zero, or 0 (R341). -/
def fwActivate (on : Bool) (w : Work) : Work :=
  match takeEffect (· == (if on then .activate else .deactivate)) w with
  | (none, w) => w
  | (some _, w) => fwWanted on w

/-! ## Debugging (R339) -/

def debugHalt (k : Nat) (w : Work) : Work :=
  if w.fuses.debugLock ∨ pairRuns w.toBlk k = false then w
  else pairAbsent k (raise 0x0C5 k 0 (odAdd (0x2510 + k) 7 1 (pairPut k 1 4 w)))

/-- The cores' registers and memory are firmware's own: what a read gives is free (log 48). -/
def debugAccess (k : Nat) (write : Bool) (w : Work) : Work :=
  if w.fuses.debugLock ∨ pairState w.toBlk k ≠ 4 ∨ write = true then w
  else
    let (f, w) := takeFree w
    send (.debug k (Config.freeValue f % 2 ^ 64)) w

def debugResume (k : Nat) (w : Work) : Work :=
  if pairState w.toBlk k = 4 then
    modPair k (fun p => { p with last := w.time.beat }) (pairPut k 1 (if (pairOf w.toBlk k).split then 2 else 1) w)
  else w

def debuggerConnect (w : Work) : Work := if w.fuses.debugLock then w else odPut 0x2530 4 1 w

/-! ## The plan of the Garnet slices (R335) -/

/-- GARNET_PLAN_WRITE: the starts of one half of a diagnostic cycle, each by its release boundary 64 × k + q. -/
def garnetPlan (half : Nat) (starts : List (Nat × Nat)) (w : Work) : Work :=
  if pairRuns w.toBlk 2 = false ∨ 4096 * (half + 1) ≤ w.time.beat then w
  else
    let old := w.sched.plan.filter (fun p => decide (w.time.beat ≤ p.1 + 64))
    let mine := starts.filter (fun p => p.1 / 4096 == half)
    { w with sched.plan := mine.foldl (fun t p => tabSet 0 t p.1 p.2) old, sched.planEnd := max w.sched.planEnd (4096 * (half + 1)) }

/-- SCHEDULE_PLAN_EXHAUSTED: the sequencer reaches the end of the plan with pair 2 absent. -/
def planExhausted (w : Work) : Work :=
  if activeState w.toBlk = true ∧ pairRuns w.toBlk 2 = false ∧ w.sched.planEnd ≤ w.time.beat ∧ w.dev.escalate = none then
    let w := raise 0x0E1 0 0 w
    if w.dev.escalate = none then { w with dev.escalate := some 0x0E1 } else w
  else w

/-! ## Attestation (R343 to R345) -/

/-- ATTEST_REQUEST: it waits at the crypto unit. -/
def attestMsg (link tag : Nat) (m : List Byte) (w : Work) : Work :=
  let there := w.dev.state == .config || activeState w.toBlk
  if m.length ≠ 36 then answer link tag 0x71 3 [] w
  else if leAt m 0 1 ≠ 1 ∨ 2 ≤ leAt m 1 1 ∨ leAt m 2 2 ≠ 0 then answer link tag 0x71 1 [] w
  else if there = false then answer link tag 0x71 4 [] w
  else { w with cores.crypto := w.cores.crypto ++ [.attest link tag (leAt m 1 1) (m.drop 4)] }

/-- The digest of a handle, free once it is forgotten (12 R271, log 49). -/
def handleDigest (kind h : Nat) (w : Work) : List Byte × Work :=
  match w.res.handles.find? (fun x => x.kind == kind && x.handle == h) with
  | some x => (leBytes 64 x.digest, w)
  | none => if h = 0 then (leBytes 64 0, w) else let (k, w) := takeFree w; (leBytes 64 (Config.freeValue k), w)

def modelEntry (n : Nat) (w : Work) : List Byte × Work :=
  let ph := ((imageOf w.toBlk n (activePlace w.toBlk n)).map (·.handle)).getD 0
  let wh := tabGet 0 w.res.weights n
  let (pd, w) := handleDigest 1 ph w
  let (wd, w) := handleDigest 2 wh w
  (leBytes 2 n ++ leBytes 1 (ctxGet w.toBlk n 0xB) ++ leBytes 1 (ctxGet w.toBlk n 0xE) ++ leBytes 2 ph ++ leBytes 2 wh ++
    leBytes 8 0 ++ pd ++ wd, w)

/-- ATTEST_REPORT_SEND: the report of the request at the head of the crypto unit's queue. -/
def attestReport (w : Work) : Work :=
  match w.cores.crypto with
  | .attest link tag flags nonce :: rest =>
    let w := { w with cores.crypto := rest }
    let ns := if flags.testBit 0 then (admitted w.toBlk).filter (fun n => !ctxFixed n) else []
    let (entries, w) := ns.foldl (fun (p : List Byte × Work) n => let r := modelEntry n p.2; (p.1 ++ r.1, r.2)) ([], w)
    let b := w.toBlk
    let fl := b2n b.fuses.debugLock + 2 * odGet b 0x2530 4 + 4 * b2n b.cores.pending.isSome +
      8 * b2n ((List.range 6).any (fun k => pairState b k == 2))
    let body := leBytes 1 1 ++ leBytes 1 (stateCode b.dev.state) ++ leBytes 1 fl ++ leBytes 1 (odGet b 0x2500 4) ++
      leBytes 4 (odGet b 0x1018 2) ++ leBytes 4 (odGet b 0x1018 3) ++ leBytes 4 (odGet b 0x1018 4) ++ leBytes 8 b.time.beat ++
      nonce ++ leBytes 64 (odGet b 0x2500 2) ++ leBytes 16 (odGet b 0x2500 3) ++ leBytes 4 (odGet b 0x2002 1) ++
      leBytes 4 (odGet b 0x2010 1) ++ leBytes 16 (configDigest b) ++ leBytes 2 ns.length ++ leBytes 94 0 ++ entries
    answer link tag 0x71 0 (body ++ Config.attestSign (sha3 body)) (odAdd 0x2530 6 1 w)
  | _ => w

/-! ## A host that is silent (12 R322) -/

/-- The session of a link closes as silent. -/
def sessionSilent (link : Nat) (w : Work) : Work :=
  if (sessionOf w.toBlk link).up = false then w
  else
    let w := closeSession link (dropStage link false w)
    let w := ringsStop w
    let w := { w with links.silent := true }
    raise 0x0B2 link 0 (odAdd 0x2800 5 1 w)

/-- HOST_SILENT at device time t of the present beat. -/
def hostSilent (link t : Nat) (w : Work) : Work :=
  let at_ := moment t w
  let w := atTime t w
  let s := sessionOf w.toBlk link
  if s.last + odGet w.toBlk 0x2800 3 * 1000000 ≤ at_ then sessionSilent link w else w

/-- USB_DETACH: a detach or reset of the port. -/
def usbDetach (w : Work) : Work := sessionSilent 0 (odPut 0x2800 2 0 w)

/-- USB_ENUMERATE: in BOOT, once the hub's PLL is locked. -/
def usbEnumerate (speed : Nat) (w : Work) : Work :=
  if w.dev.state = .boot ∧ w.pow.unlocked.contains 4 = false ∧ w.dev.warm = false then odPut 0x2800 2 speed w else w

end Sys2Proof.Machine
end

