-- ==== Sys2Proof/Machine/Resets.lean ====
section
/-! DEFINITION. What follows a fault message (16 R410, R413), the compute-part reset with its dump and resumption (16 R419
to R424), and the escalation to SAFE (R425). -/

namespace Sys2Proof.Machine

/-! ## A fault message of a unit (R410, R413) -/

/-- The slice whose instruction or descriptor fetch met an uncorrectable word: the engine's slot that issues next, or the
highest one that is released (07 R179). It stops as 04 R106 states. -/
def fetchLost (e : Nat) (w : Work) : Work :=
  let g := engineOf w.toBlk e
  match (pickSlot w e).orElse (fun _ => bestSlot w.toBlk g (·.live)) with
  | some k => stopSlice (slotOf g k).ctx false w
  | none => w

/-- The reactions that other chapters tie to a fault, whatever its severity (R410): the abandoned pass of 03 R78 and its
mismatch (15 R386, R387), the stopped or abandoned work of 07 R179, the suspect quad of 15 R397, the doubt of 10 R256. -/
def faultReact (source unit detail master access : Nat) (lasting : Bool) (w : Work) : Work :=
  let q := unit / 4
  let suspectIf := fun (c : Bool) (w : Work) => doIf (c && decide (q < quadCount w.fuses)) (makeSuspect q) w
  match source with
  | 0x010 => if unit < quadCount w.fuses then makeSuspect unit w else w
  | 0x012 =>
    let again := (halfOf (engineOf w.toBlk unit) (bit detail 0)).second
    suspectIf (again || lasting) (doIf (decide (unit < engineCount w.fuses)) (abandonHalf unit (bit detail 0)) w)
  | 0x013 =>
    let hs := [false, true].filter (fun h => match (halfOf (engineOf w.toBlk unit) h).run with | some r => pDup r.req.desc | none => false)
    let again := hs.any (fun h => (halfOf (engineOf w.toBlk unit) h).second)
    suspectIf (again || lasting) (doIf (decide (unit < engineCount w.fuses)) (forAll hs (abandonHalf unit)) w)
  | 0x014 =>
    let quad := if detail = 0x012 ∨ detail = 0x013 then some (unit / 4)
      else if detail = 0x030 ∧ unit < 0x300 then some (unit % 0x100 / 4)
      else if detail = 0x020 ∨ detail = 0x011 then some unit
      else if detail = 0x041 then some (unit / 3)
      else none
    (match quad with
     | some k => if k < quadCount w.fuses then makeSuspect k w else w
     | none => w)
  | 0x030 =>
    if 0x200 ≤ unit ∧ unit < 0x200 + engineCount w.fuses then abandonChain (unit - 0x200) w
    else if unit < engineCount w.fuses ∧ access = 3 ∧ master < engineCount w.fuses then
      fetchLost master (quadAdd (quadOf unit) 0x64 1 w)
    else w
  | 0x080 => { w with guard.mismatch := true }
  | 0x081 => doubtHub w
  | _ => w

/-- FAULT_MESSAGE: a message as R407 lays it out, with the access that it concerns; `full` says that it finds the queue
full, so that it is not classified. A message of a reserved kind is only counted as lost (R408), and so is one of another version or of a reserved source,
to which R411 gives no kind (log 50). -/
def faultMessage (msg master access : Nat) (full : Bool) (w : Work) : Work :=
  let source := fld msg 59 51
  let unit := fld msg 44 32
  let kind := fld msg 50 47
  if 7 < kind ∨ fld msg 63 60 ≠ 1 ∨ faultListed source = false then odAdd 0x2400 5 1 w
  else
    let lasting := !full && wouldLast w.toBlk source unit
    let w := if full then collectLost msg w else collect msg master access w
    if kind = 7 then w else faultReact source unit (fld msg 31 0) master access lasting w

/-! ## Step 1 (R420) -/

/-- The jobs that have a context on this member (17 R448). -/
def memberJobs (b : Blk) : List Nat :=
  ((List.range 32).filter (fun k => (admitted b).any (fun n => (jobsOf b n).contains k)))

/-- COMPUTE_RESET_BEGIN: step 1, at the boundary after the cause. The slices in flight are withheld and asked to stop, held
content is withheld (10 R264); what their engines hold stands until the dump has been taken. -/
def resetBegin (w : Work) : Work :=
  match w.coll.resetBy with
  | none => w
  | some msg =>
    let w := { w with coll.resetBy := none }
    if resetting w.toBlk = true ∨ (activeState w.toBlk || w.dev.state == .config) = false then w
    else
      let now := w.time.beat
      let live := (w.slices.filter (fun p => p.2.live && p.2.doneAt.isNone && p.2.stopped.isNone)).map (·.1)
      let w := forAll live (fun n w =>
        modSlice n (fun s => { s with withheld := true, open_ := [], stopped := some now, unacked := [] }) (withholdDue n w)) w
      let held := fun (d : Due) => { d with withheld := true }
      let w := { w with res.outs := tabMap OutStream.idle (fun _ o => { o with due := o.due.map held }) w.res.outs }
      let w := { w with rst := { w.rst with begun := now :: w.rst.begun.take 31, asserted := none, released := none, tested := none } }
      let w := odPut 0x2430 7 now (odPut 0x2430 6 msg (odPut 0x2430 3 1 w))
      let w := forAll (List.range 32) inSuspend w
      let jobs := if odGet w.toBlk 0x2700 4 = 2 then memberJobs w.toBlk else []
      { w with dev.steps := [], casc.abortOut := jobs.foldl (fun m k => setBit m k true) w.casc.abortOut }

/-! ## The dump (R421) -/

/-- The wait of a slot and the object it waits at. -/
def dumpWait (w : Work) (e : Nat) (s : Slot) : Nat × Nat :=
  match s.wait with
  | .sem o _ => (1, o)
  | .barrier o => (2, o)
  | .fence _ => (3, 0)
  | .ending => (5, 0)
  | .ready =>
    let i := fetchWord w e s.pc
    if iOp i = 3 ∧ (halfFor w.toBlk (engineOf w.toBlk e) s.ctx (descAt w e s i)).isNone = true then (4, 0) else (0, 0)

def dumpSlot (w : Work) (e : Nat) (s : Slot) : Nat :=
  if s.live = false then 0
  else
    let x := dumpWait w e s
    s.ctx % 1024 * 2 ^ 54 + x.1 * 2 ^ 50 + x.2 % 8192 * 2 ^ 37 + s.pc % 2 ^ 18

/-- The cycles since a start are not modelled: a free value `f` (log 51). An empty unit reads 0, as R422 has it idle. -/
def dumpHalf (f : Nat) (h : Half) : Nat :=
  match h.run with
  | none => 0
  | some r => pTile r.req.desc * 2 ^ 48 + r.req.ctx % 1024 * 2 ^ 38 + f % 2 ^ 32

def dumpVec (f : Nat) (v : VecEng) : Nat :=
  let c := match v.running with | some r => r.req.ctx % 1024 * 2 ^ 54 + f % 2 ^ 32 | none => 0
  c + min 15 v.queue.length * 2 ^ 50

def dumpDma (f : Nat) (l : List DmaJob) : Nat :=
  match l with
  | [] => 0
  | j :: _ => min 15 l.length * 2 ^ 60 + j.ctx % 1024 * 2 ^ 50 + f % 2 ^ 32

/-- The items of an engine: ITEM, SUB, VALUE; `f` is the first of its four free values. -/
def dumpEngine (w : Work) (e f : Nat) : List (Nat × Nat × Nat) :=
  let g := engineOf w.toBlk e
  (List.range 16).map (fun k => (1, k, dumpSlot w e (slotOf g k))) ++
  [(2, 0, dumpHalf (Config.freeValue f) g.h0), (2, 1, dumpHalf (Config.freeValue (f + 1)) g.h1),
   (3, 0, dumpVec (Config.freeValue (f + 2)) g.vec), (4, 0, dumpDma (Config.freeValue (f + 3)) g.dma), (5, 0, g.tag)]

/-- A synchronisation object; one that no image declares reads as a semaphore at 0 (log 51). -/
def dumpSync (b : Blk) (o : Nat) : Nat × Nat :=
  match syncOf b o with
  | none => (7, 0)
  | some s => if s.kind = .semaphore then (7, s.count % 65536) else (8, s.init % 512 * 65536 + s.count % 512)

/-- Every item in the order of R421: ITEM, UNIT, SUB, whether its quad is absent, VALUE. -/
def dumpItems (w : Work) (f : Nat) : List (Nat × Nat × Nat × Bool × Nat) :=
  let gone := fun (q : Nat) => quadRemoved w.toBlk q
  (List.range (engineCount w.fuses)).flatMap (fun e =>
    (dumpEngine w e (f + 4 * e)).map (fun x => (x.1, e, x.2.1, gone (quadOf e), x.2.2))) ++
  (List.range (quadCount w.fuses)).map (fun q => (6, q, 0, gone q, (tabGet [] w.tileq q).length % 128)) ++
  (List.range (4096 * dies w.fuses)).map (fun o => let x := dumpSync w.toBlk o; (x.1, o, 0, false, x.2))

/-- The dump area: entries from `taken` on were not read, those listed in `lost` timed out. -/
def dumpArea (msg at_ taken : Nat) (lost : List Nat) (items : List (Nat × Nat × Nat × Bool × Nat)) : Nat × List Byte :=
  let st := items.mapIdx (fun i x => (if x.2.2.2.1 then 2 else if taken ≤ i then 3 else if lost.contains i then 1 else 0, x))
  let entry := fun (p : Nat × (Nat × Nat × Nat × Bool × Nat)) =>
    leBytes 1 p.2.1 ++ leBytes 1 p.1 ++ leBytes 2 p.2.2.1 ++ leBytes 2 p.2.2.2.1 ++ leBytes 2 0 ++
    leBytes 8 (if p.1 = 0 then p.2.2.2.2.2 else 2 ^ 64 - 1)
  let bad := (st.filter (fun p => p.1 == 1)).length
  (bad, leBytes 1 1 ++ leBytes 7 0 ++ leBytes 8 msg ++ leBytes 8 at_ ++ leBytes 4 items.length ++ leBytes 4 bad ++
    leBytes 32 0 ++ st.flatMap entry)

/-! ## Steps 3 to 5 (R422, R423) -/

/-- An engine after the reset (R422). -/
def engineCleared (g : Engine) : Engine :=
  { Engine.idle with vec := { VecEng.idle with allot := g.vec.allot }, rings := g.rings.map (fun r => { r with counts := [] }) }

/-- Passes and chains in progress on an engine's array. -/
def arrayLoad (g : Engine) : Nat := ((halves g).filter (fun h => h.run.isSome || h.kept.isSome)).length

/-- The compute part is cleared: every pass and chain in progress is abandoned and counted (03 R73, R78; 06 R154). -/
def clearCompute (w : Work) : Work :=
  let w := forAll (w.engines.filter (fun p => arrayLoad p.2 != 0)) (fun p w => quadAdd (quadOf p.1) 0x24 (arrayLoad p.2) w) w
  let w := forAll (w.engines.filter (fun p => p.2.vec.running.isSome)) (fun p w => quadAdd (quadOf p.1) 0x52 1 w) w
  let fresh := fun (_ : Nat) (o : Option SyncObj) => o.map (fun s => { s with waiters := [], freed := [] })
  { w with engines := tabMap Engine.idle (fun _ g => engineCleared g) w.engines, tileq := [],
           syncs := tabMap none fresh w.syncs, tm.lab := [[], []],
           tm.slots := tabMap TSlot.idle (fun _ s => { s with phase := 0, back := 0 }) w.tm.slots,
           quads := tabMap QuadRun.idle (fun _ r => { r with garnet := none }) w.quads }

/-- COMPUTE_RESET_ASSERT: step 3, at the first boundary after the dump. -/
def resetAssert (w : Work) : Work :=
  if odGet w.toBlk 0x2430 3 ≠ 2 ∨ w.time.beat < odGet w.toBlk 0x2430 7 + 1 then w
  else
    let w := clearCompute w
    { odPut 0x2430 3 3 w with rst := { w.rst with asserted := some w.time.beat } }

/-- COMPUTE_RESET_DUMP: step 2, from the boundary after step 1. While pair 0 runs every entry is read, `lost` timing out;
when it does not, the entries from `taken` on are not taken and the reset is asserted at once (R420). -/
def resetDump (taken : Nat) (lost : List Nat) (w : Work) : Work :=
  if odGet w.toBlk 0x2430 3 ≠ 1 ∨ w.time.beat < odGet w.toBlk 0x2430 7 + 1 then w
  else
    let runs := pairRuns w.toBlk 0
    let (f, w) := takeFrees (4 * engineCount w.fuses) w
    let items := dumpItems w f
    let d := dumpArea (odGet w.toBlk 0x2430 6) (odGet w.toBlk 0x2430 7 + 1) (if runs then items.length else taken) lost items
    let w := odPut 0x2450 4 d.1 (odPut 0x2450 3 items.length (odPut 0x2450 2 1 (odPut 0x2450 5 (leNat d.2) w)))
    let w := odPut 0x2430 3 2 w
    if runs then w else resetAssert w

/-- Every synchronisation object at the INIT of its table, whatever its scope (04 R95). -/
def syncsInit (w : Work) : Work :=
  { w with syncs := tabMap none (fun _ o => o.map SyncObj.fresh) w.syncs }

/-- COMPUTE_RESET_RELEASE: step 4, 25 beats after the assertion, or as soon after as pair 0 runs and the dies' PLLs are
locked. The core set and the kernels run for `beats` beats; `fails` lists the quads that fail, with the kernel. -/
def resetRelease (fails : List (Nat × Nat)) (beats : Nat) (w : Work) : Work :=
  match w.rst.asserted with
  | none => w
  | some t =>
    if odGet w.toBlk 0x2430 3 ≠ 3 ∨ w.time.beat < t + 25 ∨ pairRuns w.toBlk 0 = false ∨
        w.pow.unlocked.any (fun p => decide (p < 2 * dies w.fuses)) = true then w
    else
      let now := w.time.beat
      let was := (List.range (quadCount w.fuses)).filter (fun q => quadGet w.toBlk q 0xA0 == 1)
      let w := odPut 0x2430 3 4 (syncsInit w)
      let w := { w with rst := { w.rst with released := some now, tested := some (now + beats + 1) } }
      let w := forAll was (fun q w => if fails.any (fun p => p.1 == q) then loseQuad q 0x010 w else quadRestored q 0 w) w
      forAll (fails.filter (fun p => !was.contains p.1 && decide (p.1 < quadCount w.fuses) && !quadRemoved w.toBlk p.1)) (fun p w =>
        makeSuspect p.1 (quadAdd p.1 0xA3 1 (raise 0x010 p.1 p.2 w))) w

/-- RESUMPTION: step 5, at the first boundary after step 4 (R423). -/
def resumption (w : Work) : Work :=
  match w.rst.tested with
  | none => w
  | some m =>
    if odGet w.toBlk 0x2430 3 ≠ 4 ∨ w.time.beat < m ∨ pairRuns w.toBlk 0 = false then w
    else
      let now := w.time.beat
      let w := { w with coll.latches := w.coll.latches.filter (fun p => p.2 != 4) }
      let w := odAdd 0x2430 4 1 (odPut 0x2430 8 now (odPut 0x2430 3 0 w))
      let w := { w with rst := { w.rst with asserted := none, released := none, tested := none } }
      forAll ((admitted w.toBlk).filter (· != 0)) (fun n w =>
        let named := decide (ctxGet w.toBlk n 7 < 1024)
        modCtx n (fun c => { c with firstAt := max c.firstAt now, needPred := if named then some now else none }) w) w

/-! ## Escalation (R425) -/

/-- A pending commit is refused, with its stage discarded (12 R300, 01 R24). -/
def refuseCommits (code : Nat) (w : Work) : Work :=
  forAll (List.range 4) (fun l w =>
    let s := stageOf w.toBlk l
    match s.commitAt, s.reply with
    | some _, some r => odAdd 0x2001 5 1 (modStage l (fun _ => Stage.empty) (commitAnswer r code w))
    | some _, none => modStage l (fun _ => Stage.empty) w
    | none, _ => w) w

/-- DEVICE_STATE, PREVIOUS_STATE and LAST_CAUSE at a transition (01 R19). -/
def enterState (st : DevState) (cause : Nat) (w : Work) : Work :=
  { w with dev.prev := stateCode w.dev.state, dev.cause := cause, dev.state := st }

/-- ESCALATION, at the first boundary after its cause: from every state but LULL (01 R21). Object service passes to pair 0,
so the sessions of pair 3 close (13 R334). -/
def escalation (w : Work) : Work :=
  match w.dev.escalate with
  | none => w
  | some src =>
    let w := { w with dev.escalate := none }
    if w.dev.state = .lull ∨ w.dev.state = .porst ∨ w.dev.state = .safe then w
    else
      let w := enterState .safe 9 (refuseCommits 0x08000022 w)
      let w := odPut 0x2430 0xA w.time.beat (odPut 0x2430 9 src (odPut 0x2430 3 0 w))
      let w := { w with dev.draining := false, dev.steps := [], coll.resetBy := none, links.effects := [],
                        rst := { w.rst with asserted := none, released := none, tested := none } }
      let w := forAll [1, 2, 3, 4, 5] (fun k w =>
        pairAbsent k (pairPut k 1 5 (modPair k (fun p => { p with start := none }) w))) w
      let w := { clearCompute w with slices := [] }
      let w := forAll (List.range 32) inSuspend w
      { w with safe := { w.safe with high := false, okFrom := none, guardRun := 0, wdgUntil := none } }

end Sys2Proof.Machine
end

