-- ==== Sys2Proof/Machine/States.lean ====
section
/-! DEFINITION. The device states and their transitions (01 R17 to R28), the resets and the start (18 R462, R467 to R470, 13
R331), SQUALL (14 R372), and the adaptation step (01 R25). -/

namespace Sys2Proof.Machine

/-! ## What a power-down of the hub keeps (01 R26 to R28) -/

/-- An object outside the LULL domain and hub control SRAM, or a register that counts anew, is lost; what a host may write
is committed configuration. The lists name what belongs to the LULL domain, the collector, the log, the pairs' counters, the
admission tables and the fuses' own values (log 52). -/
def keptSub (idx sub : Nat) : Bool :=
  let a := objAccess idx sub
  let quad := decide (0x5000 ≤ idx) && decide (idx < 0x5040)
  within a 1 4 ||
  (decide (idx < 0x2000) && idx != 0x1001) || (decide (0x2000 ≤ idx) && decide (idx ≤ 0x2010)) ||
  (decide (0x2100 ≤ idx) && decide (idx < 0x2160)) || idx == 0x2220 || idx == 0x2230 ||
  (decide (0x2280 ≤ idx) && decide (idx < 0x2292)) || (idx == 0x2300 && sub == 0xA) ||
  (decide (0x2400 ≤ idx) && decide (idx < 0x2460)) || (decide (0x2510 ≤ idx) && decide (idx < 0x2516) && sub != 1 && sub != 8) ||
  (idx == 0x2530 && sub == 4) || idx == 0x2540 || (idx == 0x2600 && sub == 2) || (idx == 0x26C0 && sub == 4) ||
  (decide (0x26E0 ≤ idx) && decide (idx < 0x2700)) || (idx == 0x2700 && (sub == 2 || sub == 3)) ||
  (decide (0x4000 ≤ idx) && decide (idx < 0x4400)) ||
  (quad && (sub == 0x9D || sub == 0xA0 || sub == 0xA8 || (decide (0x91 ≤ sub) && decide (sub ≤ 0x97))))

/-- The stores lose their contents: every byte reads as one that nothing has written (log 1). -/
def loseMemory (w : Work) : Work := { w with wr := w.mem.map (fun c => (c.1, [memDefault])) }

/-- The hub loses what is not in the LULL domain or in control SRAM. A removed quad stays out until the next power-up (15
R399); the remedies of a suspect one stay in force; a stage keeps its writes (R26). -/
def loseVolatile (w : Work) : Work :=
  let w := refuseCommits 0x08000022 w
  let w := loseMemory { w with od := w.od.filter (fun p => keptSub (p.1 / 256) (p.1 % 256)) }
  let w := forAll ((List.range 64).filter (fun q => quadGet w.toBlk q 0xA0 == 1)) (fun q w => quadPut q 0xA0 0 w) w
  let w := odPut 0x2430 3 0 (odPut 0x2230 2 0 w)
  let keepQuad := fun (_ : Nat) (r : QuadRun) =>
    { QuadRun.idle with cap := r.cap, raised := r.raised }
  { w with
    coll := { w.coll with resetBy := none },
    engines := [], tileq := [], syncs := [], images := [], slices := [], ctxs := [],
    quads := tabMap QuadRun.idle keepQuad w.quads,
    links := { Links.reset with stages := w.links.stages.map (fun s => { s with commitAt := none, reply := none }),
                                orders := w.links.orders, gcl := w.links.gcl },
    chans := [],
    res := { Results.reset with handles := w.res.handles, nextProg := w.res.nextProg, nextWeight := w.res.nextWeight },
    sched := Sched.reset,
    pow := { Power.reset with coolOn := w.pow.coolOn, pwm := w.pow.pwm, pfw := w.pow.pfw, netLow := w.pow.netLow, vidAt := w.pow.vidAt },
    tm := { w.tm with slots := tabMap TSlot.idle (fun _ s => { s with phase := 0, back := 0, list := [], masses := [], scores := none, staged := none, fwdOk := false }) w.tm.slots,
                      lab := [[], []] },
    ingest := Ingest.reset, guard := Guard.reset, casc := Cascade.reset,
    cores := { Cores.reset with active := w.cores.active, pending := w.cores.pending, recorded := w.cores.recorded },
    safe := { SafePins.reset with cycles := w.safe.cycles },
    rst := { ResetRun.reset with begun := w.rst.begun },
    dev := { w.dev with retained := w.cores.active.isSome, checksPassed := false, starting := false, draining := false, steps := [],
                        emergency := 0, escalate := none } }

/-! ## PORST_N, REFCLK, WARM_RST_N (18 R462, R469, R470; 01 R28) -/

/-- The whole block as PORST_N holds it: every object at its default, the stores lost. The fuses, the test access port and
the counter of free values stand. -/
def holdAll (w : Work) : Work :=
  let w := loseMemory w
  { w with toBlk := { Blk.reset with fuses := w.fuses, tap := w.tap, free := w.free, out := w.out } }

/-- PORST_N_ASSERT. -/
def porstAssert (w : Work) : Work := holdAll w

/-- PORST_N_RELEASE: device time 0, the straps sampled (R467), LULL. -/
def porstRelease (node casc : Nat) (w : Work) : Work :=
  if w.dev.state ≠ .porst then w
  else
    let w := holdAll w
    let w := { w with dev.state := .lull, dev.nodeId := node, dev.casc := casc, tap.ir := if w.tap.ir = 3 then 0 else w.tap.ir }
    let w := odPut 0x2700 2 casc w
    let bad := (casc / 4 == 0 && casc % 4 != 0) || decide (casc / 4 < casc % 4)
    let w := if bad then raise 0x0F0 0 casc w else odPut 0x2700 3 (casc / 4 + 1) w
    doIf (node == 0) (raise 0x0B1 0 0) w

/-- LULL_READY: the fuses are read and the inputs conditioned, within 100 beats of the release. -/
def lullReady (w : Work) : Work := if w.dev.state = .lull then { w with dev.ready := true } else w

/-- WAKE: accepted in LULL, by its edge or as it stands when LULL is ready; PLLs, alignment and LDOs come up and the hub is
released into BOOT (14 R355). The first start after power-up records no LULL (01 R19). -/
def wake (w : Work) : Work :=
  if w.dev.state ≠ .lull ∨ w.dev.ready = false ∨ w.dev.wake = false ∨ w.dev.warm = true then w
  else
    let again := w.dev.retained
    let w := { w with pow.unlocked := [] }
    let w := doIf again (odAdd 0x2202 4 (2 * dies w.fuses + 1)) w
    { w with dev.state := .boot, dev.prev := if again then 7 else 0, dev.cause := if again then 2 else 1 }

/-- REFCLK_STOP: time stops, and the outputs stand as during PORST_N until its next release. -/
def refclkStop (w : Work) : Work := { w with dev.state := .porst, dev.noRefclk := true, dev.ready := false }

/-- WARM_RST_N_ASSERT: everything but the LULL domain and hub control SRAM is reset; ignored in SAFE, during PORST_N and
with REFCLK stopped. An escalation that the next boundary carries out ranks above it (01 R24), and SAFE then ignores it
(DEDUCED, log 141). -/
def warmAssert (w : Work) : Work :=
  if w.dev.state = .safe ∨ w.dev.state = .porst ∨ w.dev.warm = true then w
  else if w.dev.escalate.isSome = true ∧ w.dev.state ≠ .lull then w
  else
    let old := stateCode w.dev.state
    let w := loseVolatile w
    { w with dev.state := .boot, dev.prev := old, dev.cause := 0xA, dev.warm := true }

/-- WARM_RST_N_RELEASE: the PLLs relock and the device is in BOOT. -/
def warmRelease (w : Work) : Work :=
  if w.dev.warm = false then w
  else odAdd 0x2202 4 (2 * dies w.fuses + 1) { w with dev.warm := false, pow.unlocked := [] }

/-! ## CONFIG from BOOT (13 R331, 01 R27, 02 R35, 12 R308, 17 R435) -/

/-- A training begins on every connected port (17 R435). -/
def trainSend (w : Work) : Work :=
  forAll ((List.range 3).filter (connected w.toBlk)) (fun p w =>
    send (.train p (odGet w.toBlk 0x2700 2) w.fuses.serial 1 1) (odPut (0x2710 + p) 2 1 w)) w

/-- A member whose straps name a cascade starts to train. -/
def trainingStart (w : Work) : Work :=
  if odGet w.toBlk 0x2700 3 ≤ 1 then w
  else trainSend (odPut 0x2700 4 1 { w with casc := { Cascade.reset with trainFrom := some w.time.beat } })

/-- FIRMWARE_START: every pair has reported its first heartbeat. -/
def firmwareStart (w : Work) : Work :=
  if w.dev.state ≠ .boot ∨ w.dev.starting = false ∨ w.dev.warm = true ∨ (List.range 6).any (fun k => pairState w.toBlk k != 1) = true then w
  else
    let w := enterState .config 3 { w with dev.starting := false, dev.checksPassed := false }
    let w := showImage (odPut 0x2500 1 (if w.cores.pending.isSome then 2 else 1) w)
    let w := match w.cores.active with
      | some a => odPut 0x100A 0 (fwVersion a.bytes) (odPut 0x2500 3 (fwVersion a.bytes) w)
      | none => w
    let w := match w.cores.pending with
      | some p => odPut 0x2500 5 (leNat (fwDigest p.bytes)) (odPut 0x2500 6 (fwVersion p.bytes) w)
      | none => w
    let w := odPut 0x2300 6 0 (odPut 0x2300 5 1 w)
    let w := { w with safe := { w.safe with wdgFrom := w.time.beat, wdgJoined := true, wdgBeat := false, cycles := w.time.beat / 8192 } }
    let w := selfAdmission w
    let w := forAll ((List.range 32).filter (fun t => tmFwd w.toBlk t != none16)) (fun t w => tmPut t 0x13 2 w) w
    let w := forAll [0, 1] (fun c w => canSend c (0x700 + w.dev.nodeId) [0] w) w
    trainingStart w

/-! ## Requests (01 R21, R22, R25) -/

/-- The slices in flight are stopped (04 R106), the guard context's apart. -/
def haltSlices (w : Work) : Work :=
  let live := (w.slices.filter (fun p => p.2.live && p.2.doneAt.isNone && p.2.stopped.isNone)).map (·.1)
  forAll live (stopSlice · false) w

/-- The Timed and Elastic contexts that hold admission. -/
def squallCtxs (b : Blk) : List Nat := (admitted b).filter (fun n => n != 0 && decide (2 ≤ ctxClass b n))

/-- The contexts that SQUALL has suspended resume at their next period (01 R18), whether it was left to RUN or to CONFIG. One
that a recomputation keeps suspended stays so (02 R53). -/
def resumeSuspended (w : Work) : Work :=
  let now := w.time.beat
  let ns := (squallCtxs w.toBlk).filter (fun n => ctxGet w.toBlk n 0x0B == 5 && !(ctxRun w.toBlk n).lost &&
    !(maskQuads (activeQuads w.toBlk n)).any (quadRemoved w.toBlk))
  forAll ns (fun n w => modCtx n (fun c => { c with firstAt := max c.firstAt now }) (ctxPut n 0x0B 2 w)) w

/-- What an entry to RUN or ADAPT does: it invalidates the cache parts (07 R162), the look-aside buffers, scores and staged
lists (08 R199, R201), and what SQUALL suspended resumes. -/
def enterActive (w : Work) : Work := resumeSuspended (tmEnter (cacheFlush w))

/-- CONFIG from an active state: whatever still runs is stopped, the step is abandoned, the decoded samples are forgotten. -/
def toConfig (cause : Nat) (w : Work) : Work :=
  let adapt := w.dev.state == .adapt
  let w := haltSlices w
  let w := doIf adapt cacheClear w
  enterState .config cause { w with dev.draining := false, dev.steps := [] }

/-- The transition that a request names, where R21 has it: CONFIG to RUN, ADAPT or LULL, RUN and ADAPT to CONFIG. -/
def requestState (code : Nat) (w : Work) : Work :=
  match code, w.dev.state with
  | 2, .run => { w with dev.draining := true }
  | 2, .adapt => toConfig 4 w
  | 3, .config =>
    if w.dev.checksPassed ∧ ctxGet w.toBlk 0 0x0B = 2 then enterState .run 4 (enterActive w) else w
  | 4, .config => if stationary w.toBlk then enterState .adapt 4 (enterActive (cacheClear w)) else w
  | 7, .config => enterState .lull 4 (trigsLull (loseVolatile w))
  | _, _ => w

/-- REQUEST_CONFIG, REQUEST_RUN, REQUEST_ADAPT, REQUEST_LULL: the committed request. In a formed cascade the request is joint
(17 R441). -/
def requestRow (code : Nat) (w : Work) : Work :=
  if odGet w.toBlk 0x2700 4 = 2 then w
  else match takeEffect (· == .request code) w with
  | (none, w) => w
  | (some _, w) => requestState code w

/-! ## The drain (R22, R24) -/

/-- This member has drained. -/
def drained (b : Blk) : Bool :=
  b.dev.draining && !resetting b && deadlinesPassed b b.time.beat && streamsEnded b

/-- DRAIN_COMPLETE, from RUN or SQUALL; in a formed cascade at the first boundary at which every
member's drained flag has been set, this one's with the others' (17 R441). -/
def drainComplete (w : Work) : Work :=
  let others := odGet w.toBlk 0x2700 4 != 2 ||
    (List.range 3).all (fun p => !connected w.toBlk p ||
      (let x := nth Partner.idle w.casc.partners ((odGet w.toBlk 0x2700 2 % 4 + p + 1) % 4); x.lost || x.flags.testBit 4))
  let mine := if odGet w.toBlk 0x2700 4 = 2 then w.casc.drained else drained w.toBlk
  if mine ∧ w.dev.draining = true ∧ others = true then toConfig 4 w else w

/-- STATIONARY_LOST in ADAPT; the master then commits CONFIG for the whole cascade (17 R441). -/
def stationaryLost (w : Work) : Work :=
  if w.dev.state = .adapt ∧ stationary w.toBlk = false then
    let w := toConfig 5 w
    if odGet w.toBlk 0x2700 4 = 2 ∧ odGet w.toBlk 0x2700 2 % 4 = 0 then { w with links.effects := w.links.effects ++ [.request 2] } else w
  else w

/-! ## The adaptation step (R25)

The device knows a step by its context: the first slice of an Elastic context that ADAPT releases while none of its steps is in
progress begins one (log 53, Release.stepStart). -/

/-- WEIGHT_WRITE_BACK: the step of a context ends, and `m`, in the form of a weight load, is stored and takes a new handle
(10 R252). -/
def weightWriteBack (n : Nat) (m : List Byte) (w : Work) : Work :=
  let s := sliceOf w.toBlk n
  let segs := weightSegs m
  if w.dev.state ≠ .adapt ∨ w.dev.steps.contains n = false ∨ pairRuns w.toBlk 5 = false ∨ (s.live && s.doneAt.isNone) = true ∨
      leAt m 1 1 ≠ 3 ∨ leAt m 2 2 ≠ n ∨ m.length ≠ 16 + 16 * leAt m 8 4 + segs.foldl (fun a s => a + s.2.2.1) 0 ∨
      segs.all (weightSegOk w.toBlk n (activePlace w.toBlk n)) = false ∨ 65535 < w.res.nextWeight then w
  else
    let h := takeHandle 2 (leNat (sha3 m)) (storeSegs m w)
    { h.2 with res.weights := tabSet 0 h.2.res.weights n h.1, dev.steps := h.2.dev.steps.filter (· != n) }

/-! ## SQUALL (14 R372, 01 R18) -/

/-- SQUALL_ENTRY: an emergency has begun in RUN. What a suspended context has not closed is not published (10 R264). -/
def squallEntry (w : Work) : Work :=
  if w.dev.state ≠ .run ∨ w.dev.emergency = 0 then w
  else
    let e := w.dev.emergency
    let cause := if e.testBit 0 || e.testBit 4 then 6 else 7
    let w := forAll (squallCtxs w.toBlk) (fun n w =>
      let s := sliceOf w.toBlk n
      let w := doIf (s.live && s.doneAt.isNone && s.stopped.isNone) (stopSlice n false) w
      let w := forAll (streamsFor w.toBlk n) (fun o w => modOut o (fun x => { x with due := [] }) w) w
      suspendIngest n (ctxPut n 0x0B 5 w)) w
    enterState .squall cause w

/-- SQUALL_EXIT: every emergency has cleared, and RUN is entered anew. -/
def squallExit (w : Work) : Work :=
  if w.dev.state ≠ .squall ∨ w.dev.emergency ≠ 0 then w else enterState .run 8 (enterActive w)

end Sys2Proof.Machine
end

