-- ==== Sys2Proof/Machine/Cascade.lean ====
section
/-! DEFINITION. Cascading devices (17): training and formation, the control flits, records from partners, arrival sets,
aborts and stretches, joint states, and the loss of a partner. -/

namespace Sys2Proof.Machine

/-! ## Training and formation (R435, R436) -/

/-- Training has failed: raised once, the state shown, and training starts over (R435). -/
def trainFail (p step : Nat) (w : Work) : Work :=
  let w := doIf (odGet w.toBlk 0x2700 4 == 1) (raise 0x0F1 p step) w
  trainSend (odPut 0x2700 4 4 { w with casc.trainFrom := some w.time.beat, casc.formAt := none,
                                       casc.ports := w.casc.ports.map (fun c => { c with peer := none }) })

/-- TRAIN_FLIT: a port's peer shows its straps, serial number and versions; `delay` is the measured raw delay. -/
def trainFlit (p straps serial low high delay : Nat) (w : Work) : Work :=
  if w.casc.trainFrom.isNone = true ∨ connected w.toBlk p = false ∨ w.dev.state ≠ .config then w
  else
    let w := modPort p (fun c => { c with peer := some { straps := straps, serial := serial, low := low, high := high, delay := delay } }) w
    odPut (0x2710 + p) 1 (straps % 4) (odPut (0x2710 + p) 3 delay w)

/-- The master's check of a port: the same size, the member that the wiring names, a common version. -/
def peerGood (b : Blk) (p : Nat) : Bool :=
  match (portOf b p).peer with
  | none => false
  | some x => x.straps / 4 % 4 + 1 == casSize b && x.straps % 4 == peerOf b p && decide (x.low ≤ 1) && decide (1 ≤ x.high)

/-- FORM: the formation boundary is named, at least 16 beats ahead. On the master, once every port has trained and passes;
on another member as it arrives, with the boundary by its own count. -/
def formNamed (own master : Nat) (w : Work) : Work :=
  let ps := (List.range 3).filter (connected w.toBlk)
  if w.casc.trainFrom.isNone = true ∨ w.dev.state ≠ .config ∨ own < w.time.beat + 16 then w
  else if ps.any (fun p => (portOf w.toBlk p).peer.isNone) = true then w
  else if casMe w.toBlk = 0 then
    match ps.find? (fun p => !peerGood w.toBlk p) with
    | some p => trainFail p 3 w
    | none =>
      let w := { w with casc.formAt := some (own, own) }
      forAll ps (fun p w => send (.form p own) w) w
  else { w with casc.formAt := some (own, master) }

/-- What counts in beats moves with the step of R436: the watches go on, the stamps that an object shows stay. -/
def shiftTimers (d : Int) (w : Work) : Work :=
  let f := fun (x : Nat) => ((x : Int) + d).toNat
  let ns := fun (x : Nat) => ((x : Int) + 2000 * d).toNat
  let session := fun (s : Session) => { s with last := ns s.last }
  { w with
    coll := { w.coll with keys := w.coll.keys.map (fun k => { k with beats := k.beats.map f }) },
    rst := { w.rst with begun := w.rst.begun.map f },
    cores := { w.cores with pairs := w.cores.pairs.map (fun p => { counted := p.counted.map f, start := p.start.map f, last := f p.last, split := p.split }) },
    ctxs := tabMap CtxRun.idle (fun _ c => { c with firstAt := f c.firstAt, lastDone := f c.lastDone, lastRel := f c.lastRel,
                                                    withdrawAt := c.withdrawAt.map f,
                                                    decided := c.decided.map (fun x => (f x.1, x.2)) }) w.ctxs,
    sched := { w.sched with commitAt := w.sched.commitAt.map f, planEnd := f w.sched.planEnd, plan := [] },
    links := { w.links with stages := w.links.stages.map (fun s => { s with commitAt := s.commitAt.map f }),
                            usb := session w.links.usb, udp := session w.links.udp,
                            can := w.links.can.map (fun c => { c with beatSent := ns c.beatSent }) },
    safe := { w.safe with wdgFrom := f w.safe.wdgFrom, wdgUntil := w.safe.wdgUntil.map f, checkedAt := w.safe.checkedAt.map f,
                          cycles := ((w.time.beat : Int) + d).toNat / 8192 },
    pow := { w.pow with lastEst := none, vidAt := w.pow.vidAt.map f } }

/-- FORMATION: at F the cascade forms, and every member but the master takes the master's time and beat. -/
def formation (w : Work) : Work :=
  match w.casc.formAt with
  | none => w
  | some (own, master) =>
    if w.time.beat < own ∨ w.dev.state ≠ .config then w
    else
      let late := w.time.beat - own
      let d : Int := ((master + late : Nat) : Int) - w.time.beat
      let w := if casMe w.toBlk = 0 then w
        else
          let w := shiftTimers d w
          let step := fun (_ : Nat) (t : Trig) => { t with since := t.since.map (fun _ => 2000 * (master + late)), next := none, sched := none }
          let w := { w with time := { w.time with beat := master + late, ns := 2000 * (master + late) },
                            pins.trigs := tabMap Trig.idle step w.pins.trigs }
          odPut 0x2700 8 (twos 64 (2000 * d)) w
      let w := { w with casc := { w.casc with trainFrom := none, formAt := none, partners := List.replicate 4 { Partner.idle with heard := w.time.beat } } }
      let w := forAll ((List.range 3).filter (connected w.toBlk)) (fun p w => odPut (0x2710 + p) 2 2 w) w
      odPut 0x2700 4 2 (odPut 0x2700 5 1 (odPut 0x2700 7 (master + late) w))

/-- TRAINING_TIMEOUT: 20,000 beats without formation. `step` is the training step that did not complete. -/
def trainingTimeout (step : Nat) (w : Work) : Work :=
  match w.casc.trainFrom with
  | none => w
  | some t =>
    if w.dev.state ≠ .config ∨ w.time.beat < t + 20000 then w
    else
      let ps := (List.range 3).filter (connected w.toBlk)
      let p := ((ps.find? (fun p => (portOf w.toBlk p).peer.isNone)).orElse (fun _ => ps.head?)).getD 0
      trainFail p step w

/-! ## Retraction of results with partner sources (R259, R453) -/

/-- Records of a partner that are not settled count as retracted: they are marked, and every unconfirmed result that names one
is retracted. -/
def doubtPartner (j : Nat) (hit : Nat × Nat × Nat → Bool) (w : Work) : Work :=
  let b := w.toBlk
  let mark := fun (r : PartRec) =>
    if r.member = j ∧ r.kind = 1 ∧ hit (j, r.out, r.seq) = true ∧ partnerSettled b (j, r.out, r.seq) = false then { r with gone := true } else r
  doubt (fun u => u.partners.any (fun p => p.1 == j && hit p)) { w with casc.recs := w.casc.recs.map mark }

/-- R453: every unconfirmed record of a partner's stream up to `sq` counts as retracted. -/
def doubtUpTo (j out sq : Nat) (w : Work) : Work :=
  let b := w.toBlk
  doubtPartner j (fun p => p.2.1 == out && seqLe p.2.2 sq && !partnerSettled b p) w

/-! ## Aborts (R448) -/

/-- The contexts of a job that hold admission. -/
def jobCtxs (b : Blk) (k : Nat) : List Nat := (admitted b).filter (fun n => n != 0 && (jobsOf b n).contains k)

/-- Act on an abort: slices stopped, held content withheld, unconfirmed results retracted. The stops are the abort itself
and cause no other. -/
def abortCtx (n : Nat) (w : Work) : Work :=
  let out := w.casc.abortOut
  let s := sliceOf w.toBlk n
  let w := doIf (s.live && s.doneAt.isNone && s.stopped.isNone) (stopSlice n false) w
  let held := fun (d : Due) => { d with withheld := true, closeAt := some (d.closeAt.getD w.time.beat) }
  let w := forAll (streamsFor w.toBlk n) (fun s w => modOut s (fun o => { o with due := o.due.map held }) w) w
  let w := retractCtx n w
  let named := decide (ctxGet w.toBlk n 7 < 1024)
  let m := w.time.beat + 1
  let w := modCtx n (fun c => { c with firstAt := max c.firstAt m, needPred := if named then some m else none }) w
  { w with casc.abortOut := out }

/-- JOB_ABORT: the aborts that are due, at b + 2. -/
def jobAbort (w : Work) : Work :=
  let due := (w.casc.aborts.filter (fun a => decide (a.2 ≤ w.time.beat))).map (·.1)
  let w := { w with casc.aborts := w.casc.aborts.filter (fun a => decide (w.time.beat < a.2)) }
  let ns := (due.flatMap (jobCtxs w.toBlk)).eraseDups
  forAll ns abortCtx w

/-! ## Stretch (R449) -/

/-- The jobs with a Timed or Elastic context on this member. -/
def stretchJobs (b : Blk) : Nat :=
  ((List.range 32).filter (fun k => (jobCtxs b k).any (fun n => decide (2 ≤ ctxClass b n)))).foldl (fun m k => m + 2 ^ k) 0

/-- JOB_STRETCH: the member sets STRETCH, with the jobs it names, while a quad that carries a job context is to step; and
clears it. -/
def jobStretch (on : Bool) (w : Work) : Work :=
  if formed w.toBlk = false then w
  else if on = false then { w with casc.stretchOut := 0 }
  else if (List.range (quadCount w.fuses)).any (fun q => carriesJob w.toBlk q && clockOf w.toBlk q != wantClock w.toBlk q) then
    { w with casc.stretchOut := stretchJobs w.toBlk }
  else w

/-- The flit of beat b sets or clears a member's stretch of a job: its releases are skipped from b + 2, and made again from
the second beat after the flit that clears it. -/
def stretchTake (j jobs b : Nat) (w : Work) : Work :=
  let old := w.casc.stretch.filter (fun x => x.1 == j)
  let kept := w.casc.stretch.filter (fun x => x.1 != j || jobs.testBit x.2.1)
  let ended := old.filter (fun x => !jobs.testBit x.2.1)
  let fresh := ((List.range 32).filter (fun k => jobs.testBit k && !old.any (fun x => x.2.1 == k))).map (fun k => (j, k, b + 2))
  { w with casc := { w.casc with stretch := kept ++ fresh,
                                 resumeAt := ended.foldl (fun t x => tabSet 0 t x.2.1 (max (b + 2) (tabGet 0 t x.2.1))) w.casc.resumeAt } }

/-- The same of the jobs of a member whose compute part is in reset, from the flit on (R448). -/
def heldTake (j : Nat) (on : Bool) (b : Nat) (w : Work) : Work :=
  let jobs := (List.range 32).filter (fun k => collMember w.toBlk k j)
  let old := w.casc.held.filter (fun x => x.1 == j)
  let others := w.casc.held.filter (fun x => x.1 != j)
  if on then { w with casc.held := others ++ jobs.map (fun k => (j, k)) }
  else { w with casc := { w.casc with held := others,
                                      resumeAt := old.foldl (fun t x => tabSet 0 t x.2 (max (b + 2) (tabGet 0 t x.2))) w.casc.resumeAt } }

/-! ## The control flit (R440) -/

/-- This member allows the transition that is requested (R21, R441); one that has left ADAPT by itself is in CONFIG already. -/
def allows (b : Blk) (code : Nat) : Bool :=
  !resetting b &&
  (match code, b.dev.state with
   | 2, .run => true
   | 2, .adapt => true
   | 2, .config => true
   | 3, .config => b.dev.checksPassed && ctxGet b 0 0x0B == 2
   | 4, .config => stationary b && mayLeaveConfig b
   | 7, .config => mayLeaveConfig b
   | _, _ => false)

/-- The payload of the control flit of the present beat; `aborts` are the jobs aborted before it. -/
def controlBytes (b : Blk) (aborts : Nat) : List Byte :=
  let master := casMe b == 0
  let m := fun (k v : Nat) => leBytes k (if master then v else 0)
  let ready := match b.casc.request with | some r => allows b r.1 | none => false
  let flags := b2n (resetting b) + 2 * b2n (b.dev.state == .safe) + 4 * b2n (b.casc.stretchOut != 0) + 8 * b2n ready + 16 * b2n (drained b)
  let lost := (List.range 4).foldl (fun n j => n + (if (partnerAt b j).lost then 2 ^ j else 0)) 0
  let map := b.casc.map.getD (0, b.time.t0, b.time.n0, b.time.rate, b.time.gen)
  leBytes 1 1 ++ leBytes 1 (casMe b) ++ leBytes 1 (odGet b 0x2700 4) ++ leBytes 1 flags ++ leBytes 4 aborts ++
  leBytes 4 b.casc.stretchOut ++ leBytes 1 lost ++ m 1 b.casc.expel ++ leBytes 2 0 ++ leBytes 8 b.time.beat ++
  m 8 map.2.1 ++ m 8 (twos 64 map.2.2.1) ++ m 4 (twos 32 map.2.2.2.1) ++ m 4 map.2.2.2.2 ++ m 1 b.time.sync ++
  m 1 (match b.casc.request with | some r => r.1 | none => 0) ++ leBytes 2 0 ++ m 4 (odGet b 0x2010 1) ++
  m 8 (match b.casc.request with | some r => r.2.1 | none => 0) ++ m 8 (b.casc.schedule.elim 0 (·.1)) ++ leBytes 184 0

/-- Each member of a formed cascade sends its control flit in slot 0 of every beat, in SAFE too (R425, R450). Its own
aborts, stretches and reset act on it as they do on the others. -/
def controlSend (aborts : Nat) (w : Work) : Work :=
  if formed w.toBlk = false then w
  else
    let b := w.time.beat
    let me := casMe w.toBlk
    let bytes := controlBytes w.toBlk aborts
    let w := { w with casc.drained := drained w.toBlk }
    let w := forAll ((List.range 3).filter (connected w.toBlk)) (fun p w =>
      odAdd (0x2710 + p) 4 1 (send (.flit p 0 1 (flitBytes 1 (portOf w.toBlk p).next (portOf w.toBlk p).ack 0xFF 0 0 bytes)) w)) w
    let jobs := (List.range 32).filter (aborts.testBit ·)
    let w := odAdd 0x2700 0xA jobs.length { w with casc.aborts := w.casc.aborts ++ jobs.map (fun k => (k, b + 2)) }
    heldTake me (resetting w.toBlk) b (stretchTake me w.casc.stretchOut b w)

/-- What the master's flit brings (R437, R441, R442, R450): its map and SYNC_STATE among them, and that they still arrive. The
schedule that it announces commits with the generation after the one it carries (DEDUCED, log 170). -/
def masterFields (m : List Byte) (w : Work) : Work :=
  let b := leAt m 16 8
  let gen := leAt m 44 4
  let w := if gen = w.time.gen then w
    else { w with casc.map := some (b + 2, leAt m 24 8, sgn 64 (leAt m 32 8), sgn 32 (leAt m 40 4), gen) }
  let sync := leAt m 48 1
  let w := if sync = 4 then holdover w else { w with time.sync := sync }
  let w := { w with time.lastSample := w.time.ns }
  let req := leAt m 49 1
  let w := { w with casc.request := if req = 0 then none else some (req, leAt m 56 8, allows w.toBlk req) }
  let sb := leAt m 64 8
  let w := if w.time.beat < sb then
      { w with casc.schedule := some (sb, (leAt m 52 4 + 1) % 2 ^ 32),
               ctxs := tabMap CtxRun.idle (fun _ c => { c with decided := c.decided.map (fun d => (sb, d.2)) }) w.ctxs }
    else w
  let ex := leAt m 13 1
  let w := if ex.testBit (casMe w.toBlk) then { w with casc.expelled := true } else w
  forAll ((List.range 4).filter (fun j => ex.testBit j && j != casMe w.toBlk)) (fun j w =>
    modPartner j (fun x => { x with leave := some (x.leave.getD 1) }) w) w

/-- Flits that a header's ACK_SEQ acknowledges are forgotten (R439). -/
def ackTake (p ack : Nat) (w : Work) : Work :=
  modPort p (fun c => { c with sent := c.sent.filter (fun f => decide (32768 ≤ (ack + 65536 - f.seq) % 65536)) }) w

/-- CONTROL_FLIT_RECEIVED on a port: ACK_SEQ of its header and its payload; `good` says whether its CRC is right. -/
def controlFlit (p ack : Nat) (m : List Byte) (good : Bool) (w : Work) : Work :=
  if formed w.toBlk = false ∨ connected w.toBlk p = false then w
  else if good = false then odAdd (0x2710 + p) 6 1 w
  else if m.length ≠ 256 ∨ leAt m 0 1 ≠ 1 then w
  else
    let j := peerOf w.toBlk p
    let b := leAt m 16 8
    if (partnerAt w.toBlk j).lost then w
    else
      let fl := leAt m 3 1
      let w := ackTake p ack w
      let w := modPartner j (fun x => { x with heard := w.time.beat, state := leAt m 2 1, flags := fl, lostMask := leAt m 12 1,
                                               leave := if bit fl 1 then some 2 else x.leave }) w
      let jobs := (List.range 32).filter ((leAt m 4 4).testBit ·)
      let w := odAdd 0x2700 0xB jobs.length { w with casc.aborts := w.casc.aborts ++ jobs.map (fun k => (k, b + 2)) }
      let w := heldTake j (bit fl 0) b (stretchTake j (if bit fl 2 then leAt m 8 4 else 0) b w)
      if j = 0 then
        if b ≠ w.time.beat then
          let diff := (max b w.time.beat - min b w.time.beat) % 2 ^ 32
          modPartner 0 (fun x => { x with leave := some 3 }) (raise 0x0F6 0 diff w)
        else masterFields m w
      else w

/-! ## Record and management flits (R439, R446, R453) -/

/-- A record that R245 lays out: its version, CRC, KIND, and reserved fields of 0 (00 R8). -/
def recordWhole (bs : List Byte) : Bool :=
  decide (128 ≤ bs.length) && leAt bs 0 1 == 1 && within (leAt bs 1 1) 1 4 && decide (leAt bs 3 1 < 64) && leAt bs 109 3 == 0 &&
  leAt bs 120 4 == 0 && leAt bs 124 4 == crc32c (bs.take 124 ++ bs.drop 128)

/-- The latest record received of a partner's stream. -/
def lastRec (b : Blk) (j out : Nat) : Option PartRec :=
  (b.casc.recs.filter (fun r => r.member == j && r.out == out)).foldl (fun m r => match m with
    | none => some r
    | some x => if seqLe x.seq r.seq then some r else some x) none

/-- A record of a partner has arrived whole: a gap before it is acted on (R453), then a retraction that it carries (10 R259), it
is kept, and its watermark taken. -/
def recordArrives (j : Nat) (bs : List Byte) (w : Work) : Work :=
  if recordWhole bs = false then w
  else
    let r := partRec j w.time.beat bs
    let gap := match lastRec w.toBlk j r.out with
      | some x => x.kind != 4 && seqLe x.seq r.seq && r.seq != x.seq && r.seq != (x.seq + 1) % 2 ^ 32
      | none => false
    let w := doIf gap (doubtUpTo j r.out ((r.seq + 2 ^ 32 - 1) % 2 ^ 32)) w
    let from_ := leAt bs 12 4
    let w := doIf (bit (leAt bs 3 1) 0) (doubtPartner j (fun p => p.2.1 == r.out && seqLe from_ p.2.2)) w
    keepRec r { w with casc.marks := tabInsert w.casc.marks (j * 64 + r.out) r.mark }

/-- The bytes of a record in assembly, cut to its length once the header is there. -/
def recordCut (bs : List Byte) : List Byte := bs.take (128 + 16 * leAt bs 50 1 + leAt bs 44 4)

/-- A numbered flit is taken in order with a good CRC, or dropped. -/
def flitInOrder (p seq : Nat) (good : Bool) (f : Work → Work) (w : Work) : Work :=
  if formed w.toBlk = false ∨ connected w.toBlk p = false ∨ (partnerAt w.toBlk (peerOf w.toBlk p)).lost = true then w
  else if good = false then odAdd (0x2710 + p) 6 1 w
  else if seq ≠ ((portOf w.toBlk p).ack + 1) % 65536 then w
  else f (modPort p (fun c => { c with ack := seq }) w)

/-- RECORD_FLIT: FLIT_SEQ, ACK_SEQ, STREAM, FLAGS, FLIT_INDEX and the payload. -/
def recordFlit (p seq ack stream flags index : Nat) (payload : List Byte) (good : Bool) (w : Work) : Work :=
  flitInOrder p seq good (fun w =>
    let w := ackTake p ack w
    let old := tabGet [] (portOf w.toBlk p).asm stream
    let kept := if bit flags 0 then [] else old
    let bs := if kept.length = 256 * index then kept ++ payload else []
    let last := bit flags 1
    let w := modPort p (fun c => { c with asm := tabSet [] c.asm stream (if last then [] else bs) }) w
    if last then recordArrives (peerOf w.toBlk p) (recordCut bs) w else w) w

/-- MANAGEMENT_FLIT: taken in order for the pairs of the two members. Its layout is firmware's own: what the pairs learn by
it are the operands of ADMISSION_DECISION, the fields of the control flits (log 54), and that a member has left ADAPT by
itself, on which the master commits CONFIG for the whole cascade (R441). -/
def managementFlit (p seq ack : Nat) (f : MgmtFlit) (w : Work) : Work :=
  flitInOrder p seq f.good (fun w =>
    let w := ackTake p ack w
    if f.leftAdapt ∧ casMe w.toBlk = 0 then { w with links.effects := w.links.effects ++ [.request 2] } else w) w

/-- FLIT_RESEND: up to eight flits from the first unacknowledged one, in slots 1 to 8; each is counted and reported. -/
def flitResend (p n : Nat) (w : Work) : Work :=
  if formed w.toBlk = false ∨ connected w.toBlk p = false then w
  else
    let c := portOf w.toBlk p
    let fs := c.sent.take (min 8 n)
    let ix := fs.mapIdx (fun i f => (i, f))
    forAll ix (fun x w =>
      let f := x.2
      let w := send (.flit p (1 + x.1) f.kind (flitBytes f.kind f.seq c.ack f.stream (Nat.lor f.flags 4) f.index f.bytes)) w
      raise 0x0F2 p fs.length (odAdd (0x2710 + p) 5 1 (odAdd (0x2710 + p) 4 1 w))) w

/-! ## Arrival sets (R445 to R447) -/

/-- The parts of a collective, in ascending member number. -/
def collParts (b : Blk) (k : Nat) : List Nat :=
  if collGet b k 2 = 3 then [collGet b k 4] else (List.range 4).filter (fun j => (collGet b k 3).testBit j && decide (j < casSize b))

/-- This member receives the arrival set of a collective. -/
def collReceives (b : Blk) (k : Nat) : Bool :=
  match collGet b k 2 with
  | 1 => (collGet b k 3).testBit (casMe b)
  | 2 => casMe b == collGet b k 4
  | 3 => casMe b != collGet b k 4 && (collGet b k 3).testBit (casMe b)
  | _ => false

/-- Bytes of a record at its largest, padded; with no stream of this member's own, of the record that came. -/
def partBytes (b : Blk) (k : Nat) (r : Option PartRec) : Nat :=
  let out := collGet b k 5
  let n := if out < 64 then 128 + 16 * odGet b (0x6000 + out) 8 + odGet b (0x6000 + out) 7
    else (r.map (fun x => x.body.length)).getD 0
  ceilDiv n 64 * 64

/-- The 64-byte arrival header. SEQ, WATERMARK and digest of a missing part are not known: free values (log 55). -/
def arrivalHead (j out close k : Nat) (r : Option PartRec) : List Byte :=
  let st := match r with | none => 1 | some x => if x.kind = 3 then 2 else 0
  leBytes 1 1 ++ leBytes 1 j ++ leBytes 1 out ++ leBytes 1 st ++
  (match r with
   | some x => leBytes 4 x.seq ++ leBytes 4 x.mark
   | none => leBytes 4 (Config.freeValue k) ++ leBytes 4 (Config.freeValue (k + 1))) ++ leBytes 4 0 ++ leBytes 8 close ++
  (match r with | some x => x.pay | none => leBytes 32 (Config.freeValue (k + 2))) ++ leBytes 8 0

/-- The FP32 elements of a record's payload. -/
def partWords (x : PartRec) : List Nat :=
  let p := x.body.drop (128 + 16 * leAt x.body 50 1)
  (List.range (p.length / 4)).map (fun i => leAt p (4 * i) 4)

/-- The sum of R447, element by element, in ascending member number. -/
def reduceSum : List (List Nat) → List Nat
  | [] => []
  | x :: xs => xs.foldl (fun s p => (List.zip s p).map (fun q => fAdd q.1 q.2)) x

/-- R453 for a part that is missing: its stream's records up to the one that did not come are as retracted. -/
def missingPart (k j out close : Nat) (w : Work) : Work :=
  let w := odAdd (0x2720 + k) 0xB 1 w
  if j = casMe w.toBlk then w
  else
    let w := raise 0x0F3 (portTo w.toBlk j) out w
    match w.casc.recs.find? (fun r => r.member == j && r.out == out) with
    | none => w
    | some r =>
      doubtUpTo j out ((r.seq + (close - r.close)) % 2 ^ 32) w

/-- The part of a member in the set that arrives at boundary `now`: its record of that close, complete at the boundary before
(R446). -/
def partAt (b : Blk) (j out close now : Nat) : Option PartRec :=
  b.casc.recs.find? (fun r => r.member == j && r.out == out && r.close == close && (r.kind == 1 || r.kind == 3) &&
    decide (r.came + 2 ≤ now))

/-- ARRIVAL_SET_COMPLETE at the arrival boundary of collective k: `outs` gives the members' output streams, this member's
own where one is not named. -/
def arrivalSet (k : Nat) (outs : List (Nat × Nat)) (w : Work) : Work :=
  let b := w.toBlk
  let now := w.time.beat
  let red := collGet b k 2 == 2
  let lag := if red then 3 else 2
  let cons := collGet b k 6
  let per := max 1 (ctxGet b cons 3)
  let close := now - lag
  if formed b = false ∨ activeState b = false ∨ collReceives b k = false ∨ 1024 ≤ cons ∨ ctxGet b cons 0x0B ≠ 2 ∨
      now % per ≠ ctxGet b cons 0x0F % per ∨ now < lag ∨ w.casc.done.contains (k, close) = true then w
  else
    let outOf_ := fun (j : Nat) => ((outs.find? (fun o => o.1 == j)).map (·.2)).getD (collGet b k 5)
    let parts := (collParts b k).map (fun j => (j, partAt b j (outOf_ j) close now))
    let part := 64 + parts.foldl (fun m p => max m (partBytes b k p.2)) 0
    let pay := if collGet b k 5 < 64 then odGet b (0x6000 + collGet b k 5) 7 else 0
    let size := if red then ceilDiv (64 * parts.length + pay) 64 * 64 else part * parts.length
    let base := collGet b k 7 + (close / per % max 1 (collGet b k 9)) * size
    let (f, w) := takeFrees (3 * parts.length) w
    let w := (parts.mapIdx (fun i p => (i, p))).foldl (fun w x =>
      let j := x.2.1
      let a := base + x.1 * (if red then 64 else part)
      let w := put a (arrivalHead j (outOf_ j) close (f + 3 * x.1) x.2.2) w
      match x.2.2 with
      | none => missingPart k j (outOf_ j) close w
      | some r => if red then w else put (a + 64) ((r.body ++ List.replicate 65536 0).take (ceilDiv r.body.length 64 * 64)) w) w
    let whole := parts.all (fun p => match p.2 with | some r => r.kind == 1 | none => false)
    let w := doIf (red && whole) (put (base + 64 * parts.length)
      ((reduceSum (parts.filterMap (fun p => p.2.map partWords))).flatMap (leBytes 4))) w
    let w := odAdd (0x2720 + k) 0xA 1 { w with casc.done := ((k, close) :: w.casc.done).take 64 }
    if collGet b k 8 = none16 then w else signalSync 0 (collGet b k 8 % 8192) 1 w

/-! ## Joint states (R441) -/

/-- The master's request waits for the members; its commit is answered when it is decided. -/
def jointAnswer (code : Nat) (w : Work) : Work :=
  match w.links.joint with
  | none => w
  | some (r, old) =>
    let w := { w with links.joint := none }
    let w := if code = 0 then w else odPut 0x2000 2 old w
    commitAnswer r code w

/-- JOINT_STATE_CHANGE: one boundary before STATE_BEAT, when the control flits of the beat before have come, the master refuses
the request unless every member's ready flag is set; at STATE_BEAT every member makes the transition. -/
def jointState (w : Work) : Work :=
  match w.casc.request with
  | none => w
  | some (code, at_, _) =>
    let ended := { w with casc.request := none }
    if at_ ≤ w.time.beat then requestState code (jointAnswer 0 ended)
    else if casMe w.toBlk = 0 ∧ at_ = w.time.beat + 1 then
      let all := (List.range 3).all (fun p => !connected w.toBlk p ||
        (let x := partnerAt w.toBlk (peerOf w.toBlk p); x.lost || x.flags.testBit 3))
      if all && allows w.toBlk code then w else jointAnswer 0x08000022 ended
    else w

/-- A committed request of the master becomes a joint one, four beats ahead. -/
def jointRequest (w : Work) : Work :=
  if formed w.toBlk = false ∨ casMe w.toBlk ≠ 0 ∨ w.casc.request.isSome = true then w
  else match takeEffect (fun e => match e with | .request _ => true | _ => false) w with
    | (some (.request c), w) => { w with casc.request := some (c, w.time.beat + 4, true) }
    | (_, w) => w

/-! ## Losing a partner (R450 to R452) -/

/-- A member without its master, or expelled: job contexts are shed, the cascade is over for it. -/
def loseMaster (detail : Nat) (w : Work) : Work :=
  if odGet w.toBlk 0x2700 4 = 3 then w
  else
    let w := raise 0x0F5 0 detail w
    let ns := (admitted w.toBlk).filter (fun n => n != 0 && !(jobsOf w.toBlk n).isEmpty)
    let w := forAll ns (fun n w => retractCtx n (shedCtx n w)) w
    let w := forAll (List.range 4) (fun j w => doubtPartner j (fun _ => true) w) w
    odPut 0x2700 4 3 { w with casc.request := none, casc.schedule := none, casc.stretch := [], casc.held := [], casc.aborts := [] }

/-- Another member is gone: its jobs are aborted, their contexts suspended until the recomputation sheds them. -/
def loseMember (j detail : Nat) (w : Work) : Work :=
  let w := raise 0x0F4 j detail w
  let jobs := (List.range 32).filter (fun k => collMember w.toBlk k j)
  let ns := (jobs.flatMap (jobCtxs w.toBlk)).eraseDups
  let w := forAll ns (fun n w =>
    let w := abortCtx n w
    suspendIngest n (modCtx n (fun c => { c with lost := true }) (ctxPut n 0x0B 5 w))) w
  let w := doubtPartner j (fun _ => true) w
  askRecompute 3 { w with casc.held := w.casc.held.filter (fun x => x.1 != j), casc.stretch := w.casc.stretch.filter (fun x => x.1 != j) }

/-- PARTNER_LOST: the declaration, at the first boundary after three missing control flits, or as the partner has left. -/
def partnerLost (j : Nat) (w : Work) : Work :=
  let x := partnerAt w.toBlk j
  if formed w.toBlk = false ∨ j = casMe w.toBlk ∨ casSize w.toBlk ≤ j ∨ x.lost = true ∨
      (x.leave.isNone = true ∧ w.time.beat < x.heard + 4) then w
  else
    let detail := x.leave.getD 0
    let w := modPartner j (fun x => { x with lost := true, leave := none }) w
    let p := portTo w.toBlk j
    let w := odPut 0x2700 9 (Nat.lor (odGet w.toBlk 0x2700 9) (2 ^ j)) (odPut (0x2710 + p) 2 3 w)
    if j = 0 then loseMaster detail w else loseMember j detail w

/-- A member that reads itself expelled acts as one that has lost the master. -/
def expelledStep (w : Work) : Work :=
  if w.casc.expelled && formed w.toBlk then loseMaster 1 { w with casc.expelled := false } else w

/-- MEMBER_EXPEL: the master expels the higher of two members that report each other lost while it hears both. -/
def memberExpel (w : Work) : Work :=
  let hears := fun (j : Nat) => !(partnerAt w.toBlk j).lost && decide (w.time.beat < (partnerAt w.toBlk j).heard + 4)
  let pairs : List (Nat × Nat) := [(1, 2), (1, 3), (2, 3)]
  if formed w.toBlk = false ∨ casMe w.toBlk ≠ 0 then w
  else forAll pairs (fun x w =>
    if x.2 < casSize w.toBlk && hears x.1 && hears x.2 && (partnerAt w.toBlk x.1).lostMask.testBit x.2 &&
        (partnerAt w.toBlk x.2).lostMask.testBit x.1 && !w.casc.expel.testBit x.2 then
      modPartner x.2 (fun y => { y with leave := some (y.leave.getD 1) }) { w with casc.expel := setBit w.casc.expel x.2 true }
    else w) w

/-! ## At each boundary -/

/-- The master's map takes effect two beats after the boundary it was formed for (R437). -/
def jointMap (w : Work) : Work :=
  match w.casc.map with
  | none => w
  | some (at_, t0, n0, rate, gen) =>
    if w.time.beat < at_ then w
    else { w with casc.map := none, time := { w.time with t0 := t0, n0 := n0, rate := rate, gen := gen } }

/-- The schedule commits on every member at SCHEDULE_BEAT, with the master's generation (R442). -/
def jointSchedule (w : Work) : Work :=
  match w.casc.schedule with
  | none => w
  | some (at_, gen) =>
    if w.time.beat < at_ then w
    else odPut 0x2010 1 gen { w with casc.schedule := none }

/-- MEMBERS_PRESENT. -/
def membersStep (w : Work) : Work :=
  let there := (List.range 4).filter (fun j => j == casMe w.toBlk ||
    (formed w.toBlk && decide (j < casSize w.toBlk) && !(partnerAt w.toBlk j).lost))
  odPut 0x2700 6 (if casSize w.toBlk ≤ 1 then 1 else there.foldl (fun n j => n + 2 ^ j) 0) w

/-- What the cascade brings to a boundary before its commits: formation, declarations, expulsions, aborts. -/
def cascadeStep (w : Work) : Work :=
  let w := formation w
  let w := memberExpel w
  let w := forAll [0, 1, 2, 3] partnerLost w
  let w := expelledStep w
  let w := jobAbort w
  jointMap w

end Sys2Proof.Machine
end

