-- ==== Sys2Proof/Machine/Commit.lean ====
section
/-! DEFINITION. Commits (12 R297 to R303): the checks that relate sub-indices to one another, made at the commit's boundary
against the values it would leave, and what an applied commit brings with it. A relation is checked at every write of a
sub-index that takes part in it (DEDUCED, log 57). -/

namespace Sys2Proof.Machine

/-! ## Pools and temporal slots -/

def poolBase (b : Blk) (p : Nat) : Nat := odGet b (0x2640 + p) 2
def poolLen (b : Blk) (p : Nat) : Nat := odGet b (0x2640 + p) 3
def poolWriter (b : Blk) (p : Nat) : Nat := odGet b (0x2640 + p) 4

/-- A pool lies on one channel of a present quad, alone, and is cacheable only without a writer (07 R172). -/
def poolRuleOk (b : Blk) (p : Nat) : Bool :=
  let base := poolBase b p
  let len := poolLen b p
  (odGet b (0x2640 + p) 6 == 0 || poolWriter b p == none16) &&
  (len == 0 ||
    (decide (base + len ≤ memTop b.fuses) && memChannel base == memChannel (base + len - 1) &&
     !quadRemoved b (memChannel base / 3) &&
     (List.range 128).all (fun q => q == p || poolLen b q == 0 || decide (base + len ≤ poolBase b q) ||
       decide (poolBase b q + poolLen b q ≤ base))))

/-- An address in a pool whose WRITER is the context. -/
def inPoolOf (b : Blk) (n a : Nat) : Bool :=
  (List.range 128).any (fun p => poolWriter b p == n && decide (poolBase b p ≤ a) && decide (a < poolBase b p + poolLen b p))

/-- A configured slot keeps R187 and the rules of 08 R209. -/
def slotRuleOk (b : Blk) (t : Nat) : Bool :=
  let p := tmGet b t 4
  tmFwd b t == none16 ||
  (decide (tmA b t ≤ 64) && tmDk b t % 64 == 0 && tmDv b t % 64 == 0 && decide (p < 128) && poolWriter b p == tmFwd b t &&
   decide (tmQuota b t * (tmPageBytes b t + tmDk b t) ≤ poolLen b p) &&
   (tmBack b t == none16 || memberOf b (odGet b (0x2640 + p) 5) (tmBack b t)))

def slotsRuleOk (b : Blk) : Bool := decide (tmQuotas b ≤ 32768) && (List.range 32).all (slotRuleOk b)

/-! ## Layouts and ingest streams (09) -/

/-- The bytes of a field spec of R222. -/
def specBytes (v : Nat) : Nat := fld v 7 6 + 1
/-- A present field ends within `limit`. -/
def specIn (v bytes limit : Nat) : Bool := !(bit v 0) || decide (fld v 31 16 + bytes ≤ limit)
/-- The greatest count that a layout's records can carry. -/
def topCount (b : Blk) (l : Nat) : Nat :=
  let c := lGet b l 8
  if bit c 0 then 2 ^ (8 * specBytes c - fld c 5 5) - 1 else lGet b l 7

/-- R225's cases. A stream uses a layout while it is enabled (DEDUCED, log 57). -/
def layoutRuleOk (b : Blk) (l : Nat) : Bool :=
  let head := lGet b l 6
  specIn (lGet b l 8) (specBytes (lGet b l 8)) head && specIn (lGet b l 0xD) (specBytes (lGet b l 0xD)) head &&
  specIn (lGet b l 0xB) (if lGet b l 0xC = 2 then 10 else 8) head &&
  (List.range 8).all (fun k => specIn (lGet b l (0x10 + k)) (specBytes (lGet b l (0x10 + k))) (lGet b l 9)) &&
  (List.range 32).all (fun n => !inEnabled b n || inLayout b n != l || decide (topCount b l ≤ inGet b n 0x32)) &&
  !(lGet b l 2 == 4 && bit (lGet b l 0x17) 0)

/-- The streams that share a JPEG XS decoder with stream n, itself included (R227). -/
def boundTo (b : Blk) (n : Nat) : Nat :=
  ((List.range 32).filter (fun m => inEnabled b m && inType b m == 3 && inGet b m 0xC == inGet b n 0xC)).length

/-- Positions are numbered by arrival (R214). -/
def byArrival (b : Blk) (n : Nat) : Bool :=
  inCamera n || ((inType b n == 2 || inType b n == 4) && !bit (lGet b (inGet b n 0xB) 0xD) 0)

/-- The geometry of a pixel stream (R230, R231). -/
def geometryOk (b : Blk) (n : Nat) : Bool :=
  let (_, _, w, h) := cropOf b n
  match inGet b n 0x1C with
  | 0 => outW b n == w && outH b n == h
  | 1 => (List.range (outH b n)).all (fun y => let s := rowSpan b n y; decide (s.2 + 1 - s.1 ≤ 30))
  | 2 => decide (outW b n ≤ w / inGet b n 0x1E) && decide (outH b n ≤ h / inGet b n 0x1E)
  | _ => true

/-- The relations of an enabled stream (R210, R213, R214, R220, R227, R230, R231, R236, R238 to R240). -/
def enabledRuleOk (b : Blk) (n : Nat) : Bool :=
  let c := inContext b n
  let others := (List.range 32).filter (fun m => m != n && inEnabled b m)
  let k := inType b n
  let trig := inTrigger b n
  let pool := inGet b n 0x35
  others.all (fun m => c == none16 || inContext b m != c) &&
  (decide (32 ≤ trig) || odGet b (0x2120 + trig) 2 == 1) &&
  inPoolOf b c (inGet b n 0x2D) &&
  (!(k == 2 || k == 4 || inGet b n 0x1C == 3) || inPoolOf b c (inGet b n 0x30)) &&
  (pool == 0xFF || poolWriter b pool == c) &&
  (!byArrival b n || decide (inGet b n 0x13 ≤ 2 * inGet b n 0x14)) &&
  (!inPixels b n || geometryOk b n) &&
  (!inCamera n || inGet b n 0xA == inRecords b n) &&
  (inCamera n ||
    (inGet b n 9 != 0 && others.all (fun m => inCamera m || inGet b m 5 != inGet b n 5 || inGet b m 9 != inGet b n 9) &&
     (if k = 3 then decide (inGet b n 0xC ≤ 3) && within (inGet b n 0xF) 1 5 && decide (boundTo b n ≤ 4) &&
        decide (imgW b n * sliceRows b n * boundTo b n * 5 ≤ 6 * inGet b n 0x16) && decide (inGet b n 0x16 ≤ inGet b n 0x13)
      else decide (inGet b n 0xB ≤ 63) && inGet b n 0xF == 0)))

/-- Point and signal streams keep the pixel sub-indices at their defaults, pixel streams 0x32 to 0x34 (R238). -/
def defaultsOk (b : Blk) (n : Nat) : Bool :=
  let kept := if inPixels b n then [0x32, 0x33, 0x34] else (List.range 22).map (0x17 + ·)
  kept.all (fun s => inGet b n s == objDefault b.fuses b.dev.nodeId (0x3000 + n) s)

def streamsRuleOk (b : Blk) : Bool := (List.range 32).all (fun n => !inEnabled b n || enabledRuleOk b n)
def tapsRuleOk (b : Blk) : Bool :=
  (List.range 64).all (fun s => odGet b (0x6000 + s) 2 != 1 || odGet b (0x6000 + s) 3 != 1 ||
    (decide (odGet b (0x6000 + s) 5 ≤ 31) && inEnabled b (odGet b (0x6000 + s) 5) && odGet b (0x6000 + s) 6 != 5))

/-! ## Output streams and ports (10 R269, R270; 12 R319; 17 R444) -/

/-- The enabled result streams of a port. -/
def resultsOn (b : Blk) (port : Nat) : List Nat :=
  (List.range 64).filter (fun s => odGet b (0x6000 + s) 2 == 1 && odGet b (0x6000 + s) 3 == 0 && odGet b (0x6000 + s) 6 == port)
/-- The longest record of a stream with its framing (R269, R319). -/
def longestRecord (b : Blk) (s : Nat) : Nat := 192 + 16 * odGet b (0x6000 + s) 8 + odGet b (0x6000 + s) 7

def budgetsOk (b : Blk) : Bool :=
  (List.range 5).all (fun p => decide ((resultsOn b p).foldl (fun a s => a + longestRecord b s) 0 ≤ (if p = 0 then 4500 else 2250)))

/-- An IPv4 address, written as IPv4-mapped IPv6. -/
def isIpv4 (v : Nat) : Bool := fld v 79 0 == 0 && fld v 95 80 == 0xFFFF

/-- The class-7 open time of a port carries its result records (R319). -/
def gateRuleOk (b : Blk) (p : Nat) : Bool :=
  let es := gclEntries (odGet b (0x2820 + p) 0xA)
  let open_ := es.foldl (fun a e => a + (if e.1.testBit 7 then e.2 else 0)) 0
  let v4 := isIpv4 (odGet b (0x2820 + p) 3)
  let need := (resultsOn b (p + 1)).foldl (fun a s =>
    let r := longestRecord b s
    a + r + (if v4 then 94 * ceilDiv r 1448 else 114 * ceilDiv r 1428)) 0
  decide (4 * (gclCycle (odGet b (0x2820 + p) 0xA) / 2000 * need) ≤ 5 * open_)

/-- Fabric streams are OUT_STREAM of a collective, and the record slots of every link direction suffice (17 R444). -/
def fabricRuleOk (b : Blk) : Bool :=
  (resultsOn b 5).all (fun s => (List.range 32).any (fun k => collGet b k 2 != 0 && collGet b k 5 == s)) &&
  (List.range 3).all (fun p => decide (((resultsOn b 5).filter (fun s => (fabricPorts b s).contains p)).foldl
    (fun a s => a + streamFlits b s) 0 ≤ 98))

/-- PLAUS_STREAM carries the corridor (15 R405). -/
def corridorOk (b : Blk) : Bool :=
  let s := odGet b 0x2330 2
  odGet b 0x2330 1 == 0 || decide (64 ≤ s) || decide (odGet b 0x2330 3 + 64 ≤ odGet b (0x6000 + s) 7)

/-- The output streams together (10 R270). -/
def outsRuleOk (b : Blk) : Bool :=
  let on := (List.range 64).filter (fun s => odGet b (0x6000 + s) 2 == 1 && odGet b (0x6000 + s) 3 == 0)
  (List.range 64).all (fun s => odGet b (0x6000 + s) 7 % 64 == 0) &&
  on.all (fun s => on.all (fun r => r == s || odGet b (0x6000 + r) 4 == none16 || odGet b (0x6000 + r) 4 != odGet b (0x6000 + s) 4)) &&
  tapsRuleOk b && budgetsOk b && (List.range 4).all (gateRuleOk b) && fabricRuleOk b && corridorOk b

/-- A collective (17 R456). -/
def collRuleOk (b : Blk) (k : Nat) : Bool :=
  collGet b k 2 == 0 ||
  (decide (2 ≤ casSize b) && (decide (1024 ≤ collGet b k 6) || inPoolOf b (collGet b k 6) (collGet b k 7)))

/-! ## The other relations -/

/-- SEVERITY against LASTING_SEVERITY (16 R410). -/
def lastingOk (b : Blk) : Bool :=
  (List.range 512).all (fun s => decide (fld (odGet b 0x2401 1) (8 * s + 7) (8 * s) ≤ fld (odGet b 0x2401 2) (8 * s + 7) (8 * s)))

/-- A trigger's period and width (11 R282). -/
def trigRuleOk (b : Blk) (k : Nat) : Bool :=
  let per := odGet b (0x2120 + k) 4
  let width := odGet b (0x2120 + k) 7
  decide (1000 ≤ per) && decide (40 ≤ width) && decide (width + 40 ≤ per)

/-- RT_SHARE (10 R271). -/
def sharesOk (b : Blk) : Bool :=
  let v := (List.range 32).map (fun n => odGet b 0x6080 (3 + n))
  v.all (· % 64 == 0) && decide (v.foldl (· + ·) 0 ≤ 32768)

/-- A member of a cascade that is not its master disciplines no time (17 R437). -/
def followsMaster (b : Blk) : Bool := decide (2 ≤ casSize b) && casMe b != 0

/-- The relations that a sub-index takes part in hold among the values of `b` (0x0800_0020). -/
def relationOk (b : Blk) (idx sub : Nat) : Bool :=
  if idx = 0x2101 then
    !((odGet b 0x2101 4).testBit (odGet b 0x2101 3)) && (!followsMaster b || odGet b 0x2101 2 == 0)
  else if idx = 0x2102 then !followsMaster b || odGet b 0x2102 1 == 0
  else if 0x2120 ≤ idx ∧ idx < 0x2140 then trigRuleOk b (idx - 0x2120) && streamsRuleOk b
  else if idx = 0x2210 then decide ((odGet b 0x2210 2 : Int) + 2 ≤ sgn 8 (odGet b 0x2210 3))
  else if idx = 0x2330 then corridorOk b
  else if idx = 0x2401 then lastingOk b
  else if 0x2640 ≤ idx ∧ idx < 0x26C0 then
    poolRuleOk b (idx - 0x2640) && streamsRuleOk b && slotsRuleOk b && (List.range 32).all (collRuleOk b)
  else if 0x26E0 ≤ idx ∧ idx < 0x2700 then slotsRuleOk b
  else if 0x2720 ≤ idx ∧ idx < 0x2740 then collRuleOk b (idx - 0x2720) && fabricRuleOk b
  else if 0x2820 ≤ idx ∧ idx < 0x2824 then gateRuleOk b (idx - 0x2820)
  else if idx = 0x2824 then
    !(within sub 5 0xA) || odGet b 0x2824 sub == objDefault b.fuses b.dev.nodeId 0x2824 sub
  else if 0x3000 ≤ idx ∧ idx < 0x3020 then
    defaultsOk b (idx - 0x3000) && streamsRuleOk b && tapsRuleOk b &&
    (decide (63 < inLayout b (idx - 0x3000)) || layoutRuleOk b (inLayout b (idx - 0x3000)))
  else if 0x3100 ≤ idx ∧ idx < 0x3140 then layoutRuleOk b (idx - 0x3100) && streamsRuleOk b
  else if 0x4800 ≤ idx ∧ idx < 0x4840 then slotsRuleOk b
  else if 0x6000 ≤ idx ∧ idx < 0x6040 then outsRuleOk b
  else if idx = 0x6080 then sharesOk b
  else true

/-! ## Checks with codes of their own -/

/-- A committed REQUESTED_STATE names a transition of 01 R21 from the present state (R23; 13 R338; 17 R435, R441, R452); so
CONFIG requested in CONFIG is refused (DEDUCED, log 95), a device whose start-up checks have failed stays in CONFIG (15 R389),
and asked for again while the device drains towards it has no further
effect (R22), in SQUALL too (R24). -/
def requestAllowed (b : Blk) (v : Nat) : Bool :=
  let st := odGet b 0x2700 4
  let alone := casSize b ≤ 1
  let here := st != 3 && !(formed b && casMe b != 0) && b.links.joint.isNone
  here &&
  (match v, b.dev.state with
   | 2, .run => true
   | 2, .adapt => true
   | 2, .squall => b.dev.draining
   | 3, .config => (alone || st == 2) && b.dev.checksPassed && ctxGet b 0 0x0B == 2 && (List.range 6).all (fun k => pairState b k == 1)
   | 4, .config => (alone || st == 2) && stationary b && mayLeaveConfig b
   | 7, .config => mayLeaveConfig b
   | _, _ => false)

/-- SPLIT_ENTRY of a pair's section of the active image. -/
def splitEntry (b : Blk) (k : Nat) : Nat :=
  match b.cores.active with
  | some a => secField a.bytes k 12
  | none => 0

/-- The abort code of one write of a commit: `old` as committed, `new` as the commit would leave it. -/
def commitCheck (old new : Blk) (x : StageWrite) : Nat :=
  let a := objAccess x.idx x.sub
  let n := x.idx - 0x4000
  if (a == 2 || a == 4) && old.dev.state != .config then 0x08000022
  else if x.idx = 0x2000 ∧ x.sub = 2 ∧ requestAllowed new x.val = false then 0x08000022
  else if x.idx = 0x2500 ∧ x.sub = 7 ∧ x.val ≠ 0 ∧ odGet old 0x2500 7 ≠ x.val ∧ old.cores.pending.isNone = true then 0x08000024
  else if 0x2512 ≤ x.idx ∧ x.idx < 0x2516 ∧ x.sub = 2 ∧ x.val = 1 ∧ (old.dev.state == .config || old.dev.state == .adapt) = false then
    0x08000022
  else if 0x2512 ≤ x.idx ∧ x.idx < 0x2516 ∧ x.sub = 2 ∧ x.val = 1 ∧ splitEntry old (x.idx - 0x2510) = 0 then 0x06090030
  else if 0x26E0 ≤ x.idx ∧ x.idx < 0x2700 ∧ x.sub = 0x17 ∧ bit x.val 63 = false ∧
      pinOk new (x.idx - 0x26E0) (fld x.val 41 0) (bit x.val 62) = false then 0x06090030
  else if 0x4000 ≤ x.idx ∧ x.idx < 0x4400 ∧ x.sub = 0xA ∧ x.val = 1 ∧ odGet old 0x2700 4 = 3 then 0x08000022
  else if 0x4000 ≤ x.idx ∧ x.idx < 0x4400 ∧ x.sub = 0xA ∧ x.val = 0 ∧ holdsAdmission old n = true ∧
      classNow old (ctxClass old n) = false then 0x08000022
  else if relationOk new x.idx x.sub = false then 0x08000020
  else 0

/-! ## Applying -/

/-- Sub-indices that command something and hold no value. -/
def isAction (idx sub : Nat) : Bool :=
  (idx == 0x2100 && sub == 9) || (idx == 0x2102 && sub == 2) ||
  (decide (0x26E0 ≤ idx) && decide (idx < 0x2700) && (sub == 0x14 || sub == 0x17))

def applyWrite (x : StageWrite) (w : Work) : Work := if isAction x.idx x.sub then w else odPut x.idx x.sub x.val w

def addEffect (e : Effect) (w : Work) : Work := { w with links.effects := w.links.effects ++ [e] }

/-- What one applied write brings with it: `old` as it stood, `order` of its commit. -/
def writeEffect (old : Blk) (order : Nat) (x : StageWrite) (w : Work) : Work :=
  let changed := odGet old x.idx x.sub != x.val
  if x.idx = 0x2000 then
    doIf (x.sub == 2 && !(x.val == 2 && w.dev.draining)) (addEffect (.request x.val)) w
  else if x.idx = 0x2100 then doIf (x.sub == 9 && x.val == 1) (addEffect .mapReset) w
  else if x.idx = 0x2101 then doIf ((x.sub == 2 || x.sub == 8) && changed) roleCommit w
  else if x.idx = 0x2102 then
    (match x.sub with
     | 2 => addEffect (.ppsSeconds x.val) w
     | 3 => doIf changed (trigCommit 32) w
     | _ => w)
  else if 0x2120 ≤ x.idx ∧ x.idx < 0x2140 then 
    doIf (within x.sub 3 6 && changed) (trigAnew (x.idx - 0x2120)) (doIf (x.sub == 2 && changed) (trigCommit (x.idx - 0x2120)) w)
  else if 0x2140 ≤ x.idx ∧ x.idx < 0x2154 then doIf changed (inputCommit (x.idx - 0x2140)) w
  else if x.idx = 0x2200 then doIf (x.sub == 2) capCommit w
  else if x.idx = 0x2220 then doIf (x.sub == 2 && x.val == 1) (fun w => { w with pow.coolOn := true }) w
  else if x.idx = 0x2500 then doIf (x.sub == 7 && changed) (addEffect (if x.val = 0 then .deactivate else .activate)) w
  else if 0x2512 ≤ x.idx ∧ x.idx < 0x2516 then
    doIf (x.sub == 2 && changed) (addEffect (if x.val = 1 then .split (x.idx - 0x2510) else .rejoin (x.idx - 0x2510))) w
  else if 0x26E0 ≤ x.idx ∧ x.idx < 0x2700 then
    let t := x.idx - 0x26E0
    (match x.sub with
     | 0x14 => doIf (x.val == 1) (addEffect (.tmReset t)) w
     | 0x17 => addEffect (if bit x.val 63 then .unpin t (fld x.val 41 0) else .pin t (fld x.val 41 0) (bit x.val 62)) w
     | _ => odPut 0x26C0 4 (tmQuotas w.toBlk) (tmCommit t (within x.sub 2 0xC && changed) w))
  else if 0x3000 ≤ x.idx ∧ x.idx < 0x3020 then
    let n := x.idx - 0x3000
    doIf (x.sub == 2 && changed) (inEnableCommit n) (doIf (within x.sub 0x10 0x35 && changed) (cacheClearOf n) w)
  else if 0x3100 ≤ x.idx ∧ x.idx < 0x3140 then
    doIf changed (forAll ((List.range 32).filter (fun n => inLayout w.toBlk n == x.idx - 0x3100)) cacheClearOf) w
  else if 0x4000 ≤ x.idx ∧ x.idx < 0x4400 then
    doIf (x.sub == 0xA) (addEffect (if x.val = 1 then .admission (x.idx - 0x4000) order else .withdraw (x.idx - 0x4000))) w
  else if 0x4800 ≤ x.idx ∧ x.idx < 0x4840 then w
  else if 0x5000 ≤ x.idx ∧ x.idx < 0x5040 then
    doIf (x.sub == 0x60 && changed) (forAll ((List.range 4).map (4 * (x.idx - 0x5000) + ·)) (fun e =>
      modEngine e (fun g => { g with cache := [] }))) w
  else w

/-- A commit applies: every write together, the generation, and what they bring with them. -/
def commitApply (s : Stage) (w : Work) : Work :=
  let old := w.toBlk
  let w := forAll s.writes applyWrite w
  let w := odPut 0x2001 4 w.time.beat (odPut 0x2002 1 ((odGet w.toBlk 0x2002 1 + 1) % 2 ^ 32) w)
  forAll s.writes (writeEffect old s.order) w

/-- The page maps as pins, unpins and resets that wait for the boundary's effects, and the resets of the stage itself, will
have left them, so that a pin is checked against the commits before it (08 R193, R300). -/
def mapsAfter (s : Stage) (w : Work) : Work :=
  let w := forAll w.links.effects (fun e w => match e with
    | .pin t p g => pinPage t p g w
    | .unpin t p => unpinPage t p w
    | .tmReset t => tmReset t w
    | _ => w) w
  forAll s.writes (fun x w =>
    doIf (decide (0x26E0 ≤ x.idx) && decide (x.idx < 0x2700) && x.sub == 0x14 && x.val == 1) (tmReset (x.idx - 0x26E0)) w) w

/-- A request for a state that every member of the cascade must join (17 R441). -/
def jointAsked (b : Blk) (s : Stage) : Bool :=
  formed b && b.links.effects.any (fun e => match e with | .request _ => true | _ => false) &&
  s.writes.any (fun x => x.idx == 0x2000 && x.sub == 2)

/-- COMMIT_APPLY: the commit of a link's stage at its boundary (R299, R300). -/
def commitDue (link : Nat) (w : Work) : Work :=
  let s := stageOf w.toBlk link
  match s.commitAt with
  | none => w
  | some at_ =>
    if w.time.beat < at_ then w
    else
      let old := w.toBlk
      let reply := fun (code : Nat) (w : Work) => match s.reply with | some r => commitAnswer r code w | none => w
      let open_ := w.dev.escalate.isNone && (w.dev.state == .config || activeState w.toBlk)
      let new := (mapsAfter s (forAll s.writes applyWrite w)).toBlk
      let code := if open_ then ((s.writes.map (commitCheck old new)).find? (· != 0)).getD 0 else 0x08000022
      let w := modStage link (fun _ => Stage.empty) w
      if code ≠ 0 then reply code (odAdd 0x2001 5 1 w)
      else
        let w := commitApply s w
        if jointAsked w.toBlk s then
          match s.reply with
          | some r => { w with links.joint := some (r, odGet old 0x2000 2) }
          | none => w
        else reply 0 w

/-- Every commit of a boundary, in the order in which their COMMIT writes arrived. -/
def commitsDue (w : Work) : Work :=
  let due := (List.range 4).filter (fun l => match (stageOf w.toBlk l).commitAt with | some t => decide (t ≤ w.time.beat) | none => false)
  let order := fun (l : Nat) => (stageOf w.toBlk l).order
  let sorted := due.foldl (fun r l => r.filter (fun x => decide (order x ≤ order l)) ++ [l] ++ r.filter (fun x => decide (order l < order x))) []
  forAll sorted commitDue w

end Sys2Proof.Machine
end

