-- ==== Sys2Proof/Machine/Boundary.lean ====
section
/-! DEFINITION. The beat boundary (02 R33): what the hub carries out, in its order. It performs every event that the rules
fix at a boundary by the state alone; the rows of such events act by themselves only where one is due and has not been
done (log 58). -/

namespace Sys2Proof.Machine

/-! ## Step 2: commits, transitions, the schedule -/

/-- One committed effect that takes effect with its commit. -/
def runEffect (e : Effect) (w : Work) : Work :=
  match e with
  | .admission n order => admitRequest n order w
  | .withdraw n => withdrawRequest n w
  | .mapReset => mapReset w
  | .ppsSeconds v => { w with time.ppsSeconds := some v }
  | .pin t p g => pinPage t p g w
  | .unpin t p => unpinPage t p w
  | .tmReset t => tmReset t w
  | .rejoin k => rejoinNow k w
  | .joined k => joinedNow k w
  | .activate => fwWanted true w
  | .deactivate => fwWanted false w
  | .request _ => w
  | .split _ => w

def isRequest : Effect → Bool
  | .request _ => true
  | _ => false
/-- A request waits for the transitions, a split for the pair's sync point (13 R336). -/
def waitsOn : Effect → Bool
  | .request _ => true
  | .split _ => true
  | _ => false

def isAdmit (n : Nat) : Effect → Bool
  | .admission m _ => m == n
  | _ => false
def isPin : Effect → Bool
  | .pin _ _ _ => true
  | _ => false
def isUnpin : Effect → Bool
  | .unpin _ _ => true
  | _ => false
def isTmReset : Effect → Bool
  | .tmReset _ => true
  | _ => false
def isPpsSeconds : Effect → Bool
  | .ppsSeconds _ => true
  | _ => false

/-- One effect by its row: the first that satisfies the test. -/
def effectRow (ok : Effect → Bool) (w : Work) : Work :=
  match takeEffect ok w with
  | (none, w) => w
  | (some e, w) => runEffect e w

def effectsStep (w : Work) : Work :=
  let now := w.links.effects.filter (fun e => !waitsOn e)
  forAll now runEffect { w with links.effects := w.links.effects.filter waitsOn }

/-- The committed requests, and what no longer fits is discarded (01 R24). -/
def requestsStep (w : Work) : Work :=
  if formed w.toBlk then jointState (jointRequest w)
  else
    let codes := w.links.effects.filterMap (fun e => match e with | .request c => some c | _ => none)
    forAll codes requestState { w with links.effects := w.links.effects.filter (fun e => !isRequest e) }

/-- The transitions in the order of 01 R24, and those that end a state by themselves. -/
def transitions (w : Work) : Work :=
  let w := escalation (resetBegin w)
  let w := stationaryLost (squallEntry w)
  let w := requestsStep w
  firmwareStart (squallExit (drainComplete w))

/-- The schedule: decisions that commit, withdrawals, the recomputation. -/
def schedules (w : Work) : Work :=
  let w := recomputeCommit (jointSchedule (scheduleCommit w))
  let due := (w.ctxs.filter (fun p => p.2.withdrawAt.isSome)).map (·.1)
  forAll due withdrawalEffect w

/-- Step 2 of R33. -/
def boundaryTwo (w : Work) : Work :=
  let w := commitsDue (cascadeStep w)
  let w := effectsStep w
  let w := transitions (planExhausted (holdBegin w))
  let w := resumption (resetAssert w)
  let w := forAll (List.range (quadCount w.fuses)) suspectRemedy w
  let w := activationBegin (schedules w)
  holdExpire (heavyRaise (heavyEnd w))

/-! ## Steps 3 and 4: results and releases -/

/-- Step 3: the response times end, the guard path publishes, the output unit closes one record of each stream. -/
def boundaryThree (met : BeatMet) (w : Work) : Work :=
  let ns := w.slices.map (·.1)
  let w := forAll ns deadlineMissed (forAll ns (responseEnd met.maps) (cfgStep w))
  let g := guardOutput w
  let w := hubCleanStep (closeAll g.1 met.payloads g.2)
  { w with guard.mismatch := false }

/-- Step 4: the releases, in the service order of R36. -/
def boundaryFour (met : BeatMet) (w : Work) : Work :=
  let due := inOrder w.toBlk ((admitted w.toBlk).filter (releaseDue w.toBlk))
  replaySilent (writersResume (ackStep (forAll due (releaseSlice met.maps) w)))

/-! ## What shows at each boundary -/

/-- ERROR_REGISTER (12 R306). -/
def errorRegister (b : Blk) : Nat :=
  let e := if b.dev.state = .squall then b.dev.emergency else 0
  b2n (faultLow b) + 4 * b2n (e.testBit 0 || e.testBit 4) + 8 * b2n (e.testBit 1 || e.testBit 2 || e.testBit 3) +
  128 * b2n (b.dev.state == .safe)

def shownStep (readback : Bool) (w : Work) : Work :=
  let w := coolingUpdate (extWdg (wdgStep (safeOkStep readback (tmBoundary w))))
  let w := membersStep w
  let w := odPut 0x2430 5 (min 255 (resetsInWindow w.toBlk)) w
  odPut 0x1001 0 (errorRegister w.toBlk) w

/-- The gate control lists take effect at the start of a cycle (12 R319). -/
def gclStep (w : Work) : Work :=
  forAll (List.range 4) (fun p w =>
    let new := odGet w.toBlk (0x2820 + p) 0xA
    let now := (tabFind w.links.gcl p).getD (objDefault w.fuses w.dev.nodeId (0x2820 + p) 0xA)
    let cycle := gclCycle now / 2000
    if new ≠ now ∧ (cycle = 0 ∨ w.time.beat % cycle = 0) then { w with links.gcl := tabSet 0 w.links.gcl p new } else w) w

/-- BEAT_BOUNDARY: the counter advances, and steps 2 to 5 follow in their order. The burst slots of step 5 stand open from
the boundary, and the channel commands take them. `met` is what it meets of pins and stores. Neither PORST_N nor a stopped REFCLK lets a beat begin. -/
def beatBoundary (met : BeatMet) (w : Work) : Work :=
  if w.dev.state = .porst ∨ w.dev.noRefclk = true then w
  else
    let aborts := w.casc.abortOut
    let beat := w.time.beat + 1
    let w := { w with casc.abortOut := 0, time := { w.time with beat := beat, ns := 2000 * beat }, res.used := [] }
    let w := boundaryTwo (mapUpdate (holdoverExpire w))
    let w := gclStep (droopBeat (timeBeat w))
    let w := boundaryFour met (boundaryThree met w)
    controlSend aborts (shownStep met.pins w)

/-- ADMISSION_DECISION. In a formed cascade the master announces the schedule's boundary, `remote` saying that it holds
contexts of other members, and a member waits for the announcement (17 R442). -/
def admissionDecided (delay : Nat) (others : List (Nat × Nat × Nat)) (remote : Bool) (w : Work) : Work :=
  if formed w.toBlk = false then admissionDecision delay [] w
  else if casMe w.toBlk = 0 ∧ w.casc.schedule.isSome = true then w
  else
    let was := decidedCtxs w.toBlk
    let w := admissionDecision delay others w
    let new := (decidedCtxs w.toBlk).filter (fun n => !was.contains n)
    if casMe w.toBlk = 0 then
      if (new.isEmpty && !remote) || !pairRuns w.toBlk 2 then w
      else { w with casc.schedule := some (w.time.beat + max 8 delay, (odGet w.toBlk 0x2010 1 + 1) % 2 ^ 32) }
    else forAll new (fun n w => modCtx n (fun c => { c with decided := c.decided.map (fun d => (2 ^ 64, d.2)) }) w) w

end Sys2Proof.Machine
end

