-- ==== Sys2Proof/Machine/CheckingRows.lean ====
section
/-! DEFINITION. The commands of checking and self-test (15) and of faults, watches and the compute-part reset (16). -/

namespace Sys2Proof.Machine

/-- GARNET_WINDOW_EXPIRE: the Garnet slice of quad q has not completed in its window (15 R383). -/
def execGarnetWindowExpire (q : Nat) (s : State) : Host.Outcome State Fault Refusal :=
  perform (Instr.wf (.garnetWindowExpire q)) (isQuad q s) (garnetExpire q) s

/-- DIAGNOSTIC_CYCLE_END: a diagnostic cycle ends; the hub's checkers that failed and those not exercised (15 R390,
R391). -/
def execDiagnosticCycleEnd (failed : List (Nat × Nat)) (missed : List Nat) (s : State) : Host.Outcome State Fault
    Refusal :=
  perform (Instr.wf (.diagnosticCycleEnd failed missed)) (true) (cycleEnd failed missed) s

/-- TEST_STEP: a test step on quad q and its verdict (15 R391). -/
def execTestStep (q : Nat) (item : Nat) (t : Nat) (ok : Bool) (s : State) : Host.Outcome State Fault Refusal :=
  perform (Instr.wf (.testStep q item t ok)) (isQuad q s) (testStep q item t ok) s

/-- STARTUP_CHECKS: the start-up checks with what failed (15 R389). -/
def execStartupChecks (fails : List (Nat × Nat × Bool)) (s : State) : Host.Outcome State Fault Refusal :=
  perform (Instr.wf (.startupChecks fails)) (true) (startupChecks fails) s

/-- GUARD_PATH_MISMATCH: a lockstep mismatch of the guard path (15 R392). -/
def execGuardPathMismatch (prog : Nat) (s : State) : Host.Outcome State Fault Refusal :=
  perform (Instr.wf (.guardPathMismatch prog)) (true) (guardMismatch prog) s

/-- PLAUSIBILITY_COMPARE: pair 0 compares a result with the guard output (15 R396). -/
def execPlausibilityCompare (s : State) : Host.Outcome State Fault Refusal :=
  perform (Instr.wf (.plausibilityCompare)) (true) (plausCompare) s

/-- SUSPECT_REMEDY: the remedy of a suspect quad (15 R398). -/
def execSuspectRemedy (q : Nat) (s : State) : Host.Outcome State Fault Refusal :=
  perform (Instr.wf (.suspectRemedy q)) (isQuad q s) (suspectRemedy q) s

/-- RETEST: the retest of a suspect quad (15 R398). -/
def execRetest (q : Nat) (beats : Nat) (pass : Bool) (s : State) : Host.Outcome State Fault Refusal :=
  perform (Instr.wf (.retest q beats pass)) (isQuad q s) (retest q beats pass) s

/-- EXT_WDG_PULSE: EXT_WDG at a multiple of its period (15 R402). -/
def execExtWdgPulse (s : State) : Host.Outcome State Fault Refusal :=
  perform (Instr.wf (.extWdgPulse)) (true) (extWdg) s

/-- FAULT_MESSAGE: a fault message reaches the collector, whose queue may be full (16 R407 to R413). -/
def execFaultMessage (msg : Nat) (master : Nat) (access : Nat) (full : Bool) (s : State) : Host.Outcome State Fault
    Refusal :=
  perform (Instr.wf (.faultMessage msg master access full)) (true) (faultMessage msg master access full) s

/-- STOP_ACK_TIMEOUT: engine e has not acknowledged a stop (16 R416). -/
def execStopAckTimeout (e : Nat) (n : Nat) (units : Nat) (s : State) : Host.Outcome State Fault Refusal :=
  perform (Instr.wf (.stopAckTimeout e n units)) (isEngine e s) (stopAckTimeout e n units) s

/-- PROGRESS_STALLED: a slot of engine e makes no progress (16 R417). -/
def execProgressStalled (e : Nat) (n : Nat) (s : State) : Host.Outcome State Fault Refusal :=
  perform (Instr.wf (.progressStalled e n)) (isEngine e s) (progressStalled e n) s

/-- COMPUTE_RESET_BEGIN: step 1 of a compute-part reset (16 R420). -/
def execComputeResetBegin (s : State) : Host.Outcome State Fault Refusal :=
  perform (Instr.wf (.computeResetBegin)) (true) (resetBegin) s

/-- COMPUTE_RESET_DUMP: step 2: the dump, with the entries that are taken and those that time out (16 R421). -/
def execComputeResetDump (taken : Nat) (lost : List Nat) (s : State) : Host.Outcome State Fault Refusal :=
  perform (Instr.wf (.computeResetDump taken lost)) (true) (resetDump taken lost) s

/-- COMPUTE_RESET_ASSERT: step 3 (16 R422). -/
def execComputeResetAssert (s : State) : Host.Outcome State Fault Refusal :=
  perform (Instr.wf (.computeResetAssert)) (true) (resetAssert) s

/-- COMPUTE_RESET_RELEASE: step 4: the release and its tests, with the quads that fail (16 R422). -/
def execComputeResetRelease (fails : List (Nat × Nat)) (beats : Nat) (s : State) : Host.Outcome State Fault Refusal :=
  perform (Instr.wf (.computeResetRelease fails beats)) (true) (resetRelease fails beats) s

/-- RESUMPTION: step 5 (16 R423). -/
def execResumption (s : State) : Host.Outcome State Fault Refusal :=
  perform (Instr.wf (.resumption)) (true) (resumption) s

end Sys2Proof.Machine
end

