-- ==== Sys2Proof/Machine/CoresRows.lean ====
section
/-! DEFINITION. The commands of the control cores (13 R325 to R342). -/

namespace Sys2Proof.Machine

/-- COMPARATOR_MISMATCH: the comparator of pair k sees a mismatch (13 R325). -/
def execComparatorMismatch (k : Nat) (s : State) : Host.Outcome State Fault Refusal :=
  perform (Instr.wf (.comparatorMismatch k)) (true) (comparatorMismatch k) s

/-- PAIR_RESTART: a restart of pair k for a cause, with the outcome of its test and of its section's digest (13 R332).
-/
def execPairRestart (k : Nat) (cause : Nat) (pc : Nat) (testOk : Bool) (digestOk : Bool) (s : State) : Host.Outcome
    State Fault Refusal :=
  perform (Instr.wf (.pairRestart k cause pc testOk digestOk)) (true) (pairRestart k cause pc testOk digestOk) s

/-- PAIR_HEARTBEAT: pair k writes its heartbeat (16 R418). -/
def execPairHeartbeat (k : Nat) (s : State) : Host.Outcome State Fault Refusal :=
  perform (Instr.wf (.pairHeartbeat k)) (true) (pairHeartbeat k) s

/-- HEARTBEAT_MISSED: pair k's heartbeat is late (16 R418). -/
def execHeartbeatMissed (k : Nat) (s : State) : Host.Outcome State Fault Refusal :=
  perform (Instr.wf (.heartbeatMissed k)) (true) (heartbeatMissed k) s

/-- PAIR_SPLIT: pair k reaches its sync point and splits (13 R336). -/
def execPairSplit (k : Nat) (s : State) : Host.Outcome State Fault Refusal :=
  perform (Instr.wf (.pairSplit k)) (true) (pairSplit k) s

/-- PAIR_REJOIN: pair k rejoins (13 R337). -/
def execPairRejoin (k : Nat) (s : State) : Host.Outcome State Fault Refusal :=
  perform (Instr.wf (.pairRejoin k)) (true) (pairRejoin k) s

/-- DEBUG_HALT: the debugger halts pair k (13 R339). -/
def execDebugHalt (k : Nat) (s : State) : Host.Outcome State Fault Refusal :=
  perform (Instr.wf (.debugHalt k)) (true) (debugHalt k) s

/-- DEBUG_ACCESS: the debugger reads or writes in halted pair k (13 R339). -/
def execDebugAccess (k : Nat) (write : Bool) (s : State) : Host.Outcome State Fault Refusal :=
  perform (Instr.wf (.debugAccess k write)) (true) (debugAccess k write) s

/-- FW_ACTIVATE_REQUEST: committed FW_ACTIVATE_REQUEST asks for activation (13 R341). -/
def execFwActivateRequest (s : State) : Host.Outcome State Fault Refusal :=
  perform (Instr.wf (.fwActivateRequest)) (true) (fwActivate true) s

/-- FW_ACTIVATE_WITHDRAW: committed FW_ACTIVATE_REQUEST withdraws (13 R341). -/
def execFwActivateWithdraw (s : State) : Host.Outcome State Fault Refusal :=
  perform (Instr.wf (.fwActivateWithdraw)) (true) (fwActivate false) s

/-- ACTIVATION_BEGIN: the activation begins (13 R342). -/
def execActivationBegin (s : State) : Host.Outcome State Fault Refusal :=
  perform (Instr.wf (.activationBegin)) (true) (activationBegin) s

/-- ACTIVATION_COMPLETE: every restarted pair has reported (13 R342). -/
def execActivationComplete (s : State) : Host.Outcome State Fault Refusal :=
  perform (Instr.wf (.activationComplete)) (true) (activationComplete) s

/-- GARNET_PLAN_WRITE: pair 2 writes the plan of a half cycle (13 R335). -/
def execGarnetPlanWrite (half : Nat) (starts : List (Nat × Nat)) (s : State) : Host.Outcome State Fault Refusal :=
  perform (Instr.wf (.garnetPlanWrite half starts)) (true) (garnetPlan half starts) s

/-- SCHEDULE_PLAN_EXHAUSTED: the plan ends with pair 2 absent (13 R335). -/
def execSchedulePlanExhausted (s : State) : Host.Outcome State Fault Refusal :=
  perform (Instr.wf (.schedulePlanExhausted)) (true) (planExhausted) s

/-- DEBUGGER_CONNECT: a debugger connects (13 R339). -/
def execDebuggerConnect (s : State) : Host.Outcome State Fault Refusal :=
  perform (Instr.wf (.debuggerConnect)) (true) (debuggerConnect) s

/-- DEBUG_RESUME: the debugger lets pair k go on (13 R339). -/
def execDebugResume (k : Nat) (s : State) : Host.Outcome State Fault Refusal :=
  perform (Instr.wf (.debugResume k)) (true) (debugResume k) s

end Sys2Proof.Machine
end

