-- ==== Sys2Proof/Machine/DeviceRows.lean ====
section
/-! DEFINITION. The commands of the resets, the start and the device states (01 R17 to R28, 18 R462 to R470). -/

namespace Sys2Proof.Machine

/-- PORST_N_RELEASE: PORST_N is released with the straps NODE_ID and CASC_ROLE (01 R21, 18 R467). -/
def execPorstNRelease (node : Nat) (casc : Nat) (s : State) : Host.Outcome State Fault Refusal :=
  perform (Instr.wf (.porstNRelease node casc)) (true) (porstRelease node casc) s

/-- PORST_N_ASSERT: PORST_N is asserted (18 R469). -/
def execPorstNAssert (s : State) : Host.Outcome State Fault Refusal :=
  perform (Instr.wf (.porstNAssert)) (true) (porstAssert) s

/-- LULL_READY: the fuses are read and the inputs conditioned (18 R470). -/
def execLullReady (s : State) : Host.Outcome State Fault Refusal :=
  perform (Instr.wf (.lullReady)) (true) (lullReady) s

/-- WAKE: WAKE is accepted in LULL (01 R21, 14 R355). -/
def execWake (s : State) : Host.Outcome State Fault Refusal :=
  perform (Instr.wf (.wake)) (true) (wake) s

/-- REFCLK_STOP: REFCLK stops (18 R471). -/
def execRefclkStop (s : State) : Host.Outcome State Fault Refusal :=
  perform (Instr.wf (.refclkStop)) (true) (refclkStop) s

/-- WARM_RST_N_ASSERT: WARM_RST_N is asserted (01 R28). -/
def execWarmRstNAssert (s : State) : Host.Outcome State Fault Refusal :=
  perform (Instr.wf (.warmRstNAssert)) (true) (warmAssert) s

/-- WARM_RST_N_RELEASE: WARM_RST_N is released (01 R28). -/
def execWarmRstNRelease (s : State) : Host.Outcome State Fault Refusal :=
  perform (Instr.wf (.warmRstNRelease)) (true) (warmRelease) s

/-- RETAINED_FIRMWARE_CHECK: the boot ROM checks the retained image, which is or is not intact (01 R26). -/
def execRetainedFirmwareCheck (intact : Bool) (s : State) : Host.Outcome State Fault Refusal :=
  perform (Instr.wf (.retainedFirmwareCheck intact)) (true) (retainedCheck intact) s

/-- USB_ENUMERATE: the USB device enumerates (13 R331). -/
def execUsbEnumerate (speed : Nat) (s : State) : Host.Outcome State Fault Refusal :=
  perform (Instr.wf (.usbEnumerate speed)) (true) (usbEnumerate speed) s

/-- FIRMWARE_START: every pair has reported its first heartbeat (13 R331). -/
def execFirmwareStart (s : State) : Host.Outcome State Fault Refusal :=
  perform (Instr.wf (.firmwareStart)) (true) (firmwareStart) s

/-- REQUEST_CONFIG: the committed request for CONFIG (01 R21, R22). -/
def execRequestConfig (s : State) : Host.Outcome State Fault Refusal :=
  perform (Instr.wf (.requestConfig)) (true) (requestRow 2) s

/-- REQUEST_RUN: the committed request for RUN (01 R21). -/
def execRequestRun (s : State) : Host.Outcome State Fault Refusal :=
  perform (Instr.wf (.requestRun)) (true) (requestRow 3) s

/-- REQUEST_ADAPT: the committed request for ADAPT (01 R21, R25). -/
def execRequestAdapt (s : State) : Host.Outcome State Fault Refusal :=
  perform (Instr.wf (.requestAdapt)) (true) (requestRow 4) s

/-- REQUEST_LULL: the committed request for LULL (01 R21, R26). -/
def execRequestLull (s : State) : Host.Outcome State Fault Refusal :=
  perform (Instr.wf (.requestLull)) (true) (requestRow 7) s

/-- DRAIN_COMPLETE: the drain of RUN or SQUALL ends in CONFIG (01 R22). -/
def execDrainComplete (s : State) : Host.Outcome State Fault Refusal :=
  perform (Instr.wf (.drainComplete)) (true) (drainComplete) s

/-- STATIONARY_LOST: the stationary indication is lost in ADAPT (01 R25). -/
def execStationaryLost (s : State) : Host.Outcome State Fault Refusal :=
  perform (Instr.wf (.stationaryLost)) (true) (stationaryLost) s

/-- WEIGHT_WRITE_BACK: the adaptation step of context n ends with the write-back of weights (01 R25, 10 R252). -/
def execWeightWriteBack (n : Nat) (m : List Byte) (s : State) : Host.Outcome State Fault Refusal :=
  perform (Instr.wf (.weightWriteBack n m)) (true) (weightWriteBack n m) s

/-- SQUALL_ENTRY: an emergency begins in RUN (14 R372). -/
def execSquallEntry (s : State) : Host.Outcome State Fault Refusal :=
  perform (Instr.wf (.squallEntry)) (true) (squallEntry) s

/-- SQUALL_EXIT: every emergency has cleared (14 R372). -/
def execSquallExit (s : State) : Host.Outcome State Fault Refusal :=
  perform (Instr.wf (.squallExit)) (true) (squallExit) s

/-- ESCALATION: the escalation to SAFE (16 R425). -/
def execEscalation (s : State) : Host.Outcome State Fault Refusal :=
  perform (Instr.wf (.escalation)) (true) (escalation) s

/-- BEAT_BOUNDARY: a beat boundary (02 R33). -/
def execBeatBoundary (readback : BeatMet) (s : State) : Host.Outcome State Fault Refusal :=
  perform (Instr.wf (.beatBoundary readback)) (true) (beatBoundary readback) s

end Sys2Proof.Machine
end

