-- ==== Sys2Proof/Machine/EngineRows.lean ====
section
/-! DEFINITION. The commands of the engines (03 to 06): each row's meaning over the operations of Passes, Control, Dma and
Vector. A row of an instruction acts when the engine's next instruction is of its kind, and changes nothing otherwise. -/

namespace Sys2Proof.Machine

/-- PASS_PLAIN: engine e issues a PASS of OP_KIND 0 (04 R82, 03 R65). -/
def execPassPlain (e : Nat) (s : State) : Host.Outcome State Fault Refusal :=
  perform (Instr.wf (.passPlain e)) (isEngine e s) (passRow 0 e) s

/-- PASS_DIAGONAL: engine e issues a PASS of OP_KIND 1 (05 R121). -/
def execPassDiagonal (e : Nat) (s : State) : Host.Outcome State Fault Refusal :=
  perform (Instr.wf (.passDiagonal e)) (isEngine e s) (passRow 1 e) s

/-- PASS_TRANSPOSED: engine e issues a PASS of OP_KIND 2 (05 R123). -/
def execPassTransposed (e : Nat) (s : State) : Host.Outcome State Fault Refusal :=
  perform (Instr.wf (.passTransposed e)) (isEngine e s) (passRow 2 e) s

/-- PASS_AVERAGE_POOL: engine e issues a PASS of OP_KIND 3 (05 R124). -/
def execPassAveragePool (e : Nat) (s : State) : Host.Outcome State Fault Refusal :=
  perform (Instr.wf (.passAveragePool e)) (isEngine e s) (passRow 3 e) s

/-- PASS_MAX_POOL: engine e issues a PASS of OP_KIND 4 (05 R125). -/
def execPassMaxPool (e : Nat) (s : State) : Host.Outcome State Fault Refusal :=
  perform (Instr.wf (.passMaxPool e)) (isEngine e s) (passRow 4 e) s

/-- PASS_START: a pass starts on a half of engine e's array (04 R92); ue names an uncorrectable word that it reads. -/
def execPassStart (e : Nat) (half : Bool) (ue : Option Nat) (ce : List Nat) (s : State) : Host.Outcome State Fault Refusal :=
  perform (Instr.wf (.passStart e half ue ce)) (isEngine e s) (withCorrected ce (startOn e half ue)) s

/-- PASS_COMPLETE: the pass of a half ends (03 R77); flag is what has struck it meanwhile. -/
def execPassComplete (e : Nat) (half : Bool) (flag : Upset) (s : State) : Host.Outcome State Fault Refusal :=
  perform (Instr.wf (.passComplete e half flag)) (isEngine e s) (completeOn e half flag) s

/-- PASS_RERUN: an abandoned chain is rerun (03 R79). -/
def execPassRerun (e : Nat) (half : Bool) (ue : Option Nat) (ce : List Nat) (s : State) : Host.Outcome State Fault Refusal :=
  perform (Instr.wf (.passRerun e half ue ce)) (isEngine e s) (withCorrected ce (rerunOn e half ue)) s

/-- PASSQ: engine e issues a PASSQ (04 R101). -/
def execPassq (e : Nat) (s : State) : Host.Outcome State Fault Refusal :=
  perform (Instr.wf (.passq e)) (isEngine e s) (issueRow e (isOp 4) (issuePassq e)) s

/-- TILE_TAKE: engine e takes an entry of quad q's tile queue (04 R102). -/
def execTileTake (e : Nat) (q : Nat) (s : State) : Host.Outcome State Fault Refusal :=
  perform (Instr.wf (.tileTake e q)) (isEngine e s && decide (q < quadCount s.blk.fuses)) (takeTile e q) s

/-- NOP: engine e issues a NOP (04 R82). -/
def execNop (e : Nat) (s : State) : Host.Outcome State Fault Refusal :=
  perform (Instr.wf (.nop e)) (isEngine e s) (issueRow e (isOp 0) issueNop) s

/-- END: engine e issues an END (04 R82). -/
def execEndOp (e : Nat) (s : State) : Host.Outcome State Fault Refusal :=
  perform (Instr.wf (.endOp e)) (isEngine e s) (issueRow e (isOp 1) (issueEnd e)) s

/-- SLICE_END: the slice of context n ends on engine e (04 R82). -/
def execSliceEnd (e : Nat) (n : Nat) (s : State) : Host.Outcome State Fault Refusal :=
  perform (Instr.wf (.sliceEnd e n)) (isEngine e s && ctxExists s.blk.fuses n) (Sys2Proof.Machine.sliceEnd e n) s

/-- SETDP: engine e issues a SETDP (04 R82). -/
def execSetdp (e : Nat) (s : State) : Host.Outcome State Fault Refusal :=
  perform (Instr.wf (.setdp e)) (isEngine e s) (issueRow e (isOp 2) (issueSetdp e)) s

/-- VCHAIN: engine e issues a VCHAIN (06 R138). -/
def execVchain (e : Nat) (s : State) : Host.Outcome State Fault Refusal :=
  perform (Instr.wf (.vchain e)) (isEngine e s) (issueRow e (isOp 5) (issueVchain e)) s

/-- DMA_COPY: engine e issues a DMA of KIND 0 (04 R99); ue names an uncorrectable word of its source. -/
def execDmaCopy (e : Nat) (ue : Option Nat) (ce : List Nat) (s : State) : Host.Outcome State Fault Refusal :=
  perform (Instr.wf (.dmaCopy e ue ce)) (isEngine e s) (withCorrected ce (dmaRow 0 e ue)) s

/-- DMA_BROADCAST: engine e issues a DMA of KIND 1 (04 R100). -/
def execDmaBroadcast (e : Nat) (ue : Option Nat) (ce : List Nat) (s : State) : Host.Outcome State Fault Refusal :=
  perform (Instr.wf (.dmaBroadcast e ue ce)) (isEngine e s) (withCorrected ce (dmaRow 1 e ue)) s

/-- DMA_FILL: engine e issues a DMA of KIND 2 (04 R98). -/
def execDmaFill (e : Nat) (s : State) : Host.Outcome State Fault Refusal :=
  perform (Instr.wf (.dmaFill e)) (isEngine e s) (dmaRow 2 e none) s

/-- DMA_COMPLETE: the j-th issued transfer of engine e completes (04 R99). -/
def execDmaComplete (e : Nat) (j : Nat) (s : State) : Host.Outcome State Fault Refusal :=
  perform (Instr.wf (.dmaComplete e j)) (isEngine e s) (Sys2Proof.Machine.dmaComplete e j) s

/-- LB_HELD_WRITE_RESUME: the held writes of engine e's j-th transfer go on (05 R110), the hub's writer first (07 R158). -/
def execLbHeldWriteResume (e : Nat) (j : Nat) (s : State) : Host.Outcome State Fault Refusal :=
  perform (Instr.wf (.lbHeldWriteResume e j)) (isEngine e s) (fun w => dmaResume e j (writersResume w)) s

/-- LOOP: engine e issues a LOOP (04 R84). -/
def execLoop (e : Nat) (s : State) : Host.Outcome State Fault Refusal :=
  perform (Instr.wf (.loop e)) (isEngine e s) (issueRow e (isOp 7) (issueLoop e)) s

/-- WAIT: engine e issues a WAIT (04 R96). -/
def execWait (e : Nat) (s : State) : Host.Outcome State Fault Refusal :=
  perform (Instr.wf (.wait e)) (isEngine e s) (issueRow e (isOp 8) (issueWait e)) s

/-- WAIT_RETURN: the WAIT of context n on engine e returns (04 R96). -/
def execWaitReturn (e : Nat) (n : Nat) (s : State) : Host.Outcome State Fault Refusal :=
  perform (Instr.wf (.waitReturn e n)) (isEngine e s && ctxExists s.blk.fuses n) (Sys2Proof.Machine.waitReturn e n) s

/-- SIGNAL: engine e issues a SIGNAL (04 R96). -/
def execSignal (e : Nat) (s : State) : Host.Outcome State Fault Refusal :=
  perform (Instr.wf (.signal e)) (isEngine e s) (issueRow e (isOp 9) (issueSignal e)) s

/-- BARRIER: engine e issues a BARRIER (04 R97). -/
def execBarrier (e : Nat) (s : State) : Host.Outcome State Fault Refusal :=
  perform (Instr.wf (.barrier e)) (isEngine e s) (issueRow e (isOp 0xA) (issueBarrier e)) s

/-- BARRIER_RELEASE: a barrier whose participants have arrived releases them (04 R97); o is die × 4,096 + index. -/
def execBarrierRelease (o : Nat) (s : State) : Host.Outcome State Fault Refusal :=
  perform (Instr.wf (.barrierRelease o)) (decide (o / 4096 < dies s.blk.fuses)) (Sys2Proof.Machine.barrierRelease o) s

/-- FENCE: engine e issues a FENCE (04 R82). -/
def execFence (e : Nat) (s : State) : Host.Outcome State Fault Refusal :=
  perform (Instr.wf (.fence e)) (isEngine e s) (issueRow e (isOp 0xB) (issueFence e)) s

/-- FENCE_RETURN: the FENCE of context n on engine e returns (04 R82). -/
def execFenceReturn (e : Nat) (n : Nat) (s : State) : Host.Outcome State Fault Refusal :=
  perform (Instr.wf (.fenceReturn e n)) (isEngine e s && ctxExists s.blk.fuses n) (Sys2Proof.Machine.fenceReturn e n) s

/-- BRS: engine e issues a BRS (04 R85). -/
def execBrs (e : Nat) (s : State) : Host.Outcome State Fault Refusal :=
  perform (Instr.wf (.brs e)) (isEngine e s) (issueRow e (isOp 0xC) (issueBrs e)) s

/-- MARK: engine e issues a MARK (04 R82). -/
def execMark (e : Nat) (s : State) : Host.Outcome State Fault Refusal :=
  perform (Instr.wf (.mark e)) (isEngine e s) (issueRow e (isOp 0xD) (issueMark e)) s

/-- RESERVED_OPCODE: engine e fetches an opcode that is not listed (04 R82). -/
def execReservedOpcode (e : Nat) (s : State) : Host.Outcome State Fault Refusal :=
  perform (Instr.wf (.reservedOpcode e)) (isEngine e s) (issueRow e reservedSel issueNop) s

/-- CHAIN_START: a chain starts on engine e's vector engine (06 R149). -/
def execChainStart (e : Nat) (s : State) : Host.Outcome State Fault Refusal :=
  perform (Instr.wf (.chainStart e)) (isEngine e s) (startChain e) s

/-- CHAIN_COMPLETE: the chain of engine e completes (06 R152); ue names an uncorrectable word that it read. -/
def execChainComplete (e : Nat) (ue : Option Nat) (ce : List Nat) (s : State) : Host.Outcome State Fault Refusal :=
  perform (Instr.wf (.chainComplete e ue ce)) (isEngine e s) (withCorrected ce (completeChain e ue)) s

end Sys2Proof.Machine
end

