-- ==== Sys2Proof/Machine/FabricRows.lean ====
section
/-! DEFINITION. The commands of the cascade (17). -/

namespace Sys2Proof.Machine

/-- TRAIN_FLIT: a TRAIN flit of port p with the measured delay (17 R435). -/
def execTrainFlit (p : Nat) (straps : Nat) (serial : Nat) (low : Nat) (high : Nat) (delay : Nat) (s : State) :
    Host.Outcome State Fault Refusal :=
  perform (Instr.wf (.trainFlit p straps serial low high delay)) (true) (trainFlit p straps serial low high delay) s

/-- FORM: the formation boundary is named, by this member's count and by the master's (17 R435). -/
def execForm (own : Nat) (master : Nat) (s : State) : Host.Outcome State Fault Refusal :=
  perform (Instr.wf (.form own master)) (true) (formNamed own master) s

/-- FORMATION: the formation boundary (17 R435, R436). -/
def execFormation (s : State) : Host.Outcome State Fault Refusal :=
  perform (Instr.wf (.formation)) (true) (formation) s

/-- TRAINING_TIMEOUT: training has not completed in 20,000 beats (17 R435). -/
def execTrainingTimeout (step : Nat) (s : State) : Host.Outcome State Fault Refusal :=
  perform (Instr.wf (.trainingTimeout step)) (true) (trainingTimeout step) s

/-- CONTROL_FLIT_RECEIVED: a control flit arrives on port p (17 R440). -/
def execControlFlitReceived (p : Nat) (ack : Nat) (m : List Byte) (good : Bool) (s : State) : Host.Outcome State Fault
    Refusal :=
  perform (Instr.wf (.controlFlitReceived p ack m good)) (true) (controlFlit p ack m good) s

/-- RECORD_FLIT: a record flit arrives on port p (17 R438, R446). -/
def execRecordFlit (p : Nat) (seq : Nat) (ack : Nat) (stream : Nat) (flags : Nat) (index : Nat) (payload : List Byte)
    (good : Bool) (s : State) : Host.Outcome State Fault Refusal :=
  perform (Instr.wf (.recordFlit p seq ack stream flags index payload good)) (true) (recordFlit p seq ack stream flags
    index payload good) s

/-- MANAGEMENT_FLIT: a management flit arrives on port p (17 R438, R439). -/
def execManagementFlit (p : Nat) (seq : Nat) (ack : Nat) (good : MgmtFlit) (s : State) : Host.Outcome State Fault Refusal
    :=
  perform (Instr.wf (.managementFlit p seq ack good)) (true) (managementFlit p seq ack good) s

/-- FLIT_RESEND: flits are sent again on port p (17 R439). -/
def execFlitResend (p : Nat) (n : Nat) (s : State) : Host.Outcome State Fault Refusal :=
  perform (Instr.wf (.flitResend p n)) (true) (flitResend p n) s

/-- JOINT_STATE_CHANGE: a joint state change (17 R441). -/
def execJointStateChange (s : State) : Host.Outcome State Fault Refusal :=
  perform (Instr.wf (.jointStateChange)) (true) (fun w => jointState (jointRequest w)) s

/-- ARRIVAL_SET_COMPLETE: the arrival set of collective k, with the members' output streams (17 R447). -/
def execArrivalSetComplete (k : Nat) (outs : List (Nat × Nat)) (s : State) : Host.Outcome State Fault Refusal :=
  perform (Instr.wf (.arrivalSetComplete k outs)) (true) (arrivalSet k outs) s

/-- JOB_ABORT: the aborts of the boundary (17 R448). -/
def execJobAbort (s : State) : Host.Outcome State Fault Refusal :=
  perform (Instr.wf (.jobAbort)) (true) (jobAbort) s

/-- JOB_STRETCH: this member sets or clears STRETCH (17 R449). -/
def execJobStretch (on : Bool) (s : State) : Host.Outcome State Fault Refusal :=
  perform (Instr.wf (.jobStretch on)) (true) (jobStretch on) s

/-- PARTNER_LOST: member j is declared lost (17 R450). -/
def execPartnerLost (j : Nat) (s : State) : Host.Outcome State Fault Refusal :=
  perform (Instr.wf (.partnerLost j)) (true) (partnerLost j) s

/-- MEMBER_EXPEL: the master expels a member (17 R450). -/
def execMemberExpel (s : State) : Host.Outcome State Fault Refusal :=
  perform (Instr.wf (.memberExpel)) (true) (memberExpel) s

end Sys2Proof.Machine
end

