-- ==== Sys2Proof/Machine/IngestRows.lean ====
section
/-! DEFINITION. The commands of sensor ingest (09, 11 R280): each row's meaning over the operations of Records and
Ingest. -/

namespace Sys2Proof.Machine

/-- CSI2_LONG_PACKET: a long packet on receiver n, its last byte at device time t: header ECC corrected or failed,
payload CRC-16 held, what the pipeline finds of the row (09 R219). -/
def execCsi2LongPacket (n : Nat) (vc : Nat) (dt : Nat) (t : Nat) (fixed : Bool) (bad : Bool) (crcOk : Bool) (ue :
    PipeMet) (payload : List Byte) (s : State) : Host.Outcome State Fault Refusal :=
  perform (Instr.wf (.csi2LongPacket n vc dt t fixed bad crcOk ue payload)) (true) (longPacket n vc dt t fixed bad
    crcOk ue payload) s

/-- CSI2_FRAME_START: Frame Start on receiver n (09 R219). -/
def execCsi2FrameStart (n : Nat) (vc : ShortHead) (t : Nat) (s : State) : Host.Outcome State Fault Refusal :=
  perform (Instr.wf (.csi2FrameStart n vc t)) (true) (frameStart n vc t) s

/-- CSI2_FRAME_END: Frame End on receiver n (09 R219). -/
def execCsi2FrameEnd (n : Nat) (vc : ShortHead) (t : Nat) (s : State) : Host.Outcome State Fault Refusal :=
  perform (Instr.wf (.csi2FrameEnd n vc t)) (true) (frameEndPacket n vc t) s

/-- CSI2_LINE_SHORT_PACKET: Line Start or Line End on receiver n (09 R218). -/
def execCsi2LineShortPacket (n : Nat) (vc : ShortHead) (s : State) : Host.Outcome State Fault Refusal :=
  perform (Instr.wf (.csi2LineShortPacket n vc)) (true) (linePacket n vc) s

/-- ETHERNET_FRAME_RECEIVED: a frame on port p, its start stamped t0 and its last byte at t, without its FCS (09
R220). -/
def execEthernetFrameReceived (p : Nat) (t0 : Nat) (t : Nat) (fcsOk : FrameMet) (m : List Byte) (s : State) : Host.Outcome
    State Fault Refusal :=
  perform (Instr.wf (.ethernetFrameReceived p t0 t fcsOk m)) (true) (etherFrame p t0 t fcsOk m) s

/-- JXS_DECODE_START: stream n's decoder starts its next slice; outside: the header of its codestream (09
R227). -/
def execJxsDecodeStart (n : Nat) (t : Nat) (outside : JxsHead) (s : State) : Host.Outcome State Fault Refusal :=
  perform (Instr.wf (.jxsDecodeStart n t outside)) (true) (decodeStart n t outside) s

/-- JXS_DECODE_COMPLETE: stream n's slice is decoded: its rows by channel (09 R227). -/
def execJxsDecodeComplete (n : Nat) (t : Nat) (depth : Nat) (ue : PipeMet) (rows : List (List (List Nat))) (s : State) :
    Host.Outcome State Fault Refusal :=
  perform (Instr.wf (.jxsDecodeComplete n t depth ue rows)) (true) (decodeComplete n t depth ue rows) s

/-- JXS_DECODE_BUDGET_EXPIRED: stream n's decode has used its budget, at a payload byte (09 R227). -/
def execJxsDecodeBudgetExpired (n : Nat) (t : Nat) (off : Nat) (s : State) : Host.Outcome State Fault Refusal :=
  perform (Instr.wf (.jxsDecodeBudgetExpired n t off)) (true) (decodeExpired n t off) s

/-- SENSOR_SILENT: no first record of stream n's next frame by device time t (09 R213). -/
def execSensorSilent (n : Nat) (t : Nat) (s : State) : Host.Outcome State Fault Refusal :=
  perform (Instr.wf (.sensorSilent n t)) (true) (sensorSilent n t) s

/-- POSITION_DEADLINE: deadlines of stream n's open positions at device time t (09 R215). -/
def execPositionDeadline (n : Nat) (t : Nat) (s : State) : Host.Outcome State Fault Refusal :=
  perform (Instr.wf (.positionDeadline n t)) (true) (positionDeadline n t) s

/-- REPLAY_RECORD: a REPLAY_RECORD frame at device time t (09 R235). -/
def execReplayRecord (hd : Hdr) (t : Arrival) (payload : List Byte) (s : State) : Host.Outcome State Fault Refusal :=
  perform (Instr.wf (.replayRecord hd t payload)) (true) (replayFrame hd t payload) s

/-- REPLAY_FRAME_END: the next command entry, a REPLAY_FRAME_END (12 R321). -/
def execReplayFrameEnd (s : State) : Host.Outcome State Fault Refusal :=
  perform (Instr.wf (.replayFrameEnd)) (true) (cmdReplayEnd) s

/-- TRIGGER_EDGE: trigger k's scheduled edge (11 R280). -/
def execTriggerEdge (k : Nat) (s : State) : Host.Outcome State Fault Refusal :=
  perform (Instr.wf (.triggerEdge k)) (true) (triggerEdge k) s

end Sys2Proof.Machine
end

