-- ==== Sys2Proof/Machine/LinkRows.lean ====
section
/-! DEFINITION. The commands of the host links and of CAN FD (12, 13 R347): each row's meaning over the operations of
Links. -/

namespace Sys2Proof.Machine

/-- OD_READ: an OD_READ frame (12 R297). -/
def execOdRead (hd : Hdr) (payload : List Byte) (s : State) : Host.Outcome State Fault Refusal :=
  perform (Instr.wf (.odRead hd payload)) (true) (odReadFrame hd payload) s

/-- OD_WRITE: an OD_WRITE frame (12 R297). -/
def execOdWrite (hd : Hdr) (payload : List Byte) (s : State) : Host.Outcome State Fault Refusal :=
  perform (Instr.wf (.odWrite hd payload)) (true) (odWriteFrame hd payload) s

/-- COMMIT: an OD_WRITE of 0x01 to COMMIT (12 R299). -/
def execCommit (hd : Hdr) (s : State) : Host.Outcome State Fault Refusal :=
  perform (Instr.wf (.commit hd)) (true) (odWriteFrame hd (objHead 0x2001 1 ++ leBytes 1 1)) s

/-- STAGE_DISCARD: an OD_WRITE of 0x00 to COMMIT (12 R299). -/
def execStageDiscard (hd : Hdr) (s : State) : Host.Outcome State Fault Refusal :=
  perform (Instr.wf (.stageDiscard hd)) (true) (odWriteFrame hd (objHead 0x2001 1 ++ leBytes 1 0)) s

/-- USDO_REQUEST: a USDO service of a client on controller c (12 R308). -/
def execUsdoRequest (c : Nat) (client : Nat) (q : UsdoReq) (s : State) : Host.Outcome State Fault Refusal :=
  perform (Instr.wf (.usdoRequest c client q)) (true) (usdoRequest c client q) s

/-- USDO_TIMEOUT: an open transfer of controller c at device time t (12 R308). -/
def execUsdoTimeout (c : Nat) (t : Nat) (s : State) : Host.Outcome State Fault Refusal :=
  perform (Instr.wf (.usdoTimeout c t)) (true) (usdoTimeout c t) s

/-- NMT_COMMAND: an NMT command on controller c (12 R308). -/
def execNmtCommand (c : Nat) (s : State) : Host.Outcome State Fault Refusal :=
  perform (Instr.wf (.nmtCommand c)) (true) (nmtCommand c) s

/-- HEARTBEAT: controller c's heartbeat time at device time t (12 R309). -/
def execHeartbeat (c : Nat) (t : Nat) (s : State) : Host.Outcome State Fault Refusal :=
  perform (Instr.wf (.heartbeat c t)) (true) (heartbeat c t) s

/-- SAFETY_STATUS_FRAME: a boundary of the safety-status frame's period (12 R310). -/
def execSafetyStatusFrame (s : State) : Host.Outcome State Fault Refusal :=
  perform (Instr.wf (.safetyStatusFrame)) (true) (safetyStatus) s

/-- CAN_BUS_OFF: controller c goes bus-off (12 R307). -/
def execCanBusOff (c : Nat) (s : State) : Host.Outcome State Fault Refusal :=
  perform (Instr.wf (.canBusOff c)) (true) (busOff c) s

/-- CAN_BUS_OFF_RECOVERY: controller c has seen 128 × 11 recessive bits (12 R307). -/
def execCanBusOffRecovery (c : Nat) (s : State) : Host.Outcome State Fault Refusal :=
  perform (Instr.wf (.canBusOffRecovery c)) (true) (busOffRecover c) s

/-- HELLO: a HELLO frame (12 R314). -/
def execHello (hd : Hdr) (payload : List Byte) (s : State) : Host.Outcome State Fault Refusal :=
  perform (Instr.wf (.hello hd payload)) (true) (hello hd payload) s

/-- KEEPALIVE: a KEEPALIVE frame (12 R315). -/
def execKeepalive (hd : Hdr) (s : State) : Host.Outcome State Fault Refusal :=
  perform (Instr.wf (.keepalive hd)) (true) (keepalive hd) s

/-- UNKNOWN_FRAME_TYPE: a frame of a reserved type (12 R315). -/
def execUnknownFrameType (ftype : Nat) (hd : Hdr) (s : State) : Host.Outcome State Fault Refusal :=
  perform (Instr.wf (.unknownFrameType ftype hd)) (true) (unknownType ftype hd) s

/-- CRINO_FRAME_CRC_FAIL: a frame whose CRC fails (12 R313). -/
def execCrinoFrameCrcFail (hd : Hdr) (s : State) : Host.Outcome State Fault Refusal :=
  perform (Instr.wf (.crinoFrameCrcFail hd)) (true) (crcFail hd) s

/-- REG_READ: a REG_READ frame (12 R320). -/
def execRegRead (hd : Hdr) (payload : List Byte) (s : State) : Host.Outcome State Fault Refusal :=
  perform (Instr.wf (.regRead hd payload)) (true) (regReadFrame hd payload) s

/-- REG_WRITE: a REG_WRITE frame (12 R320). -/
def execRegWrite (hd : Hdr) (payload : List Byte) (s : State) : Host.Outcome State Fault Refusal :=
  perform (Instr.wf (.regWrite hd payload)) (true) (regWriteFrame hd payload) s

/-- HOST_KEEPALIVE: a write of HOST_KEEPALIVE (12 R320). -/
def execHostKeepalive (hd : Hdr) (v : Nat) (s : State) : Host.Outcome State Fault Refusal :=
  perform (Instr.wf (.hostKeepalive hd v)) (true) (regWriteFrame hd (regOne 0x1C v)) s

/-- IRQ_STATUS_CLEAR: a write of IRQ_STATUS (12 R320). -/
def execIrqStatusClear (hd : Hdr) (v : Nat) (s : State) : Host.Outcome State Fault Refusal :=
  perform (Instr.wf (.irqStatusClear hd v)) (true) (regWriteFrame hd (regOne 0x20 v)) s

/-- RING_DOORBELL: a doorbell of ring r (12 R321). -/
def execRingDoorbell (hd : Hdr) (r : Nat) (v : Nat) (s : State) : Host.Outcome State Fault Refusal :=
  perform (Instr.wf (.ringDoorbell hd r v)) (true) (regWriteFrame hd (regOne (0x110 + 0x20 * r) v)) s

/-- CMD_COMMIT: the next command entry, a COMMIT (12 R321). -/
def execCmdCommit (s : State) : Host.Outcome State Fault Refusal :=
  perform (Instr.wf (.cmdCommit)) (true) (cmdCommit) s

/-- HEAVY_PHASE_HINT: the next command entry, a hint (14 R368). -/
def execHeavyPhaseHint (s : State) : Host.Outcome State Fault Refusal :=
  perform (Instr.wf (.heavyPhaseHint)) (true) (cmdHint) s

/-- CMD_NOP: the next command entry, a NOP (12 R321). -/
def execCmdNop (s : State) : Host.Outcome State Fault Refusal :=
  perform (Instr.wf (.cmdNop)) (true) (cmdNop) s

/-- CMD_RESERVED: the next command entry, reserved or malformed (12 R321). -/
def execCmdReserved (s : State) : Host.Outcome State Fault Refusal :=
  perform (Instr.wf (.cmdReserved)) (true) (cmdReserved) s

/-- ARP_REQUEST: an ARP request for an address on port p (12 R317). -/
def execArpRequest (p : Nat) (target : List Byte) (s : State) : Host.Outcome State Fault Refusal :=
  perform (Instr.wf (.arpRequest p target)) (true) (arpRequest p target) s

/-- NEIGHBOUR_SOLICITATION: a neighbour solicitation for an address on port p (12 R317). -/
def execNeighbourSolicitation (p : Nat) (target : List Byte) (s : State) : Host.Outcome State Fault Refusal :=
  perform (Instr.wf (.neighbourSolicitation p target)) (true) (neighbourSolicit p target) s

/-- ETH_LINK_CHANGE: port p's link comes up or goes down (12 R319). -/
def execEthLinkChange (p : Nat) (up : Bool) (s : State) : Host.Outcome State Fault Refusal :=
  perform (Instr.wf (.ethLinkChange p up)) (true) (ethLink p up) s

/-- USB_ATTACH: the USB port trains at a speed code of USB_SPEED (12 R312). -/
def execUsbAttach (speed : Nat) (s : State) : Host.Outcome State Fault Refusal :=
  perform (Instr.wf (.usbAttach speed)) (true) (usbAttach speed) s

/-- CAP_FIFO_POP: an OD_READ of CAP_FIFO_POP of input c (11 R286). -/
def execCapFifoPop (c : Nat) (hd : Hdr) (s : State) : Host.Outcome State Fault Refusal :=
  perform (Instr.wf (.capFifoPop c hd)) (true) (odReadFrame hd (objHead (0x2140 + c) 0x16)) s

/-- LOG_POP: an OD_READ of LOG_POP (13 R347). -/
def execLogPop (hd : Hdr) (s : State) : Host.Outcome State Fault Refusal :=
  perform (Instr.wf (.logPop hd)) (true) (odReadFrame hd (objHead 0x2540 8)) s

/-- LOG_DRAIN_TRANSFER: a bulk transfer of n log entries completes on EP3 (13 R347). -/
def execLogDrainTransfer (n : Nat) (s : State) : Host.Outcome State Fault Refusal :=
  perform (Instr.wf (.logDrainTransfer n)) (true) (logDrain n) s

/-- FAULT_ACK: an OD_READ of FAULT_ACK (16 R414). -/
def execFaultAck (hd : Hdr) (s : State) : Host.Outcome State Fault Refusal :=
  perform (Instr.wf (.faultAck hd)) (true) (odReadFrame hd (objHead 0x2400 8)) s

/-- FE_RELEASE: an OD_READ of FE_RELEASE (16 R415). -/
def execFeRelease (hd : Hdr) (s : State) : Host.Outcome State Fault Refusal :=
  perform (Instr.wf (.feRelease hd)) (true) (odReadFrame hd (objHead 0x2410 7)) s

end Sys2Proof.Machine
end

