-- ==== Sys2Proof/Machine/MemoryRows.lean ====
section
/-! DEFINITION. The commands of the loads, the memory channels and the host's memory access (12 R318, 07): each row's
meaning over the operations of Loads and Channels. -/

namespace Sys2Proof.Machine

/-- READ_RUN: channel c reads n bursts from a, offered at bus clock start; held marks the bursts whose DQS the die
holds back, met the rank of its request and a missing preamble, errs the bits in error (07 R166). -/
def execReadRun (c : Nat) (a : Nat) (n : Nat) (start : Nat) (held : Nat) (met : RunMet) (errs : List (Nat × Nat ×
    Nat)) (s : State) : Host.Outcome State Fault Refusal :=
  perform (Instr.wf (.readRun c a n start held met errs)) (chanThere s c) (readRun c a n start held met errs) s

/-- WRITE_RUN: channel c writes whole bursts from a (07 R166). -/
def execWriteRun (c : Nat) (a : Nat) (start : Nat) (held : Nat) (met : RunMet) (data : List Byte) (s : State) :
    Host.Outcome State Fault Refusal :=
  perform (Instr.wf (.writeRun c a start held met data)) (chanThere s c) (writeRun c a start held met data) s

/-- READ_TRAINING: channel c's die returns its training pattern (07 R166). -/
def execReadTraining (c : DieRead) (s : State) : Host.Outcome State Fault Refusal :=
  perform (Instr.wf (.readTraining c)) (chanThere s c.chan) (readTraining c) s

/-- SET_REFRESH: channel c's tick rate becomes one or two per beat (07 R166). -/
def execSetRefresh (c : Nat) (rate : RefreshSet) (s : State) : Host.Outcome State Fault Refusal :=
  perform (Instr.wf (.setRefresh c rate)) (chanThere s c) (setRefresh c rate) s

/-- READ_STATUS: channel c's die returns its status word (07 R166). -/
def execReadStatus (c : DieRead) (s : State) : Host.Outcome State Fault Refusal :=
  perform (Instr.wf (.readStatus c)) (chanThere s c.chan) (readStatus c) s

/-- REFRESH_TICK: a refresh tick of channel c (07 R167). -/
def execRefreshTick (c : Nat) (s : State) : Host.Outcome State Fault Refusal :=
  perform (Instr.wf (.refreshTick c)) (chanThere s c) (refreshTick c) s

/-- REFRESH_RATE_SWITCH: channel c changes its refresh rate when its quad's temperature asks (07 R167). -/
def execRefreshRateSwitch (c : Nat) (s : State) : Host.Outcome State Fault Refusal :=
  perform (Instr.wf (.refreshRateSwitch c)) (chanThere s c) (rateSwitch c) s

/-- BACKGROUND_SLOT: slot 40 of channel c: what it meets, the delay step it asks for, the
bits in error of a scrub (07 R181). -/
def execBackgroundSlot (c : Nat) (good : SlotReport) (step : Int) (errs : List (Nat × Nat)) (s : State) : Host.Outcome State
    Fault Refusal :=
  perform (Instr.wf (.backgroundSlot c good step errs)) (chanThere s c) (backgroundSlot c good step errs) s

/-- SCRUB_STARVED: a scrub pass of channel c that takes too long is reported (07 R182). -/
def execScrubStarved (c : Nat) (s : State) : Host.Outcome State Fault Refusal :=
  perform (Instr.wf (.scrubStarved c)) (chanThere s c) (scrubStarved c) s

/-- MEM_READ: a MEM_READ frame; ue names an uncorrectable word of the range (07 R175). -/
def execMemRead (hd : Hdr) (payload : List Byte) (ue : Option Nat) (s : State) : Host.Outcome State Fault Refusal :=
  perform (Instr.wf (.memRead hd payload ue)) (true) (crino 0x30 0x31 hd payload (fun m => memReadMsg hd.link hd.tag
    ue m)) s

/-- MEM_WRITE: a MEM_WRITE frame (07 R175). -/
def execMemWrite (hd : Hdr) (payload : List Byte) (s : State) : Host.Outcome State Fault Refusal :=
  perform (Instr.wf (.memWrite hd payload)) (true) (crino 0x32 0x33 hd payload (memWriteMsg hd.link hd.tag)) s

end Sys2Proof.Machine
end

