-- ==== Sys2Proof/Machine/ObjectRows.lean ====
section
/-! DEFINITION. The commands of loads, commits and what commits bring with them (08 R193, R209; 11 R275, R277; 12
R299, R318, R322; 13 R345). -/

namespace Sys2Proof.Machine

/-- LOAD_FIRMWARE: a frame of a LOAD with a firmware image (12 R318, 13 R331). -/
def execLoadFirmware (hd : Hdr) (payload : List Byte) (s : State) : Host.Outcome State Fault Refusal :=
  perform (Instr.wf (.loadFirmware hd payload)) (true) (crino 0x20 0x21 hd payload (loadMsg hd.link hd.tag)) s

/-- FIRMWARE_VERIFIED: the crypto unit's verdict on the image at its head; `bad` lists the pairs whose start fails (13
R330, R331). -/
def execFirmwareVerified (bad : List Nat) (s : State) : Host.Outcome State Fault Refusal :=
  perform (Instr.wf (.firmwareVerified bad)) (true) (firmwareVerified bad) s

/-- LOAD_PROGRAM_IMAGE: a frame of a LOAD with a program image (04 R104, 12 R318). -/
def execLoadProgramImage (hd : Hdr) (payload : List Byte) (s : State) : Host.Outcome State Fault Refusal :=
  perform (Instr.wf (.loadProgramImage hd payload)) (true) (crino 0x20 0x21 hd payload (loadMsg hd.link hd.tag)) s

/-- LOAD_WEIGHTS: a frame of a LOAD with weights (12 R318). -/
def execLoadWeights (hd : Hdr) (payload : List Byte) (s : State) : Host.Outcome State Fault Refusal :=
  perform (Instr.wf (.loadWeights hd payload)) (true) (crino 0x20 0x21 hd payload (loadMsg hd.link hd.tag)) s

/-- PIN_PAGE: a committed PIN_PAGE pins (08 R193). -/
def execPinPage (s : State) : Host.Outcome State Fault Refusal :=
  perform (Instr.wf (.pinPage)) (true) (effectRow isPin) s

/-- UNPIN_PAGE: a committed PIN_PAGE unpins (08 R193). -/
def execUnpinPage (s : State) : Host.Outcome State Fault Refusal :=
  perform (Instr.wf (.unpinPage)) (true) (effectRow isUnpin) s

/-- TM_RESET: a committed TM_RESET (08 R209). -/
def execTmReset (s : State) : Host.Outcome State Fault Refusal :=
  perform (Instr.wf (.tmReset)) (true) (effectRow isTmReset) s

/-- MAP_RESET: a committed MAP_RESET (11 R275). -/
def execMapReset (s : State) : Host.Outcome State Fault Refusal :=
  perform (Instr.wf (.mapReset)) (true) (effectRow (· == .mapReset)) s

/-- PPS_SECONDS: committed PPS_SECONDS (11 R277). -/
def execPpsSeconds (s : State) : Host.Outcome State Fault Refusal :=
  perform (Instr.wf (.ppsSeconds)) (true) (effectRow isPpsSeconds) s

/-- COMMIT_APPLY: the commit of a link's stage at its boundary (12 R299). -/
def execCommitApply (link : Nat) (s : State) : Host.Outcome State Fault Refusal :=
  perform (Instr.wf (.commitApply link)) (true) (commitDue link) s

/-- HOST_SILENT: no frame has come on a session for HOST_SILENCE_MS (12 R322). -/
def execHostSilent (link : Nat) (t : Nat) (s : State) : Host.Outcome State Fault Refusal :=
  perform (Instr.wf (.hostSilent link t)) (true) (hostSilent link t) s

/-- USB_DETACH: the USB port detaches (12 R322). -/
def execUsbDetach (s : State) : Host.Outcome State Fault Refusal :=
  perform (Instr.wf (.usbDetach)) (true) (usbDetach) s

/-- ATTEST_REQUEST: a frame of an attestation request (13 R343). -/
def execAttestRequest (hd : Hdr) (payload : List Byte) (s : State) : Host.Outcome State Fault Refusal :=
  perform (Instr.wf (.attestRequest hd payload)) (true) (crino 0x70 0x71 hd payload (attestMsg hd.link hd.tag)) s

/-- ATTEST_REPORT_SEND: the report of the request at the crypto unit's head (13 R344, R345). -/
def execAttestReportSend (s : State) : Host.Outcome State Fault Refusal :=
  perform (Instr.wf (.attestReportSend)) (true) (attestReport) s

end Sys2Proof.Machine
end

