-- ==== Sys2Proof/Machine/PowerRows.lean ====
section
/-! DEFINITION. The commands of the power, clock and cooling loops (14): each row's meaning over the operations of
Power. -/

namespace Sys2Proof.Machine

/-- POWER_HOLD_EXPIRE: a power hold has stood for 500 beats (14 R374). -/
def execPowerHoldExpire (s : State) : Host.Outcome State Fault Refusal :=
  perform (Instr.wf (.powerHoldExpire)) (true) (holdExpire) s

/-- PWM_PERIOD: a period of PWM output p begins (11 R292). -/
def execPwmPeriod (p : Nat) (s : State) : Host.Outcome State Fault Refusal :=
  perform (Instr.wf (.pwmPeriod p)) (true) (pwmPeriod p) s

/-- POWER_ESTIMATE: the estimate of an even boundary: P_est in milliwatts and the sensors' quarter degrees (14 R361).
-/
def execPowerEstimate (mw : Nat) (temps : List (Nat × Int)) (s : State) : Host.Outcome State Fault Refusal :=
  perform (Instr.wf (.powerEstimate mw temps)) (true) (fun w => rateSwitches (temps.map (·.1)) (powerEstimate mw temps
    w)) s

/-- FW_LEVEL_WRITE: pair 1 writes FW_LEVEL (14 R365). -/
def execFwLevelWrite (l : Nat) (s : State) : Host.Outcome State Fault Refusal :=
  perform (Instr.wf (.fwLevelWrite l)) (true) (fwLevelWrite l) s

/-- CLOCK_STEP: quad q takes one step of clock, LDO or rail code (14 R352). -/
def execClockStep (q : Nat) (s : State) : Host.Outcome State Fault Refusal :=
  perform (Instr.wf (.clockStep q)) (isQuad q s) (clockStep q) s

/-- DROOP_DETECT: quad q droops and stretches k eighths of a cycle (14 R358). -/
def execDroopDetect (q : Nat) (k : Nat) (s : State) : Host.Outcome State Fault Refusal :=
  perform (Instr.wf (.droopDetect q k)) (isQuad q s) (droopDetect q k) s

/-- DROOP_CLEAR: quad q's stretch has returned to 0 (14 R358). -/
def execDroopClear (q : Nat) (s : State) : Host.Outcome State Fault Refusal :=
  perform (Instr.wf (.droopClear q)) (isQuad q s) (droopClear q) s

/-- PLL_LOCK_LOST: PLL p loses lock: 2 × die the main one, 2 × die + 1 the channel one, 4 the hub's (14 R353). -/
def execPllLockLost (p : Nat) (s : State) : Host.Outcome State Fault Refusal :=
  perform (Instr.wf (.pllLockLost p)) (pllThere p s) (pllLost p) s

/-- PLL_RELOCK: PLL p locks (14 R353). -/
def execPllRelock (p : Nat) (s : State) : Host.Outcome State Fault Refusal :=
  perform (Instr.wf (.pllRelock p)) (pllThere p s) (pllRelock p) s

/-- COOLING_UPDATE: the duties of pump and valve (14 R371). -/
def execCoolingUpdate (s : State) : Host.Outcome State Fault Refusal :=
  perform (Instr.wf (.coolingUpdate)) (true) (coolingUpdate) s

/-- HEAVY_PHASE_RAISE: two beats before a hinted phase (14 R368). -/
def execHeavyPhaseRaise (s : State) : Host.Outcome State Fault Refusal :=
  perform (Instr.wf (.heavyPhaseRaise)) (true) (heavyRaise) s

/-- HEAVY_PHASE_END: the boundary after a hinted phase (14 R368). -/
def execHeavyPhaseEnd (s : State) : Host.Outcome State Fault Refusal :=
  perform (Instr.wf (.heavyPhaseEnd)) (true) (heavyEnd) s

end Sys2Proof.Machine
end

