-- ==== Sys2Proof/Machine/Scan.lean ====
section
/-! DEFINITION. The test access port (18 R468): the boundary-scan cells of the single-ended signals and the instructions of
the port. -/

namespace Sys2Proof.Machine

/-- A pin that the port's EXTEST takes over from the device: the outputs, the PWM pins, the CAN lines out and the VID codes. -/
def isOutput (i : Nat) : Bool :=
  (decide (22 ≤ i) && decide (i < 61)) || i == 72 || i == 73 || (decide (76 ≤ i) && decide (i < 88))

/-- An open-drain pin: driven low, or released to the board's level. -/
def openDrain (i : Nat) : Bool := i == 57 || i == 59 || i == 60

/-- The level that the device gives an output pin by itself, none where what it gives is not held in the state (a PWM output,
a CAN line). -/
def functionLevel (b : Blk) (i : Nat) : Option Bool :=
  let hold := b.dev.state == .porst
  if i < 22 then none
  else if i < 54 then (if hold then none else some (trigPin b (i - 22)))
  else if i = 54 then some (!hold && trigPin b 32)
  else if i = 55 then some (!hold && b.safe.high)
  else if i = 56 then some (!hold && !b.safe.high)
  else if i = 57 then some (!hold && !faultLow b)
  else if i = 58 then some (!hold && b.safe.wdgUntil.isSome)
  else if i = 72 ∨ i = 73 then (if hold then some true else none)
  else if 76 ≤ i ∧ i < 82 then some ((vidPins b 0).testBit (i - 76))
  else if 82 ≤ i ∧ i < 88 then some ((vidPins b 1).testBit (i - 82))
  else none

/-- The level that is driven on a pin: the cell under EXTEST (R468), else the device's own; an open-drain pin that is not low
is released. -/
def drivenLevel (b : Blk) (i : Nat) : Option Bool :=
  let lv := if b.tap.ir = 3 ∧ isOutput i = true then some (b.tap.cells.testBit i) else functionLevel b i
  if openDrain i ∧ lv = some true then none else lv

/-- The cells that a capture takes, in the order of R464's table: PORST_N, WARM_RST_N, WAKE, ERR_IN_N, PFW_N, PPS_IN,
CAP_IN0 to 15, TRIG_OUT0 to 31, PPS_OUT, SAFE_OK_P, SAFE_OK_N, FAULT_N, EXT_WDG, the two PWM outputs, the eleven straps, the
CAN lines, the VID codes. `pins` gives the levels on the board of those that the device does not drive. -/
def captureCells (b : Blk) (pins : Nat) : Nat :=
  (List.range 88).foldl (fun c i => setBit c i ((drivenLevel b i).getD (pins.testBit i))) 0

/-- Capture the cells and shift them out. -/
def captureScan (pins : Nat) (w : Work) : Work :=
  let c := captureCells w.toBlk pins
  send (.jtag c) { w with tap.captured := c }

/-- Test-Logic-Reset and BYPASS: the bypass register is selected. -/
def jtagReset (w : Work) : Work := { w with tap.ir := 0, tap.bypass := false }
def jtagBypass (w : Work) : Work := { w with tap.ir := 0, tap.bypass := false }
def jtagSample (pins : Nat) (w : Work) : Work := captureScan pins { w with tap.ir := 1 }
def jtagPreload (cells : Nat) (w : Work) : Work := { w with tap.ir := 2, tap.cells := cells % 2 ^ 88 }
/-- EXTEST while PORST_N is asserted: the outputs take the cells; loaded at any other time it is BYPASS. -/
def jtagExtest (pins : Nat) (w : Work) : Work :=
  if w.dev.state = .porst ∧ w.dev.noRefclk = false then captureScan pins { w with tap.ir := 3 } else jtagBypass w

end Sys2Proof.Machine
end

