-- ==== Sys2Proof/Machine/ScanRows.lean ====
section
/-! DEFINITION. The commands of the test access port (18 R468). -/

namespace Sys2Proof.Machine

/-- JTAG_TEST_LOGIC_RESET: Test-Logic-Reset (18 R468). -/
def execJtagTestLogicReset (s : State) : Host.Outcome State Fault Refusal :=
  perform (Instr.wf (.jtagTestLogicReset)) (true) (jtagReset) s

/-- JTAG_BYPASS: BYPASS (18 R468). -/
def execJtagBypass (s : State) : Host.Outcome State Fault Refusal :=
  perform (Instr.wf (.jtagBypass)) (true) (jtagBypass) s

/-- JTAG_SAMPLE: SAMPLE with the levels on the board (18 R468). -/
def execJtagSample (pins : Nat) (s : State) : Host.Outcome State Fault Refusal :=
  perform (Instr.wf (.jtagSample pins)) (true) (jtagSample pins) s

/-- JTAG_PRELOAD: PRELOAD (18 R468). -/
def execJtagPreload (cells : Nat) (s : State) : Host.Outcome State Fault Refusal :=
  perform (Instr.wf (.jtagPreload cells)) (true) (jtagPreload cells) s

/-- JTAG_EXTEST: EXTEST with the levels on the board (18 R468). -/
def execJtagExtest (pins : Nat) (s : State) : Host.Outcome State Fault Refusal :=
  perform (Instr.wf (.jtagExtest pins)) (true) (jtagExtest pins) s

end Sys2Proof.Machine
end

