-- ==== Sys2Proof/Machine/ScheduleRows.lean ====
section
/-! DEFINITION. The commands of admission and of slices at run time (02 R32 to R55). -/

namespace Sys2Proof.Machine

/-- SLICE_RELEASE: the slice of context n is released (02 R32). -/
def execSliceRelease (n : SliceMet) (s : State) : Host.Outcome State Fault Refusal :=
  perform (Instr.wf (.sliceRelease n)) (ctxExists s.blk.fuses n.ctx) (releaseSlice n.maps n.ctx) s

/-- SLICE_RESPONSE_END: the response time of context n's slice ends (02 R33). -/
def execSliceResponseEnd (n : SliceMet) (s : State) : Host.Outcome State Fault Refusal :=
  perform (Instr.wf (.sliceResponseEnd n)) (ctxExists s.blk.fuses n.ctx) (responseEnd n.maps n.ctx) s

/-- DEADLINE_MISSED: context n's slice is not complete at its deadline (02 R37). -/
def execDeadlineMissed (n : Nat) (s : State) : Host.Outcome State Fault Refusal :=
  perform (Instr.wf (.deadlineMissed n)) (ctxExists s.blk.fuses n) (deadlineMissed n) s

/-- ADMIT_REQUEST: a committed request for admission (02 R44). -/
def execAdmitRequest (n : Nat) (s : State) : Host.Outcome State Fault Refusal :=
  perform (Instr.wf (.admitRequest n)) (ctxExists s.blk.fuses n) (effectRow (isAdmit n)) s

/-- WITHDRAW_REQUEST: a committed withdrawal (02 R44). -/
def execWithdrawRequest (n : Nat) (s : State) : Host.Outcome State Fault Refusal :=
  perform (Instr.wf (.withdrawRequest n)) (ctxExists s.blk.fuses n) (effectRow (· == .withdraw n)) s

/-- ADMISSION_DECISION: pair 2 decides a commit's requests; the schedule commits `delay` beats later (02 R44, 17
R442). -/
def execAdmissionDecision (delay : Nat) (others : List (Nat × Nat × Nat)) (remote : Bool) (s : State) : Host.Outcome
    State Fault Refusal :=
  perform (Instr.wf (.admissionDecision delay others remote)) (true) (admissionDecided delay others remote) s

/-- SCHEDULE_COMMIT: a decided schedule replaces the old one (02 R44). -/
def execScheduleCommit (s : State) : Host.Outcome State Fault Refusal :=
  perform (Instr.wf (.scheduleCommit)) (true) (scheduleCommit) s

/-- WITHDRAWAL_EFFECT: a withdrawal takes effect (02 R44). -/
def execWithdrawalEffect (n : Nat) (s : State) : Host.Outcome State Fault Refusal :=
  perform (Instr.wf (.withdrawalEffect n)) (ctxExists s.blk.fuses n) (withdrawalEffect n) s

/-- ADMISSION_RECOMPUTE: pair 2 recomputes admission, to commit `delay` beats later (02 R52, R53). -/
def execAdmissionRecompute (delay : Nat) (s : State) : Host.Outcome State Fault Refusal :=
  perform (Instr.wf (.admissionRecompute delay)) (true) (fun w => recomputeCommit (recomputeDecide delay w)) s

/-- GUST: the sequencer opens quad q's clock (02 R47). -/
def execGust (q : Nat) (t : Nat) (opened : Bool) (s : State) : Host.Outcome State Fault Refusal :=
  perform (Instr.wf (.gust q t opened)) (isQuad q s) (gust q t opened) s

/-- QUAD_CLOCK_GATE: quad q's clock is gated (02 R47). -/
def execQuadClockGate (q : Nat) (t : Nat) (s : State) : Host.Outcome State Fault Refusal :=
  perform (Instr.wf (.quadClockGate q t)) (isQuad q s) (quadGate q t) s

end Sys2Proof.Machine
end

