-- ==== Sys2Proof/Machine/TemporalRows.lean ====
section
/-! DEFINITION. The commands of the temporal-memory walk unit and of pair 4 (08): each row's meaning over the
operations of TemporalMem. -/

namespace Sys2Proof.Machine

/-- WALK_PHASE1: slot t's walk begins after a release of its forward or backward context; ue names a logical page
whose map entry is uncorrectable (08 R198). -/
def execWalkPhase1 (t : Nat) (back : Bool) (ue : Option Nat) (s : State) : Host.Outcome State Fault Refusal :=
  perform (Instr.wf (.walkPhase1 t back ue)) (true) (walkPhase1 t back ue) s

/-- WALK_PHASE2: slot t's walk goes on at the first trigger (08 R198). -/
def execWalkPhase2 (t : Nat) (back : Bool) (ue : Option Nat) (s : State) : Host.Outcome State Fault Refusal :=
  perform (Instr.wf (.walkPhase2 t back ue)) (true) (walkPhase2 t back ue) s

/-- MASS_READ: slot t's masses are read at the second trigger (08 R198). -/
def execMassRead (t : Nat) (s : State) : Host.Outcome State Fault Refusal :=
  perform (Instr.wf (.massRead t)) (true) (massRead t) s

/-- PAIR4_LIST_BUILD: pair 4 stages slot t's next list (08 R201). -/
def execPair4ListBuild (t : SlotMet) (s : State) : Host.Outcome State Fault Refusal :=
  perform (Instr.wf (.pair4ListBuild t)) (true) (pair4Build t.slot t.ue) s

end Sys2Proof.Machine
end

