-- ==== Sys2Proof/Machine/TimeRows.lean ====
section
/-! DEFINITION. The commands of time, the trigger outputs, the conditioned inputs and the monitoring ADC (11): each
row's meaning over the operations of Time. -/

namespace Sys2Proof.Machine

/-- GPTP_SYNC: a Sync on an Ethernet port, stamped at device time t (11 R277). -/
def execGptpSync (port : Nat) (domain : Nat) (seq : Nat) (t : Nat) (s : State) : Host.Outcome State Fault Refusal :=
  perform (Instr.wf (.gptpSync port domain seq t)) (true) (gptpSync port domain seq t) s

/-- GPTP_FOLLOW_UP: a Follow_Up: its origin time and correction in nanoseconds (11 R275). -/
def execGptpFollowUp (port : Nat) (domain : Nat) (seq : Nat) (origin : Int) (corr : Int) (s : State) : Host.Outcome
    State Fault Refusal :=
  perform (Instr.wf (.gptpFollowUp port domain seq origin corr)) (true) (gptpFollowUp port domain seq origin corr) s

/-- GPTP_PDELAY: a completed peer delay exchange: request sent, received, response sent, received (11 R277). -/
def execGptpPdelay (port : Nat) (t1 : Int) (t2 : Int) (t3 : Int) (t4 : Int) (s : State) : Host.Outcome State Fault
    Refusal :=
  perform (Instr.wf (.gptpPdelay port t1 t2 t3 t4)) (true) (gptpPdelay port t1 t2 t3 t4) s

/-- GPTP_ANNOUNCE: an Announce is received and ignored (11 R277). -/
def execGptpAnnounce (port : Nat) (s : State) : Host.Outcome State Fault Refusal :=
  perform (Instr.wf (.gptpAnnounce port)) (true) (id) s

/-- GPTP_SYNC_SEND: a master port's sync interval ends at device time t (11 R277). -/
def execGptpSyncSend (port : Nat) (t : Nat) (s : State) : Host.Outcome State Fault Refusal :=
  perform (Instr.wf (.gptpSyncSend port t)) (true) (gptpSyncSend port t) s

/-- GPTP_ANNOUNCE_SEND: a master port's announce interval ends at device time t (11 R277). -/
def execGptpAnnounceSend (port : Nat) (t : Nat) (s : State) : Host.Outcome State Fault Refusal :=
  perform (Instr.wf (.gptpAnnounceSend port t)) (true) (gptpAnnounceSend port t) s

/-- MAP_UPDATE: the map that a sample asked for takes effect at a boundary (11 R273). -/
def execMapUpdate (s : State) : Host.Outcome State Fault Refusal :=
  perform (Instr.wf (.mapUpdate)) (true) (mapUpdate) s

/-- SYNC_TIMEOUT: no accepted sample for three intervals (11 R276). -/
def execSyncTimeout (s : State) : Host.Outcome State Fault Refusal :=
  perform (Instr.wf (.syncTimeout)) (true) (syncTimeout) s

/-- HOLDOVER_EXPIRE: the holdover limit has passed (11 R276). -/
def execHoldoverExpire (s : State) : Host.Outcome State Fault Refusal :=
  perform (Instr.wf (.holdoverExpire)) (true) (holdoverExpire) s

/-- TRIGGER_START: trigger k, 32 for PPS_OUT, finds its first edge (11 R281). -/
def execTriggerStart (k : Nat) (s : State) : Host.Outcome State Fault Refusal :=
  perform (Instr.wf (.triggerStart k)) (true) (trigStart k) s

/-- TRIGGER_SCHEDULE: two beats before an edge of trigger k (11 R280). -/
def execTriggerSchedule (k : Nat) (s : State) : Host.Outcome State Fault Refusal :=
  perform (Instr.wf (.triggerSchedule k)) (true) (trigSchedule k) s

/-- TRIGGER_PULSE_END: trigger k's width has passed at device time t (11 R280). -/
def execTriggerPulseEnd (k : Nat) (t : Nat) (s : State) : Host.Outcome State Fault Refusal :=
  perform (Instr.wf (.triggerPulseEnd k t)) (true) (trigEnd k t) s

/-- PPS_OUT_EDGE: PPS_OUT's scheduled edge (11 R281). -/
def execPpsOutEdge (s : State) : Host.Outcome State Fault Refusal :=
  perform (Instr.wf (.ppsOutEdge)) (true) (trigDrive 32) s

/-- INPUT_CHANGE_ACCEPTED: input k changes level at device time t and stays there for so many samples (11 R283). -/
def execInputChangeAccepted (k : Nat) (lv : Bool) (t : Nat) (samples : Nat) (s : State) : Host.Outcome State Fault
    Refusal :=
  perform (Instr.wf (.inputChangeAccepted k lv t samples)) (true) (inputChange k lv t samples) s

/-- MIN_INTERVAL_EXPIRE: input k's minimum interval ends (11 R284). -/
def execMinIntervalExpire (k : Nat) (t : Nat) (s : State) : Host.Outcome State Fault Refusal :=
  perform (Instr.wf (.minIntervalExpire k t)) (true) (intervalExpire k t) s

/-- INPUT_STUCK: input k has been active for long at device time t (11 R285). -/
def execInputStuck (k : Nat) (t : Nat) (s : State) : Host.Outcome State Fault Refusal :=
  perform (Instr.wf (.inputStuck k t)) (true) (inputStuck k t) s

/-- ADC_CONVERSION: input c of the ADC gives a code (11 R288). -/
def execAdcConversion (c : Nat) (code : Nat) (s : State) : Host.Outcome State Fault Refusal :=
  perform (Instr.wf (.adcConversion c code)) (true) (adcConvert c code) s

/-- NET_LOW_EVENT: four low codes of AIN0 in a row (11 R290). -/
def execNetLowEvent (t : Nat) (s : State) : Host.Outcome State Fault Refusal :=
  perform (Instr.wf (.netLowEvent t)) (true) (netLowEvent t) s

end Sys2Proof.Machine
end

