-- ==== Sys2Proof/Machine/Dispatch.lean ====
section
/-! DEFINITION. The dispatch: one arm per command, each a direct call of its meaning. -/

namespace Sys2Proof.Machine

def exec (i : Instr) (s : State) : Host.Outcome State Fault Refusal :=
  match i with
  | .porstNRelease node casc => Sys2Proof.Machine.execPorstNRelease node casc s
  | .porstNAssert => Sys2Proof.Machine.execPorstNAssert s
  | .lullReady => Sys2Proof.Machine.execLullReady s
  | .wake => Sys2Proof.Machine.execWake s
  | .refclkStop => Sys2Proof.Machine.execRefclkStop s
  | .warmRstNAssert => Sys2Proof.Machine.execWarmRstNAssert s
  | .warmRstNRelease => Sys2Proof.Machine.execWarmRstNRelease s
  | .retainedFirmwareCheck intact => Sys2Proof.Machine.execRetainedFirmwareCheck intact s
  | .usbEnumerate speed => Sys2Proof.Machine.execUsbEnumerate speed s
  | .firmwareStart => Sys2Proof.Machine.execFirmwareStart s
  | .requestConfig => Sys2Proof.Machine.execRequestConfig s
  | .requestRun => Sys2Proof.Machine.execRequestRun s
  | .requestAdapt => Sys2Proof.Machine.execRequestAdapt s
  | .requestLull => Sys2Proof.Machine.execRequestLull s
  | .drainComplete => Sys2Proof.Machine.execDrainComplete s
  | .stationaryLost => Sys2Proof.Machine.execStationaryLost s
  | .weightWriteBack n m => Sys2Proof.Machine.execWeightWriteBack n m s
  | .squallEntry => Sys2Proof.Machine.execSquallEntry s
  | .squallExit => Sys2Proof.Machine.execSquallExit s
  | .escalation => Sys2Proof.Machine.execEscalation s
  | .beatBoundary readback => Sys2Proof.Machine.execBeatBoundary readback s
  | .sliceRelease n => Sys2Proof.Machine.execSliceRelease n s
  | .sliceResponseEnd n => Sys2Proof.Machine.execSliceResponseEnd n s
  | .deadlineMissed n => Sys2Proof.Machine.execDeadlineMissed n s
  | .admitRequest n => Sys2Proof.Machine.execAdmitRequest n s
  | .withdrawRequest n => Sys2Proof.Machine.execWithdrawRequest n s
  | .admissionDecision delay others remote => Sys2Proof.Machine.execAdmissionDecision delay others remote s
  | .scheduleCommit => Sys2Proof.Machine.execScheduleCommit s
  | .withdrawalEffect n => Sys2Proof.Machine.execWithdrawalEffect n s
  | .admissionRecompute delay => Sys2Proof.Machine.execAdmissionRecompute delay s
  | .gust q t opened => Sys2Proof.Machine.execGust q t opened s
  | .quadClockGate q t => Sys2Proof.Machine.execQuadClockGate q t s
  | .passPlain e => Sys2Proof.Machine.execPassPlain e s
  | .passDiagonal e => Sys2Proof.Machine.execPassDiagonal e s
  | .passTransposed e => Sys2Proof.Machine.execPassTransposed e s
  | .passAveragePool e => Sys2Proof.Machine.execPassAveragePool e s
  | .passMaxPool e => Sys2Proof.Machine.execPassMaxPool e s
  | .passStart e half ue ce => Sys2Proof.Machine.execPassStart e half ue ce s
  | .passComplete e half flag => Sys2Proof.Machine.execPassComplete e half flag s
  | .passRerun e half ue ce => Sys2Proof.Machine.execPassRerun e half ue ce s
  | .passq e => Sys2Proof.Machine.execPassq e s
  | .tileTake e q => Sys2Proof.Machine.execTileTake e q s
  | .nop e => Sys2Proof.Machine.execNop e s
  | .endOp e => Sys2Proof.Machine.execEndOp e s
  | .sliceEnd e n => Sys2Proof.Machine.execSliceEnd e n s
  | .setdp e => Sys2Proof.Machine.execSetdp e s
  | .vchain e => Sys2Proof.Machine.execVchain e s
  | .dmaCopy e ue ce => Sys2Proof.Machine.execDmaCopy e ue ce s
  | .dmaBroadcast e ue ce => Sys2Proof.Machine.execDmaBroadcast e ue ce s
  | .dmaFill e => Sys2Proof.Machine.execDmaFill e s
  | .dmaComplete e j => Sys2Proof.Machine.execDmaComplete e j s
  | .lbHeldWriteResume e j => Sys2Proof.Machine.execLbHeldWriteResume e j s
  | .loop e => Sys2Proof.Machine.execLoop e s
  | .wait e => Sys2Proof.Machine.execWait e s
  | .waitReturn e n => Sys2Proof.Machine.execWaitReturn e n s
  | .signal e => Sys2Proof.Machine.execSignal e s
  | .barrier e => Sys2Proof.Machine.execBarrier e s
  | .barrierRelease o => Sys2Proof.Machine.execBarrierRelease o s
  | .fence e => Sys2Proof.Machine.execFence e s
  | .fenceReturn e n => Sys2Proof.Machine.execFenceReturn e n s
  | .brs e => Sys2Proof.Machine.execBrs e s
  | .mark e => Sys2Proof.Machine.execMark e s
  | .reservedOpcode e => Sys2Proof.Machine.execReservedOpcode e s
  | .chainStart e => Sys2Proof.Machine.execChainStart e s
  | .chainComplete e ue ce => Sys2Proof.Machine.execChainComplete e ue ce s
  | .loadFirmware hd payload => Sys2Proof.Machine.execLoadFirmware hd payload s
  | .firmwareVerified bad => Sys2Proof.Machine.execFirmwareVerified bad s
  | .loadProgramImage hd payload => Sys2Proof.Machine.execLoadProgramImage hd payload s
  | .loadWeights hd payload => Sys2Proof.Machine.execLoadWeights hd payload s
  | .readRun c a n start held met errs => Sys2Proof.Machine.execReadRun c a n start held met errs s
  | .writeRun c a start held met data => Sys2Proof.Machine.execWriteRun c a start held met data s
  | .readTraining c => Sys2Proof.Machine.execReadTraining c s
  | .setRefresh c rate => Sys2Proof.Machine.execSetRefresh c rate s
  | .readStatus c => Sys2Proof.Machine.execReadStatus c s
  | .refreshTick c => Sys2Proof.Machine.execRefreshTick c s
  | .refreshRateSwitch c => Sys2Proof.Machine.execRefreshRateSwitch c s
  | .backgroundSlot c good step errs => Sys2Proof.Machine.execBackgroundSlot c good step errs s
  | .scrubStarved c => Sys2Proof.Machine.execScrubStarved c s
  | .memRead hd payload ue => Sys2Proof.Machine.execMemRead hd payload ue s
  | .memWrite hd payload => Sys2Proof.Machine.execMemWrite hd payload s
  | .pinPage => Sys2Proof.Machine.execPinPage s
  | .unpinPage => Sys2Proof.Machine.execUnpinPage s
  | .tmReset => Sys2Proof.Machine.execTmReset s
  | .walkPhase1 t back ue => Sys2Proof.Machine.execWalkPhase1 t back ue s
  | .walkPhase2 t back ue => Sys2Proof.Machine.execWalkPhase2 t back ue s
  | .massRead t => Sys2Proof.Machine.execMassRead t s
  | .pair4ListBuild t => Sys2Proof.Machine.execPair4ListBuild t s
  | .csi2LongPacket n vc dt t fixed bad crcOk ue payload => Sys2Proof.Machine.execCsi2LongPacket n vc dt t fixed bad crcOk ue payload s
  | .csi2FrameStart n vc t => Sys2Proof.Machine.execCsi2FrameStart n vc t s
  | .csi2FrameEnd n vc t => Sys2Proof.Machine.execCsi2FrameEnd n vc t s
  | .csi2LineShortPacket n vc => Sys2Proof.Machine.execCsi2LineShortPacket n vc s
  | .ethernetFrameReceived p t0 t fcsOk m => Sys2Proof.Machine.execEthernetFrameReceived p t0 t fcsOk m s
  | .jxsDecodeStart n t outside => Sys2Proof.Machine.execJxsDecodeStart n t outside s
  | .jxsDecodeComplete n t depth ue rows => Sys2Proof.Machine.execJxsDecodeComplete n t depth ue rows s
  | .jxsDecodeBudgetExpired n t off => Sys2Proof.Machine.execJxsDecodeBudgetExpired n t off s
  | .sensorSilent n t => Sys2Proof.Machine.execSensorSilent n t s
  | .positionDeadline n t => Sys2Proof.Machine.execPositionDeadline n t s
  | .replayRecord hd t payload => Sys2Proof.Machine.execReplayRecord hd t payload s
  | .gptpSync port domain seq t => Sys2Proof.Machine.execGptpSync port domain seq t s
  | .gptpFollowUp port domain seq origin corr => Sys2Proof.Machine.execGptpFollowUp port domain seq origin corr s
  | .gptpPdelay port t1 t2 t3 t4 => Sys2Proof.Machine.execGptpPdelay port t1 t2 t3 t4 s
  | .gptpAnnounce port => Sys2Proof.Machine.execGptpAnnounce port s
  | .gptpSyncSend port t => Sys2Proof.Machine.execGptpSyncSend port t s
  | .mapUpdate => Sys2Proof.Machine.execMapUpdate s
  | .syncTimeout => Sys2Proof.Machine.execSyncTimeout s
  | .holdoverExpire => Sys2Proof.Machine.execHoldoverExpire s
  | .mapReset => Sys2Proof.Machine.execMapReset s
  | .ppsSeconds => Sys2Proof.Machine.execPpsSeconds s
  | .triggerStart k => Sys2Proof.Machine.execTriggerStart k s
  | .triggerSchedule k => Sys2Proof.Machine.execTriggerSchedule k s
  | .triggerEdge k => Sys2Proof.Machine.execTriggerEdge k s
  | .triggerPulseEnd k t => Sys2Proof.Machine.execTriggerPulseEnd k t s
  | .ppsOutEdge => Sys2Proof.Machine.execPpsOutEdge s
  | .inputChangeAccepted k lv t samples => Sys2Proof.Machine.execInputChangeAccepted k lv t samples s
  | .minIntervalExpire k t => Sys2Proof.Machine.execMinIntervalExpire k t s
  | .inputStuck k t => Sys2Proof.Machine.execInputStuck k t s
  | .capFifoPop c hd => Sys2Proof.Machine.execCapFifoPop c hd s
  | .adcConversion c code => Sys2Proof.Machine.execAdcConversion c code s
  | .netLowEvent t => Sys2Proof.Machine.execNetLowEvent t s
  | .powerHoldExpire => Sys2Proof.Machine.execPowerHoldExpire s
  | .pwmPeriod p => Sys2Proof.Machine.execPwmPeriod p s
  | .odRead hd payload => Sys2Proof.Machine.execOdRead hd payload s
  | .odWrite hd payload => Sys2Proof.Machine.execOdWrite hd payload s
  | .commit hd => Sys2Proof.Machine.execCommit hd s
  | .stageDiscard hd => Sys2Proof.Machine.execStageDiscard hd s
  | .commitApply link => Sys2Proof.Machine.execCommitApply link s
  | .usdoRequest c client q => Sys2Proof.Machine.execUsdoRequest c client q s
  | .usdoTimeout c t => Sys2Proof.Machine.execUsdoTimeout c t s
  | .nmtCommand c => Sys2Proof.Machine.execNmtCommand c s
  | .heartbeat c t => Sys2Proof.Machine.execHeartbeat c t s
  | .safetyStatusFrame => Sys2Proof.Machine.execSafetyStatusFrame s
  | .canBusOff c => Sys2Proof.Machine.execCanBusOff c s
  | .canBusOffRecovery c => Sys2Proof.Machine.execCanBusOffRecovery c s
  | .hello hd payload => Sys2Proof.Machine.execHello hd payload s
  | .keepalive hd => Sys2Proof.Machine.execKeepalive hd s
  | .unknownFrameType ftype hd => Sys2Proof.Machine.execUnknownFrameType ftype hd s
  | .crinoFrameCrcFail hd => Sys2Proof.Machine.execCrinoFrameCrcFail hd s
  | .regRead hd payload => Sys2Proof.Machine.execRegRead hd payload s
  | .regWrite hd payload => Sys2Proof.Machine.execRegWrite hd payload s
  | .hostKeepalive hd v => Sys2Proof.Machine.execHostKeepalive hd v s
  | .irqStatusClear hd v => Sys2Proof.Machine.execIrqStatusClear hd v s
  | .ringDoorbell hd r v => Sys2Proof.Machine.execRingDoorbell hd r v s
  | .cmdCommit => Sys2Proof.Machine.execCmdCommit s
  | .heavyPhaseHint => Sys2Proof.Machine.execHeavyPhaseHint s
  | .replayFrameEnd => Sys2Proof.Machine.execReplayFrameEnd s
  | .cmdNop => Sys2Proof.Machine.execCmdNop s
  | .cmdReserved => Sys2Proof.Machine.execCmdReserved s
  | .hostSilent link t => Sys2Proof.Machine.execHostSilent link t s
  | .usbDetach => Sys2Proof.Machine.execUsbDetach s
  | .arpRequest p target => Sys2Proof.Machine.execArpRequest p target s
  | .neighbourSolicitation p target => Sys2Proof.Machine.execNeighbourSolicitation p target s
  | .ethLinkChange p up => Sys2Proof.Machine.execEthLinkChange p up s
  | .attestRequest hd payload => Sys2Proof.Machine.execAttestRequest hd payload s
  | .attestReportSend => Sys2Proof.Machine.execAttestReportSend s
  | .logPop hd => Sys2Proof.Machine.execLogPop hd s
  | .logDrainTransfer n => Sys2Proof.Machine.execLogDrainTransfer n s
  | .comparatorMismatch k => Sys2Proof.Machine.execComparatorMismatch k s
  | .pairRestart k cause pc testOk digestOk => Sys2Proof.Machine.execPairRestart k cause pc testOk digestOk s
  | .pairHeartbeat k => Sys2Proof.Machine.execPairHeartbeat k s
  | .heartbeatMissed k => Sys2Proof.Machine.execHeartbeatMissed k s
  | .pairSplit k => Sys2Proof.Machine.execPairSplit k s
  | .pairRejoin k => Sys2Proof.Machine.execPairRejoin k s
  | .debugHalt k => Sys2Proof.Machine.execDebugHalt k s
  | .debugAccess k write => Sys2Proof.Machine.execDebugAccess k write s
  | .fwActivateRequest => Sys2Proof.Machine.execFwActivateRequest s
  | .fwActivateWithdraw => Sys2Proof.Machine.execFwActivateWithdraw s
  | .activationBegin => Sys2Proof.Machine.execActivationBegin s
  | .activationComplete => Sys2Proof.Machine.execActivationComplete s
  | .garnetPlanWrite half starts => Sys2Proof.Machine.execGarnetPlanWrite half starts s
  | .schedulePlanExhausted => Sys2Proof.Machine.execSchedulePlanExhausted s
  | .powerEstimate mw temps => Sys2Proof.Machine.execPowerEstimate mw temps s
  | .fwLevelWrite l => Sys2Proof.Machine.execFwLevelWrite l s
  | .clockStep q => Sys2Proof.Machine.execClockStep q s
  | .droopDetect q k => Sys2Proof.Machine.execDroopDetect q k s
  | .droopClear q => Sys2Proof.Machine.execDroopClear q s
  | .pllLockLost p => Sys2Proof.Machine.execPllLockLost p s
  | .pllRelock p => Sys2Proof.Machine.execPllRelock p s
  | .coolingUpdate => Sys2Proof.Machine.execCoolingUpdate s
  | .heavyPhaseRaise => Sys2Proof.Machine.execHeavyPhaseRaise s
  | .heavyPhaseEnd => Sys2Proof.Machine.execHeavyPhaseEnd s
  | .garnetWindowExpire q => Sys2Proof.Machine.execGarnetWindowExpire q s
  | .diagnosticCycleEnd failed missed => Sys2Proof.Machine.execDiagnosticCycleEnd failed missed s
  | .testStep q item t ok => Sys2Proof.Machine.execTestStep q item t ok s
  | .startupChecks fails => Sys2Proof.Machine.execStartupChecks fails s
  | .guardPathMismatch prog => Sys2Proof.Machine.execGuardPathMismatch prog s
  | .plausibilityCompare => Sys2Proof.Machine.execPlausibilityCompare s
  | .suspectRemedy q => Sys2Proof.Machine.execSuspectRemedy q s
  | .retest q beats pass => Sys2Proof.Machine.execRetest q beats pass s
  | .extWdgPulse => Sys2Proof.Machine.execExtWdgPulse s
  | .faultMessage msg master access full => Sys2Proof.Machine.execFaultMessage msg master access full s
  | .faultAck hd => Sys2Proof.Machine.execFaultAck hd s
  | .feRelease hd => Sys2Proof.Machine.execFeRelease hd s
  | .stopAckTimeout e n units => Sys2Proof.Machine.execStopAckTimeout e n units s
  | .progressStalled e n => Sys2Proof.Machine.execProgressStalled e n s
  | .computeResetBegin => Sys2Proof.Machine.execComputeResetBegin s
  | .computeResetDump taken lost => Sys2Proof.Machine.execComputeResetDump taken lost s
  | .computeResetAssert => Sys2Proof.Machine.execComputeResetAssert s
  | .computeResetRelease fails beats => Sys2Proof.Machine.execComputeResetRelease fails beats s
  | .resumption => Sys2Proof.Machine.execResumption s
  | .trainFlit p straps serial low high delay => Sys2Proof.Machine.execTrainFlit p straps serial low high delay s
  | .form own master => Sys2Proof.Machine.execForm own master s
  | .formation => Sys2Proof.Machine.execFormation s
  | .trainingTimeout step => Sys2Proof.Machine.execTrainingTimeout step s
  | .controlFlitReceived p ack m good => Sys2Proof.Machine.execControlFlitReceived p ack m good s
  | .recordFlit p seq ack stream flags index payload good => Sys2Proof.Machine.execRecordFlit p seq ack stream flags index payload good s
  | .managementFlit p seq ack good => Sys2Proof.Machine.execManagementFlit p seq ack good s
  | .flitResend p n => Sys2Proof.Machine.execFlitResend p n s
  | .jointStateChange => Sys2Proof.Machine.execJointStateChange s
  | .arrivalSetComplete k outs => Sys2Proof.Machine.execArrivalSetComplete k outs s
  | .jobAbort => Sys2Proof.Machine.execJobAbort s
  | .jobStretch on => Sys2Proof.Machine.execJobStretch on s
  | .partnerLost j => Sys2Proof.Machine.execPartnerLost j s
  | .memberExpel => Sys2Proof.Machine.execMemberExpel s
  | .jtagTestLogicReset => Sys2Proof.Machine.execJtagTestLogicReset s
  | .jtagBypass => Sys2Proof.Machine.execJtagBypass s
  | .jtagSample pins => Sys2Proof.Machine.execJtagSample pins s
  | .jtagPreload cells => Sys2Proof.Machine.execJtagPreload cells s
  | .jtagExtest pins => Sys2Proof.Machine.execJtagExtest pins s
  | .usbAttach speed => Sys2Proof.Machine.execUsbAttach speed s
  | .debuggerConnect => Sys2Proof.Machine.execDebuggerConnect s
  | .debugResume k => Sys2Proof.Machine.execDebugResume k s
  | .gptpAnnounceSend port t => Sys2Proof.Machine.execGptpAnnounceSend port t s

end Sys2Proof.Machine
end

