-- ==== Sys2Proof/Safety.lean ====
section
/-! DEFINITION. The terms that the statements use: the canonical form of memory, which commands the block accepts, and how
a statement names the next state of a command. -/

namespace Sys2Proof.Machine

/-- The canonical form of the addressed stores: addresses strictly rising, no entry equal to what an unlisted address
reads as. -/
abbrev Memory.wf (m : List Host.Cell) : Bool := tabWf memDefault m

/-- The invariant of every step: memory in its canonical form. -/
abbrev Inv (s : State) : Prop := Memory.wf s.mem = true

/-- The block as a command finds it, with nothing sent yet. -/
abbrev start (s : State) : Blk := (workOf s).toBlk

/-- The outcome of a command whose whole effect is `f`: stores applied, queue as it was. -/
def nextOf (s : State) (f : Work → Work) : Host.Outcome State Fault Refusal := .next (commitWork s (f (workOf s)))

/-- A command answers a next state of which P holds, with the queue as it was. -/
def Completes (c : Instr) (s : State) (P : State → Prop) : Prop :=
  ∃ t, exec c s = .next t ∧ t.pending = s.pending ∧ P t

/-- The unit that a command names is there on the grade. -/
def unitThere (c : Instr) (s : State) : Bool :=
  match c with
  | .porstNRelease _ _ => true
  | .porstNAssert => true
  | .lullReady => true
  | .wake => true
  | .refclkStop => true
  | .warmRstNAssert => true
  | .warmRstNRelease => true
  | .retainedFirmwareCheck _ => true
  | .usbEnumerate _ => true
  | .firmwareStart => true
  | .requestConfig => true
  | .requestRun => true
  | .requestAdapt => true
  | .requestLull => true
  | .drainComplete => true
  | .stationaryLost => true
  | .weightWriteBack _ _ => true
  | .squallEntry => true
  | .squallExit => true
  | .escalation => true
  | .beatBoundary _ => true
  | .sliceRelease n => ctxExists s.blk.fuses n.ctx
  | .sliceResponseEnd n => ctxExists s.blk.fuses n.ctx
  | .deadlineMissed n => ctxExists s.blk.fuses n
  | .admitRequest n => ctxExists s.blk.fuses n
  | .withdrawRequest n => ctxExists s.blk.fuses n
  | .admissionDecision _ _ _ => true
  | .scheduleCommit => true
  | .withdrawalEffect n => ctxExists s.blk.fuses n
  | .admissionRecompute _ => true
  | .gust q _ _ => isQuad q s
  | .quadClockGate q _ => isQuad q s
  | .passPlain e => isEngine e s
  | .passDiagonal e => isEngine e s
  | .passTransposed e => isEngine e s
  | .passAveragePool e => isEngine e s
  | .passMaxPool e => isEngine e s
  | .passStart e _ _ _ => isEngine e s
  | .passComplete e _ _ => isEngine e s
  | .passRerun e _ _ _ => isEngine e s
  | .passq e => isEngine e s
  | .tileTake e q => isEngine e s && decide (q < quadCount s.blk.fuses)
  | .nop e => isEngine e s
  | .endOp e => isEngine e s
  | .sliceEnd e n => isEngine e s && ctxExists s.blk.fuses n
  | .setdp e => isEngine e s
  | .vchain e => isEngine e s
  | .dmaCopy e _ _ => isEngine e s
  | .dmaBroadcast e _ _ => isEngine e s
  | .dmaFill e => isEngine e s
  | .dmaComplete e _ => isEngine e s
  | .lbHeldWriteResume e _ => isEngine e s
  | .loop e => isEngine e s
  | .wait e => isEngine e s
  | .waitReturn e n => isEngine e s && ctxExists s.blk.fuses n
  | .signal e => isEngine e s
  | .barrier e => isEngine e s
  | .barrierRelease o => decide (o / 4096 < dies s.blk.fuses)
  | .fence e => isEngine e s
  | .fenceReturn e n => isEngine e s && ctxExists s.blk.fuses n
  | .brs e => isEngine e s
  | .mark e => isEngine e s
  | .reservedOpcode e => isEngine e s
  | .chainStart e => isEngine e s
  | .chainComplete e _ _ => isEngine e s
  | .loadFirmware _ _ => true
  | .firmwareVerified _ => true
  | .loadProgramImage _ _ => true
  | .loadWeights _ _ => true
  | .readRun c _ _ _ _ _ _ => chanThere s c
  | .writeRun c _ _ _ _ _ => chanThere s c
  | .readTraining c => chanThere s c.chan
  | .setRefresh c _ => chanThere s c
  | .readStatus c => chanThere s c.chan
  | .refreshTick c => chanThere s c
  | .refreshRateSwitch c => chanThere s c
  | .backgroundSlot c _ _ _ => chanThere s c
  | .scrubStarved c => chanThere s c
  | .memRead _ _ _ => true
  | .memWrite _ _ => true
  | .pinPage => true
  | .unpinPage => true
  | .tmReset => true
  | .walkPhase1 _ _ _ => true
  | .walkPhase2 _ _ _ => true
  | .massRead _ => true
  | .pair4ListBuild _ => true
  | .csi2LongPacket _ _ _ _ _ _ _ _ _ => true
  | .csi2FrameStart _ _ _ => true
  | .csi2FrameEnd _ _ _ => true
  | .csi2LineShortPacket _ _ => true
  | .ethernetFrameReceived _ _ _ _ _ => true
  | .jxsDecodeStart _ _ _ => true
  | .jxsDecodeComplete _ _ _ _ _ => true
  | .jxsDecodeBudgetExpired _ _ _ => true
  | .sensorSilent _ _ => true
  | .positionDeadline _ _ => true
  | .replayRecord _ _ _ => true
  | .gptpSync _ _ _ _ => true
  | .gptpFollowUp _ _ _ _ _ => true
  | .gptpPdelay _ _ _ _ _ => true
  | .gptpAnnounce _ => true
  | .gptpSyncSend _ _ => true
  | .mapUpdate => true
  | .syncTimeout => true
  | .holdoverExpire => true
  | .mapReset => true
  | .ppsSeconds => true
  | .triggerStart _ => true
  | .triggerSchedule _ => true
  | .triggerEdge _ => true
  | .triggerPulseEnd _ _ => true
  | .ppsOutEdge => true
  | .inputChangeAccepted _ _ _ _ => true
  | .minIntervalExpire _ _ => true
  | .inputStuck _ _ => true
  | .capFifoPop _ _ => true
  | .adcConversion _ _ => true
  | .netLowEvent _ => true
  | .powerHoldExpire => true
  | .pwmPeriod _ => true
  | .odRead _ _ => true
  | .odWrite _ _ => true
  | .commit _ => true
  | .stageDiscard _ => true
  | .commitApply _ => true
  | .usdoRequest _ _ _ => true
  | .usdoTimeout _ _ => true
  | .nmtCommand _ => true
  | .heartbeat _ _ => true
  | .safetyStatusFrame => true
  | .canBusOff _ => true
  | .canBusOffRecovery _ => true
  | .hello _ _ => true
  | .keepalive _ => true
  | .unknownFrameType _ _ => true
  | .crinoFrameCrcFail _ => true
  | .regRead _ _ => true
  | .regWrite _ _ => true
  | .hostKeepalive _ _ => true
  | .irqStatusClear _ _ => true
  | .ringDoorbell _ _ _ => true
  | .cmdCommit => true
  | .heavyPhaseHint => true
  | .replayFrameEnd => true
  | .cmdNop => true
  | .cmdReserved => true
  | .hostSilent _ _ => true
  | .usbDetach => true
  | .arpRequest _ _ => true
  | .neighbourSolicitation _ _ => true
  | .ethLinkChange _ _ => true
  | .attestRequest _ _ => true
  | .attestReportSend => true
  | .logPop _ => true
  | .logDrainTransfer _ => true
  | .comparatorMismatch _ => true
  | .pairRestart _ _ _ _ _ => true
  | .pairHeartbeat _ => true
  | .heartbeatMissed _ => true
  | .pairSplit _ => true
  | .pairRejoin _ => true
  | .debugHalt _ => true
  | .debugAccess _ _ => true
  | .fwActivateRequest => true
  | .fwActivateWithdraw => true
  | .activationBegin => true
  | .activationComplete => true
  | .garnetPlanWrite _ _ => true
  | .schedulePlanExhausted => true
  | .powerEstimate _ _ => true
  | .fwLevelWrite _ => true
  | .clockStep q => isQuad q s
  | .droopDetect q _ => isQuad q s
  | .droopClear q => isQuad q s
  | .pllLockLost p => pllThere p s
  | .pllRelock p => pllThere p s
  | .coolingUpdate => true
  | .heavyPhaseRaise => true
  | .heavyPhaseEnd => true
  | .garnetWindowExpire q => isQuad q s
  | .diagnosticCycleEnd _ _ => true
  | .testStep q _ _ _ => isQuad q s
  | .startupChecks _ => true
  | .guardPathMismatch _ => true
  | .plausibilityCompare => true
  | .suspectRemedy q => isQuad q s
  | .retest q _ _ => isQuad q s
  | .extWdgPulse => true
  | .faultMessage _ _ _ _ => true
  | .faultAck _ => true
  | .feRelease _ => true
  | .stopAckTimeout e _ _ => isEngine e s
  | .progressStalled e _ => isEngine e s
  | .computeResetBegin => true
  | .computeResetDump _ _ => true
  | .computeResetAssert => true
  | .computeResetRelease _ _ => true
  | .resumption => true
  | .trainFlit _ _ _ _ _ _ => true
  | .form _ _ => true
  | .formation => true
  | .trainingTimeout _ => true
  | .controlFlitReceived _ _ _ _ => true
  | .recordFlit _ _ _ _ _ _ _ _ => true
  | .managementFlit _ _ _ _ => true
  | .flitResend _ _ => true
  | .jointStateChange => true
  | .arrivalSetComplete _ _ => true
  | .jobAbort => true
  | .jobStretch _ => true
  | .partnerLost _ => true
  | .memberExpel => true
  | .jtagTestLogicReset => true
  | .jtagBypass => true
  | .jtagSample _ => true
  | .jtagPreload _ => true
  | .jtagExtest _ => true
  | .usbAttach _ => true
  | .debuggerConnect => true
  | .debugResume _ => true
  | .gptpAnnounceSend _ _ => true

/-- A command whose operands lie in their encodings and whose unit is there. -/
abbrev Accepted (c : Instr) (s : State) : Prop := Instr.wf c = true ∧ unitThere c s = true

/-- Engine e's sequencer issues the instruction i of slot k next (04 R80, R82): the slot is the one it picks, the instruction
is fetched inside the store and is well formed. -/
abbrev Issues (s : State) (e k i : Nat) : Prop :=
  e < 256 ∧ e < engineCount s.blk.fuses ∧ pickSlot (workOf s) e = some k ∧
  fetchWord (workOf s) e (slotOf (engineOf (start s) e) k).pc = i ∧
  fetchOk (start s) e (slotOf (engineOf (start s) e) k).pc = true ∧ iCheck i = none

/-- The issue of slot k's instruction: one cycle is charged, the program counter moves on (04 R84, R86). -/
def issued (e k : Nat) (w : Work) : Work :=
  modSlot e k (fun s => { advancePc s with charge := s.charge + 1, progress := w.time.beat }) w

/-- What earlier frames of a message have brought (12 R313). -/
def heldBytes (b : Blk) (hd : Hdr) (ftype : Nat) : List Byte :=
  (((sessionOf b hd.link).partials.find? (fun m => m.ftype == ftype && m.tag == hd.tag)).map (·.bytes)).getD []

/-- A frame with which its session has the whole message m (12 R313, R314): the link serves, the sender is the session's
peer, version and reserved bytes are right, LAST is set, no answer to its TAG is held, and its payload joins what the earlier
frames of the message have brought. -/
abbrev FrameServed (hd : Hdr) (ftype : Nat) (payload m : List Byte) (s : State) : Prop :=
  hd.wf = true ∧ linkServes (start s) hd.link hd.port = true ∧ stranger (start s) hd = false ∧
  (sessionOf (start s) hd.link).up = true ∧ hd.version = (sessionOf (start s) hd.link).version ∧ hd.reserved = 0 ∧
  (hd.flags = 1 ∨ hd.flags = 3) ∧ heldAnswer (start s) hd = none ∧ payload.length ≤ frameMax hd ∧
  hd.offset = (heldBytes (start s) hd ftype).length ∧ m = heldBytes (start s) hd ftype ++ payload

/-- The session notes the frame's time; nothing of its message stays open. -/
def served (hd : Hdr) (ftype : Nat) (w : Work) : Work :=
  dropPartial hd.link ftype hd.tag (heard hd.link w)

end Sys2Proof.Machine
end

