-- ==== Sys2Proof/Certificates/Slice0/Obligations.lean ====
section
/-! DEFINITION. The statements for the provers. `start s` is the block as a command finds it, `nextOf s f` the outcome of a
command whose whole effect is `f` (so what `f` does not write stands as it was), `Completes` a next state with a property. -/

open Sys2Proof Sys2Proof.Machine


/-! ## Resets, start and device states -/

/-- The pins' commands. PORST_N_ASSERT leaves every object at its default, fuses, test port and free values apart; its
release gives device time 0, the straps and LULL (01 R21, 18 R467, R469, R470); WAKE leads from LULL, once it is ready, to BOOT
with LAST_CAUSE 2 where an image is retained and 1 elsewhere (14 R355, 01 R19); REFCLK_STOP leads to the state of PORST_N (18
R471); WARM_RST_N, where no pending escalation ranks above it (01 R24), loses what it does not keep and enters BOOT with
LAST_CAUSE 0x0A (01 R28), and its release relocks the PLLs. -/
def Obligations.ResetPinCommands : Prop :=
  ∀ (s : State) (node casc : Nat),
    exec .porstNAssert s = nextOf s holdAll ∧
    Completes .porstNAssert s (fun t => t.blk =
      { Blk.reset with fuses := s.blk.fuses, tap := s.blk.tap, free := s.blk.free, out := [] }) ∧
    (Instr.wf (.porstNRelease node casc) = true → s.blk.dev.state = .porst →
      Completes (.porstNRelease node casc) s (fun t => t.blk.dev.state = .lull ∧ t.blk.dev.nodeId = node ∧
        t.blk.dev.casc = casc ∧ t.blk.time.beat = 0 ∧ t.blk.time.ns = 0 ∧ t.blk.slices = [] ∧ t.blk.engines = [] ∧
        t.blk.fuses = s.blk.fuses)) ∧
    (s.blk.dev.state = .lull → exec .lullReady s = nextOf s (fun w => { w with dev.ready := true })) ∧
    (s.blk.dev.state = .lull → s.blk.dev.ready = true → s.blk.dev.wake = true → s.blk.dev.warm = false →
      exec .wake s = nextOf s (fun w =>
        let again := s.blk.dev.retained
        let w := doIf again (odAdd 0x2202 4 (2 * dies s.blk.fuses + 1)) { w with pow.unlocked := [] }
        { w with dev.state := .boot, dev.prev := if again then 7 else 0, dev.cause := if again then 2 else 1 })) ∧
    exec .refclkStop s = nextOf s (fun w => { w with dev.state := .porst, dev.noRefclk := true, dev.ready := false }) ∧
    (s.blk.dev.state ≠ .safe → s.blk.dev.state ≠ .porst → s.blk.dev.warm = false →
      (s.blk.dev.escalate = none ∨ s.blk.dev.state = .lull) →
      exec .warmRstNAssert s = nextOf s (fun w =>
        let w := loseVolatile w
        { w with dev.state := .boot, dev.prev := stateCode s.blk.dev.state, dev.cause := 0xA, dev.warm := true })) ∧
    (s.blk.dev.warm = true → exec .warmRstNRelease s = nextOf s (fun w =>
      odAdd 0x2202 4 (2 * dies s.blk.fuses + 1) { w with dev.warm := false, pow.unlocked := [] }))
/-- The start (13 R331, 15 R389): a retained image that is intact starts the pairs, one that is not is discarded with
LAST_CAUSE 0x0B (01 R26); the port's enumeration sets USB_SPEED; a verified image is activated in
BOOT and waits for its activation elsewhere, one that fails is answered with its code; when every pair has
reported, FIRMWARE_START enters CONFIG with LAST_CAUSE 3; the start-up checks that all pass open RUN. -/
def Obligations.StartCommands : Prop :=
  ∀ (s : State) (img : FwImage) (speed link tag : Nat) (msg : List Byte) (bad : List Nat) (rest : List CryptoOp),
    (s.blk.dev.state = .boot → s.blk.dev.warm = false → s.blk.dev.retained = true → s.blk.dev.starting = false →
      s.blk.cores.active = some img → fwDigest img.bytes = s.blk.cores.recorded →
      exec (.retainedFirmwareCheck true) s = nextOf s (startPairs [])) ∧
    (s.blk.dev.state = .boot → s.blk.dev.warm = false → s.blk.dev.retained = true → s.blk.dev.starting = false →
      s.blk.cores.active = some img →
      exec (.retainedFirmwareCheck false) s = nextOf s (fun w =>
        { w with cores.active := none, dev.retained := false, dev.cause := 0x0B })) ∧
    (speed ≤ 3 → s.blk.dev.state = .boot → s.blk.dev.warm = false → s.blk.pow.unlocked.contains 4 = false →
      exec (.usbEnumerate speed) s = nextOf s (odPut 0x2800 2 speed)) ∧
    (1 ≤ speed → speed ≤ 4 → usbPresent (start s) = true → exec (.usbAttach speed) s = nextOf s (odPut 0x2800 2 speed)) ∧
    (s.blk.cores.crypto = .verify link tag msg :: rest → s.blk.dev.starting = false →
      exec (.firmwareVerified bad) s = nextOf s (fun w =>
        let m := msg.drop 16
        let w := { w with cores.crypto := rest }
        let code := fwCheck w.toBlk m
        let img : FwImage := { bytes := m, slot := (fwSlot w.fuses m).getD 0xFF }
        if code ≠ 0 then fwResult link tag 8 code msg w
        else if s.blk.dev.state = .boot then
          startPairs bad { fwResult link tag 0 0 msg w with cores.active := some img, cores.recorded := fwDigest m }
        else
          let w := fwResult link tag 0 0 msg w
          odPut 0x2500 1 2 (odPut 0x2500 5 (leNat (fwDigest m)) (odPut 0x2500 6 (fwVersion m)
            { w with cores.pending := some img })))) ∧
    (s.blk.dev.state = .boot → s.blk.dev.starting = true → s.blk.dev.warm = false →
      (∀ k < 6, pairState (start s) k = 1) →
      Completes .firmwareStart s (fun t => t.blk.dev.state = .config ∧ t.blk.dev.prev = 1 ∧ t.blk.dev.cause = 3 ∧
        t.blk.dev.starting = false ∧ t.blk.dev.checksPassed = false ∧ t.mem = s.mem)) ∧
    (odGet (start s) 0x2300 5 = 1 → s.blk.dev.state = .config → odGet (start s) 0x2510 1 = 1 →
      Completes (.startupChecks []) s (fun t => t.blk.dev.checksPassed = true ∧ odGet t.blk 0x2300 5 = 2 ∧
        t.blk.safe.checkedAt = some s.blk.time.beat ∧ t.mem = s.mem))
/-- A committed request enters the state it names where R21 has the transition (CONFIG to RUN, ADAPT or LULL, RUN to the
drain), outside a formed cascade, where the request stays for the master (17 R441); a drain that is complete ends in CONFIG with
LAST_CAUSE 4, and the loss of the stationary indication ends ADAPT in CONFIG with LAST_CAUSE 5, which in a formed cascade the
master asks of every member (01 R21, R22, R25, 17 R441). -/
def Obligations.StateRequests : Prop :=
  ∀ s : State,
    (odGet (start s) 0x2700 4 ≠ 2 →
      (.request 2 ∈ s.blk.links.effects → s.blk.dev.state = .run →
        exec .requestConfig s = nextOf s (fun w =>
          { w with links.effects := w.links.effects.erase (.request 2), dev.draining := true })) ∧
      (.request 2 ∈ s.blk.links.effects → s.blk.dev.state = .adapt →
        exec .requestConfig s = nextOf s (fun w => toConfig 4 { w with links.effects := w.links.effects.erase (.request 2) })) ∧
      (.request 3 ∈ s.blk.links.effects → s.blk.dev.state = .config → s.blk.dev.checksPassed = true →
        ctxGet (start s) 0 0x0B = 2 →
        exec .requestRun s = nextOf s (fun w =>
          enterState .run 4 (enterActive { w with links.effects := w.links.effects.erase (.request 3) }))) ∧
      (.request 4 ∈ s.blk.links.effects → s.blk.dev.state = .config → stationary (start s) = true →
        exec .requestAdapt s = nextOf s (fun w =>
          enterState .adapt 4 (enterActive (cacheClear { w with links.effects := w.links.effects.erase (.request 4) })))) ∧
      (.request 7 ∈ s.blk.links.effects → s.blk.dev.state = .config →
        exec .requestLull s = nextOf s (fun w =>
          enterState .lull 4 (trigsLull (loseVolatile { w with links.effects := w.links.effects.erase (.request 7) })))) ∧
      (drained (start s) = true → exec .drainComplete s = nextOf s (toConfig 4))) ∧
    (odGet (start s) 0x2700 4 = 2 →
      exec .requestConfig s = nextOf s id ∧ exec .requestRun s = nextOf s id ∧ exec .requestAdapt s = nextOf s id ∧
      exec .requestLull s = nextOf s id) ∧
    (s.blk.dev.state = .adapt → stationary (start s) = false → exec .stationaryLost s = nextOf s (fun w =>
      let w := toConfig 5 w
      if odGet w.toBlk 0x2700 4 = 2 ∧ odGet w.toBlk 0x2700 2 % 4 = 0 then
        { w with links.effects := w.links.effects ++ [.request 2] }
      else w))
/-- SQUALL and SAFE. An emergency in RUN enters SQUALL, with LAST_CAUSE 6 where it is one of power (bits 0 and 4 of the
emergencies) and 7 elsewhere (14 R372): the Timed and Elastic contexts that hold admission have the slice that still runs
stopped, what they have not published dropped (10 R264), ADMIT_STATUS 5 (01 R18) and their input streams suspended. Once no
emergency stands, SQUALL is left for RUN as RUN is entered, with LAST_CAUSE 8. The escalation to SAFE (16 R425) has LAST_CAUSE 9
and LAST_PREVIOUS the state it left, notes its source and its beat in ESCALATION_CAUSE and ESCALATION_BEAT, lets SAFE_OK go low
and leaves no slice and no queued pass, pairs 1 to 5 absent and the input streams suspended. A write-back ends the adaptation step of its context (01 R25): its weights are stored, its handle stands for the
context and the step is over. -/
def Obligations.SquallAndEscalation : Prop :=
  ∀ (s : State) (src n : Nat) (m : List Byte),
    (s.blk.dev.state = .run → s.blk.dev.emergency ≠ 0 →
      exec .squallEntry s = nextOf s (fun w =>
        enterState .squall (if s.blk.dev.emergency.testBit 0 || s.blk.dev.emergency.testBit 4 then 6 else 7)
          (forAll (squallCtxs (start s)) (fun n w =>
            let x := sliceOf w.toBlk n
            let w := doIf (x.live && x.doneAt.isNone && x.stopped.isNone) (stopSlice n false) w
            let w := forAll (streamsFor w.toBlk n) (fun o w => modOut o (fun x => { x with due := [] }) w) w
            suspendIngest n (ctxPut n 0x0B 5 w)) w)) ∧
      Completes .squallEntry s (fun t => t.blk.dev.state = .squall ∧
        t.blk.dev.cause = if s.blk.dev.emergency.testBit 0 || s.blk.dev.emergency.testBit 4 then 6 else 7)) ∧
    (s.blk.dev.state = .squall → s.blk.dev.emergency = 0 →
      exec .squallExit s = nextOf s (fun w => enterState .run 8 (enterActive w)) ∧
      Completes .squallExit s (fun t => t.blk.dev.state = .run ∧ t.blk.dev.prev = 5 ∧ t.blk.dev.cause = 8 ∧ t.mem = s.mem ∧
        t.blk.engines = s.blk.engines)) ∧
    (s.blk.dev.escalate = some src → s.blk.dev.state ≠ .lull → s.blk.dev.state ≠ .porst → s.blk.dev.state ≠ .safe →
      exec .escalation s = nextOf s (fun w =>
        let w := enterState .safe 9 (refuseCommits 0x08000022 { w with dev.escalate := none })
        let w := odPut 0x2430 0xA w.time.beat (odPut 0x2430 9 src (odPut 0x2430 3 0 w))
        let w := { w with dev.draining := false, dev.steps := [], coll.resetBy := none, links.effects := [],
                          rst := { w.rst with asserted := none, released := none, tested := none } }
        let w := forAll [1, 2, 3, 4, 5] (fun k w =>
          pairAbsent k (pairPut k 1 5 (modPair k (fun p => { p with start := none }) w))) w
        let w := forAll (List.range 32) inSuspend { clearCompute w with slices := [] }
        { w with safe := { w.safe with high := false, okFrom := none, guardRun := 0, wdgUntil := none } }) ∧
      Completes .escalation s (fun t => t.blk.dev.state = .safe ∧ t.blk.dev.cause = 9 ∧
        t.blk.dev.prev = stateCode s.blk.dev.state ∧ t.blk.dev.escalate = none ∧ t.blk.safe.high = false ∧
        t.blk.safe.okFrom = none ∧ t.blk.safe.guardRun = 0 ∧ t.blk.slices = [] ∧ t.blk.tileq = [])) ∧
    (s.blk.dev.state = .adapt → s.blk.dev.steps.contains n = true → n < 1024 → m.length ≤ 2 ^ 31 → pairRuns (start s) 5 = true →
      ((sliceOf (start s) n).live && (sliceOf (start s) n).doneAt.isNone) = false → leAt m 1 1 = 3 → leAt m 2 2 = n →
      m.length = 16 + 16 * leAt m 8 4 + (weightSegs m).foldl (fun a x => a + x.2.2.1) 0 →
      (weightSegs m).all (weightSegOk (start s) n (activePlace (start s) n)) = true → s.blk.res.nextWeight ≤ 65535 →
      exec (.weightWriteBack n m) s = nextOf s (fun w =>
        let h := takeHandle 2 (leNat (sha3 m)) (storeSegs m w)
        { h.2 with res.weights := tabSet 0 h.2.res.weights n h.1, dev.steps := h.2.dev.steps.filter (· != n) }))
/-- BEAT_BOUNDARY: unless PORST_N or a stopped REFCLK holds time, the beat counter advances by 1 and device time stands at its
start; then come the network time map, the commits, transitions and schedules, what time brings, the results, the releases and
what shows at a boundary, in the order of 02 R33, and the control flits of the beat. -/
def Obligations.BeatBoundaryOrder : Prop :=
  ∀ (s : State) (met : BeatMet), s.blk.dev.state ≠ .porst → s.blk.dev.noRefclk = false →
    Instr.wf (.beatBoundary met) = true →
    exec (.beatBoundary met) s = nextOf s (fun w =>
      let beat := s.blk.time.beat + 1
      let w := { w with casc.abortOut := 0, time := { s.blk.time with beat := beat, ns := 2000 * beat }, res.used := [] }
      let w := boundaryTwo (mapUpdate (holdoverExpire w))
      let w := gclStep (droopBeat (timeBeat w))
      let w := boundaryFour met (boundaryThree met w)
      controlSend s.blk.casc.abortOut (shownStep met.pins w))

/-! ## Admission, slices and the quads' clocks -/

/-- A slice (02 R32, R33, R37): where its release is due, no slice of the context lives and nothing holds or skips it, it lives
from the boundary with the configuration that stands, its engines started at their entries; its response time ends once it has
stopped, or has completed with no mass read outstanding (08 R198); a slice that is not complete at its deadline counts as
missed, is reported unless its context is Elastic, and its results are withheld. -/
def Obligations.SliceCommands : Prop :=
  ∀ (s : State) (n : Nat) (maps : List (Nat × Nat)), n < 1024 → ctxExists s.blk.fuses n = true → mapsWf maps = true →
    (releaseDue (start s) n = true → releaseHeld (periodReset n (workOf s)).toBlk n = false →
      (sliceOf (start s) n).live = false →
      releaseSkipped (periodReset n (workOf s)).toBlk n = false →
      exec (.sliceRelease { ctx := n, maps }) s = nextOf s (fun w =>
        let w := periodReset n w
        let es := ctxEngines w.toBlk n
        let w := modSlice n (fun _ => { Slice.idle with live := true, rel := s.blk.time.beat, open_ := es.map (·.1),
                                                        cfg := cfgNow w.toBlk, startAt := plannedStart w.toBlk n }) w
        let w := forAll es (startOnEngine n)
          (resetSliceSyncs n (stepStart n (pushDue n false (modCtx n (fun c => { c with needPred := none }) w))))
        let w := doIf (isGarnet n)
          (modQuad (n - 960) (fun r => { r with garnet := some ((w.time.beat - (n - 960)) / 64, []) })) w
        let r := tmRelease maps n (releaseIngest n w)
        if r.1 = false then stopSlice n false r.2 else if es.isEmpty then sliceDone n r.2 else r.2)) ∧
    ((sliceOf (start s) n).live = true → ((sliceOf (start s) n).doneAt.isSome || (sliceOf (start s) n).stopped.isSome) = true →
      (tmPending (start s) n && (sliceOf (start s) n).stopped.isNone) = false →
      exec (.sliceResponseEnd { ctx := n, maps }) s = nextOf s (fun w =>
        if isGarnet n then responseEnd.garnetEnd (n - 960) (sliceOf (start s) n) (endSlice maps n w) else endSlice maps n w)) ∧
    ((sliceOf (start s) n).live = true → (sliceOf (start s) n).doneAt = none → (sliceOf (start s) n).stopped = none →
      (sliceOf (start s) n).missed = false → (sliceOf (start s) n).withheld = false →
      (sliceOf (start s) n).rel + ctxGet (start s) n 5 ≤ s.blk.time.beat →
      exec (.deadlineMissed n) s = nextOf s (fun w =>
        withholdSlice n (doIf (decide (ctxClass w.toBlk n ≤ 2))
          (raise 0x01A n (s.blk.time.beat - ((sliceOf w.toBlk n).rel + ctxGet w.toBlk n 5)))
          (modSlice n (fun x => { x with missed := true }) w))))
/-- Admission (02 R44, R52, R53). A committed request makes a context that is not admitted wait for a decision, with the order of
its commit; a withdrawal of an admitted context is due at the end of its period. Outside a formed cascade pair 2 decides the
requests of the oldest commit, none of which then waits any more and none of which is admitted yet, its schedule due `delay`
beats later and never before 8; a decided schedule whose beat has come commits whole, at the clocks that it was tested at; a
withdrawal that is due takes the context's admission away, ADMIT_STATUS 0, and suspends its streams. A recomputation that is
asked for is decided at once and committed `delay` beats later, at once where that is 0. -/
def Obligations.AdmissionCommands : Prop :=
  ∀ (s : State) (n order delay t : Nat) (others : List (Nat × Nat × Nat)) (remote : Bool),
    (n < 1024 → ctxExists s.blk.fuses n = true →
      s.blk.links.effects.find? (isAdmit n) = some (.admission n order) → ctxGet (start s) n 0x0B ≠ 1 →
      ctxGet (start s) n 0x0B ≠ 2 → ctxGet (start s) n 0x0B ≠ 5 →
      exec (.admitRequest n) s = nextOf s (fun w =>
        busyStep (modCtx n (fun c => { c with pendingAt := some order, decided := none })
          (ctxPut n 0x0B 1 (ctxPut n 0x0C 0 { w with links.effects := w.links.effects.erase (.admission n order) }))))) ∧
    (n < 1024 → ctxExists s.blk.fuses n = true → .withdraw n ∈ s.blk.links.effects →
      (ctxGet (start s) n 0x0B = 2 ∨ ctxGet (start s) n 0x0B = 5) →
      exec (.withdrawRequest n) s = nextOf s (fun w =>
        modCtx n (fun c => { c with withdrawAt := some (c.withdrawAt.getD (periodEnd (start s) n)) })
          { w with links.effects := w.links.effects.erase (.withdraw n) })) ∧
    (8 ≤ delay → delay ≤ 2500 → Instr.wf (.admissionDecision delay others remote) = true → formed (start s) = false →
      exec (.admissionDecision delay others remote) s = nextOf s (admissionDecision delay []) ∧
      ∀ g : Nat, oldestGroup (start s) = some g → pairRuns (start s) 2 = true →
        Completes (.admissionDecision delay others remote) s (fun u => u.mem = s.mem ∧ u.blk.slices = s.blk.slices ∧
          u.blk.engines = s.blk.engines ∧ u.blk.time = s.blk.time ∧
          ∀ m ∈ groupOf (start s) g, (ctxRun u.blk m).pendingAt = none ∧
            ((ctxRun u.blk m).decided = (ctxRun (start s) m).decided ∨
              ∃ d, (ctxRun u.blk m).decided = some (s.blk.time.beat + delay, d)))) ∧
    ((s.blk.ctxs.filter (fun p => match p.2.decided with | some d => decide (d.1 ≤ s.blk.time.beat) | none => false)) ≠ [] →
      exec .scheduleCommit s = nextOf s (fun w =>
        scheduleDone (takeClocks (forAll (s.blk.ctxs.filter (fun p =>
          match p.2.decided with | some d => decide (d.1 ≤ s.blk.time.beat) | none => false))
          (fun p w => match p.2.decided with | some d => admitCtx p.1 d.2.1 d.2.2.1 d.2.2.2 w | none => w) w)))) ∧
    (n < 1024 → ctxExists s.blk.fuses n = true → (ctxRun (start s) n).withdrawAt = some t → t ≤ s.blk.time.beat →
      exec (.withdrawalEffect n) s = nextOf s (fun w => scheduleDone (suspendIngest n (dropAdmission n 0 0 w)))) ∧
    (delay ≤ 2500 → s.blk.sched.recompute.isSome = true → s.blk.sched.commitAt = none → pairRuns (start s) 2 = true →
      resetting (start s) = false →
      (0 < delay → exec (.admissionRecompute delay) s = nextOf s (fun w =>
        { w with sched.commitAt := some (w.time.beat + delay) })) ∧
      (delay = 0 → exec (.admissionRecompute delay) s = nextOf s (fun w =>
        recomputeCommit { w with sched.commitAt := some w.time.beat })))
/-- The quads' clocks (02 R47, 14 R352, R358). The sequencer opens the clock of a gated quad once its next release lies no further
ahead than its wake lead, counts it in GUSTS, and reports 0x01F where the clock is not open 20 ns later; it gates a quad
that has nothing to do, is not removed and has no release, or, outside the active states, none due, or whose next release lies further ahead than the
largest wake lead placed there and 40 ns. A clock step takes the wanted clock at a boundary where the voltage allows it; a droop
is counted with the cycles that it stretches, which the quad's credit pays, and is reported once where the credit does not
suffice; and it clears. -/
def Obligations.QuadClockCommands : Prop :=
  ∀ (s : State) (q t k r lead : Nat), q < 64 → q < quadCount s.blk.fuses →
    (t < 2 ^ 64 → nextRelease (atTime t (workOf s)).toBlk q = some (r, lead) →
      2000 * r ≤ moment t (workOf s) + lead → (quadRun (start s) q).gated = true →
      quadRemoved (start s) q = false → resetting (start s) = false → activeState (start s) = true →
      exec (.gust q t true) s = nextOf s (fun w =>
        modQuad q (fun x => { x with gated := false }) (quadAdd q 0x98 1 (atTime t w))) ∧
      exec (.gust q t false) s = nextOf s (fun w => raise 0x01F q 0 (quadAdd q 0x98 1 (atTime t w)))) ∧
    (t < 2 ^ 64 → quadBusy (atTime t (workOf s)).toBlk q = false →
      stealing (atTime t (workOf s)).toBlk q = false → quadGet (start s) q 0xA0 ≠ 2 → resetting (start s) = false →
      servedState (start s) = true →
      (nextRelease (atTime t (workOf s)).toBlk q = none ∨ activeState (start s) = false ∨
        ∃ r' lead', nextRelease (atTime t (workOf s)).toBlk q = some (r', lead') ∧
          moment t (workOf s) +
            (placedOn (atTime t (workOf s)).toBlk q).foldl (fun m n => max m (ctxGet (atTime t (workOf s)).toBlk n 6)) 0 + 40 <
              2000 * r') →
      exec (.quadClockGate q t) s = nextOf s (fun w => modQuad q (fun x => { x with gated := true }) (atTime t w))) ∧
    (quadGet (start s) q 0xA0 ≠ 2 → quadGet (start s) q 0x9D ≠ 0 → s.blk.time.ns = 2000 * s.blk.time.beat →
      (quadRun (start s) q).stepAt ≠ some s.blk.time.beat → clockWaits (start s) q = false →
      setPoint (start s) q (max (wantClock (start s) q) (clockOf (start s) q)) (offsetSteps (start s) q) ≤
        quadGet (start s) q 0x92 → clockOf (start s) q ≠ wantClock (start s) q → droopHolds (start s) q = false →
      exec (.clockStep q) s = nextOf s (setClock q (wantClock (start s) q))) ∧
    (k < 65536 →
      let x := quadRun (start s) q
      let droop := fun w => modQuad q (fun y => { y with droop := true, stretched := x.stretched + k, credit := y.credit - k,
                                                         spent := y.spent || decide (x.credit < k) })
        (quadAdd q 0x9A k (quadAdd q 0x99 1 w))
      (k ≤ x.credit ∨ x.spent = true → exec (.droopDetect q k) s = nextOf s droop) ∧
      (x.credit < k → x.spent = false → exec (.droopDetect q k) s = nextOf s (fun w =>
        raise 0x020 q (x.stretched + k) (quadAdd q 0x9B 1 (droop w))))) ∧
    ((quadRun (start s) q).droop = true →
      exec (.droopClear q) s = nextOf s (modQuad q (fun x => { x with droop := false, cleared := s.blk.time.ns })))

/-! ## Instructions of the engines -/

/-- The control instructions that hand no work to a unit (04 R82 to R86, R95 to R97). The issue charges one cycle and moves the
program counter on, and a NOP does nothing more. SETDP writes DP, MARK the engine's tag, which is traced; FENCE and END make the
slot wait, LOOP opens its loop, WAIT joins the waiters of its semaphore and SIGNAL adds to it; BARRIER arrives at its object; BRS
branches where its condition holds of the status of the slot's last pass. -/
def Obligations.ControlInstructions : Prop :=
  ∀ (s : State) (e k i : Nat), Issues s e k i →
    let sl := slotOf (engineOf (start s) e) k
    let b := (issued e k (workOf s)).toBlk
    (iOp i = 0 → exec (.nop e) s = nextOf s (issued e k)) ∧
    (iOp i = 2 → exec (.setdp e) s = nextOf s (fun w => modSlot e k (fun x => { x with dp := iAddr i }) (issued e k w))) ∧
    (iOp i = 0xD → exec (.mark e) s = nextOf s (fun w =>
      send (.trace e (iTag i)) (modEngine e (fun g => { g with tag := iTag i }) (issued e k w)))) ∧
    (iOp i = 0xB → exec (.fence e) s = nextOf s (fun w =>
      modSlot e k (fun x => { x with wait := .fence (iMask i) }) (issued e k w))) ∧
    (iOp i = 1 → (match sl.last with | some l => !l.drains | none => false) = false →
      exec (.endOp e) s = nextOf s (fun w => modSlot e k (fun x => { x with wait := .ending }) (issued e k w))) ∧
    (iOp i = 7 → nth none sl.loops (iLc i) = none → insideLoops sl (sl.pc + iBody i) = true → fetchOk b e (sl.pc + iBody i) = true →
      exec (.loop e) s = nextOf s (fun w =>
        let l : LoopCtr := { left := iCount i - 1, first := sl.pc + 1, last := sl.pc + iBody i }
        modSlot e k (fun x => { x with loops := setNth x.loops (iLc i) (some l) }) (issued e k w))) ∧
    (iOp i = 8 → syncIssueOk b sl.ctx (iSync i) .semaphore = true →
      exec (.wait e) s = nextOf s (fun w =>
        modSlot e k (fun x => { x with wait := .sem (iSync i) (iAmount i), charge := x.charge + syncCycles e i })
          (addWaiter (iSync i) { engine := e, ctx := sl.ctx, amount := iAmount i } (issued e k w)))) ∧
    (iOp i = 9 → syncIssueOk b sl.ctx (iSync i) .semaphore = true →
      exec (.signal e) s = nextOf s (fun w => signalSync e (iSync i) (iAmount i) (issued e k w))) ∧
    (iOp i = 0xA → syncIssueOk b sl.ctx (iSync i) .barrier = true →
      exec (.barrier e) s = nextOf s (fun w =>
        modSlot e k (fun x => { x with wait := .barrier (iSync i), charge := x.charge + syncCycles e i })
          (let w := issued e k w
           { w with syncs := tabMod none w.syncs (iSync i) (fun o =>
               o.map (fun o => o.arrive { engine := e, ctx := sl.ctx, amount := 0 })) }))) ∧
    (∀ (l : LastPass) (st : Nat), iOp i = 0xC → sl.last = some l → l.drains = true → l.status = some st →
      insideLoops sl (sl.pc + iOffset i + 1) = true → fetchOk b e (sl.pc + iOffset i + 1) = true →
      exec (.brs e) s = nextOf s (fun w => doIf (brsHolds (iCond i) st)
        (modSlot e k (fun x => { x with pc := sl.pc + iOffset i + 1 })) (issued e k w)))
/-- An opcode of 0x0E to 0x3F is refused before any effect (04 R82, R106): code 0x02 for the slot's context. -/
def Obligations.ReservedOpcodesRefused : Prop :=
  ∀ (s : State) (e k i : Nat), e < 256 → e < engineCount s.blk.fuses → pickSlot (workOf s) e = some k →
    fetchWord (workOf s) e (slotOf (engineOf (start s) e) k).pc = i →
    fetchOk (start s) e (slotOf (engineOf (start s) e) k).pc = true → 0x0E ≤ iOp i →
    iCheck i = some 0x02 ∧
    exec (.reservedOpcode e) s = nextOf s (refuseProgram e (slotOf (engineOf (start s) e) k).ctx 0x02)
/-- The instructions that hand work to a unit (04 R82, R92, R98, R101, 06 R138): with a descriptor that passes its checks, a
PASS stands as the next pass of the half it is placed on and as the slot's last, a PASSQ joins the quad's tile queue, a VCHAIN
the chains issued, and a DMA the transfers, with its rows written up to the first that must wait. Each takes its place in the order of
issue, and DP moves on where a descriptor is named by it. -/
def Obligations.WorkInstructions : Prop :=
  ∀ (s : State) (e k i : Nat), Issues s e k i →
    let sl := slotOf (engineOf (start s) e) k
    let v := issued e k (workOf s)
    let n := sl.ctx
    let d := descAt v e sl i
    let f := rdNat v (spmKey e (32 * iAddr i)) 32
    let place := activePlace v.toBlk n
    (∀ h : Bool, iOp i = 3 → spmRangeOk v.toBlk n e (descAddr sl i) 32 = true → passCheck v.toBlk n place e d false false = none →
      chainRule sl d = true → (pStart d = true ∨ (chainHalf (engineOf v.toBlk e) n).isSome = true) →
      halfFor v.toBlk (engineOf v.toBlk e) n d = some h →
      let issue := nextOf s (fun w =>
        let r : PassReq := { owner := e, ctx := n, desc := d, queued := false, mark := 0, cur := none, charged := false,
                             ord := sl.charge, stamp := s.blk.issues }
        let l : LastPass := { drains := pDrainKind d != 0, lsb := pAccLsb d, bf := pBf d, split := pSplit d, status := none,
                              ord := sl.charge }
        useDp e k i (modSlot e k (fun x => { x with last := some l }) (placeNext e h r (issueStamp (issued e k w)))))
      (passSel e 0 (workOf s) sl i = true → exec (.passPlain e) s = issue) ∧
      (passSel e 1 (workOf s) sl i = true → exec (.passDiagonal e) s = issue) ∧
      (passSel e 2 (workOf s) sl i = true → exec (.passTransposed e) s = issue) ∧
      (passSel e 3 (workOf s) sl i = true → exec (.passAveragePool e) s = issue) ∧
      (passSel e 4 (workOf s) sl i = true → exec (.passMaxPool e) s = issue)) ∧
    (iOp i = 4 → spmRangeOk v.toBlk n e (descAddr sl i) 32 = true → passCheck v.toBlk n place e d true false = none →
      (match sl.last with | some l => !l.drains | none => false) = false →
      exec (.passq e) s = nextOf s (fun w =>
        let w := issued e k w
        let r : PassReq := { owner := e, ctx := n, desc := d, queued := true, mark := effectiveMark w.toBlk n i d,
                             cur := none, charged := false, ord := sl.charge, stamp := w.issues }
        let l := tabGet [] w.tileq (quadOf e) ++ [r]
        let w := { issueStamp w with tileq := tabSet [] w.tileq (quadOf e) l }
        useDp e k i (quadPut (quadOf e) 0x30 (max (quadGet w.toBlk (quadOf e) 0x30) l.length) w))) ∧
    (iOp i = 5 → spmRangeOk v.toBlk n e (descAddr sl i) 32 = true → chainCheck v n place e d false = none →
      exec (.vchain e) s = nextOf s (fun w =>
        useDp e k i (modEngine e (fun g => { g with vec.issued := g.vec.issued ++ [{ ctx := n, desc := d, stamp := s.blk.issues }] })
          (issueStamp (issued e k w))))) ∧
    (spmRangeOk v.toBlk n e (32 * iAddr i) 32 = true → dmaCheck v.toBlk n place e f false = none →
      let move := fun w =>
        let w := issued e k w
        let targets := dmaTargets w.toBlk n place f
        let job : DmaJob := { ctx := n, desc := f, stamp := w.issues, next := 0, targets, held := [] }
        let w := doIf (dDst f == 3) (modSlice n (fun x => { x with outs := Nat.lor x.outs (2 ^ outBit e (dDstAddr f)) })) w
        let r := dmaRows e (dRows f) job (issueStamp (countDma e n f targets w))
        modEngine e (fun g => { g with dma := g.dma ++ [r.1] }) r.2
      (dmaSel e 0 (workOf s) sl i = true → exec (.dmaCopy e none []) s = nextOf s move) ∧
      (dmaSel e 1 (workOf s) sl i = true → exec (.dmaBroadcast e none []) s = nextOf s move) ∧
      (dmaSel e 2 (workOf s) sl i = true → exec (.dmaFill e) s = nextOf s move))
/-- A slot goes on (04 R82, R96, R97): the WAIT at the head of a semaphore whose count suffices takes its amount and the slot
is ready; the engines that a complete barrier has let go are released, each once; a FENCE returns when the selected work is
done; a slice whose END has issued and whose work is done frees its slot, and is done where that was its last engine. -/
def Obligations.SlotReturns : Prop :=
  ∀ (s : State) (e n k o : Nat) (x : SyncObj), e < 256 → n < 1024 → e < engineCount s.blk.fuses → ctxExists s.blk.fuses n = true →
    (∀ (a : Nat) (h : Waiter) (rest : List Waiter), slotIx (start s) e n = some k → (slotOf (engineOf (start s) e) k).wait = .sem o a →
      syncOf (start s) o = some x → x.waiters = h :: rest → h.engine = e → h.ctx = n → a ≤ x.count →
      exec (.waitReturn e n) s = nextOf s (fun w =>
        modSlot e k (fun y => { y with wait := .ready })
          { w with syncs := tabSet none w.syncs o (some { x with count := x.count - a, waiters := rest }) })) ∧
    (o < 8192 → o / 4096 < dies s.blk.fuses → syncOf (start s) o = some x → x.kind = .barrier → x.freed ≠ [] →
      exec (.barrierRelease o) s = nextOf s (fun w =>
        forAll x.freed wakeWaiter { w with syncs := tabSet none w.syncs o (some { x with freed := [] }) })) ∧
    (∀ m : Nat, slotIx (start s) e n = some k → (slotOf (engineOf (start s) e) k).wait = .fence m →
      (bit m 0 = true → passesOut (start s) e n = false) → (bit m 1 = true → chainsOut (start s) e n = false) →
      (bit m 2 = true → dmaOut (start s) e n = false) →
      exec (.fenceReturn e n) s = nextOf s (modSlot e k (fun y => { y with wait := .ready }))) ∧
    (slotIx (start s) e n = some k → (slotOf (engineOf (start s) e) k).wait = .ending → passesOut (start s) e n = false →
      chainsOut (start s) e n = false → dmaOut (start s) e n = false → entriesOf (start s) e n = [] →
      exec (.sliceEnd e n) s = nextOf s (fun w =>
        let w := modSlot e k (fun _ => { Slot.idle with ctx := n }) (freeEntries e n w)
        let w := modSlice n (fun y => { y with open_ := y.open_.filter (· != e) }) w
        if (sliceOf w.toBlk n).open_.isEmpty then sliceDone n w else w))
/-- The array (03 R77, R79, 04 R92, R102). A next pass that may start, whose checks hold and whose charge its budget covers,
begins: it is charged, a pass that drains to the finished-tile queue takes its entry there, a window's cursor moves on, and it runs as far as its
operands let it. A pass that keeps its accumulators completes into the half's chain; one that drains delivers its tile with its
status, which the slot learns, and signals. An abandoned chain is rerun from its first pass, once, unless a pass of a higher
context waits. An engine with no pass to issue takes the entry served first of the tile queues open to it. -/
def Obligations.ArrayCommands : Prop :=
  ∀ (s : State) (e q : Nat) (h : Bool) (r : PassReq) (rest : List PassReq) (run : PassRun) (acc : Accs),
    e < 256 → e < engineCount s.blk.fuses →
    let g := engineOf (start s) e
    let x := halfOf g h
    let place := activePlace (start s) r.ctx
    let held := entriesOf (start s) r.owner r.ctx
    (engineRuns (start s) e = true → x.second = false → x.next.isSome = true → nextFor (start s) g h = some r →
      (pStart r.desc = true ∨ holdsChain x r.ctx = true) → mayStart (start s) g h r = true →
      lengthCheck (start s) r.ctx place (pPreempt r.desc) (x.chain.foldl (fun a y => a + pLength y.desc) (pLength r.desc)) = none →
      (pASrc r.desc = 1 → windowCheck (workOf s) e r.desc = none) →
      (pDrainKind r.desc = 2 → held.any (fun y => y.tile == pTile r.desc) = false ∧ held.length < quotaOf (start s) r.owner r.ctx) →
      chargeOf (start s) r.owner r.ctx + passCharge r.desc ≤ ctxGet (start s) r.ctx (0x11 + 16 * place) →
      exec (.passStart e h none []) s = nextOf s (fun w =>
        let d := r.desc
        let o := r.owner
        let hdr := if pASrc d = 1 then ringHeader w e (pAAddr d) else []
        let c := hCursor hdr
        let r' := { r with cur := if pASrc d = 1 then some c else none, charged := true }
        let y : QEntry := { ctx := r.ctx, tile := pTile d, m := pM d, n := pN d, fmt := pFmtOut d, status := none, vals := [] }
        let w := doIf (pDrainKind d == 2) (modEngine o (fun g => { g with vec.queue := g.vec.queue ++ [y] }))
          (Sys2Proof.Machine.charge o r.ctx (passCharge d) w)
        let w := doIf (pDrainKind d == 2) (fun w => quadPut (quadOf o) 0x53
          (max (quadGet w.toBlk (quadOf o) 0x53) (engineOf w.toBlk o).vec.queue.length) w) w
        let w := doIf (quadOf o != quadOf e) (fun w => quadAdd (quadOf o) 0x32 1 (quadAdd (quadOf e) 0x31 1 w)) w
        let w := doIf (pASrc d == 1) (storeCursor e (pAAddr d) (advanceCursor d hdr c)) (takeNext e h r w)
        retireUpdate e d (runPass e h r' none w))) ∧
    (x.run = some run → run.acc = some acc → pDrainKind run.req.desc = 0 → run.dead = false →
      exec (.passComplete e h .clean) s = nextOf s (fun w =>
        retireUpdate e run.req.desc (tellSlot run.req 0
          (modHalf e h (fun y => { y with run := none, kept := some run, chain := y.chain ++ [run.req] }) w)))) ∧
    (x.run = some run → run.acc = some acc → pDrainKind run.req.desc ≠ 0 →
      (hasSums run.req.desc = true → stAccSat (drainTile run.req.desc h acc).2 = false → stSpecial (drainTile run.req.desc h acc).2 = 0 →
        sumsMismatch run.req.desc acc = false) →
      exec (.passComplete e h .clean) s = nextOf s (fun w =>
        let r := run.req
        let d := r.desc
        let t := drainTile d h acc
        let w := doIf (hasSums d && (stAccSat t.2 || stSpecial t.2 != 0)) (quadAdd (quadOf e) 0xA6 1) w
        let w := modHalf e h (fun y => { y with run := none, kept := none, chain := [], second := false }) w
        let w := modEngine e (fun g => { g with status := t.2 }) w
        let w := tellSlot r t.2 (countDrain (quadOf e) t.2 (pSplit d) (deliverTile r t.1 t.2 w))
        retireUpdate e d (doIf (pSemEn d) (signalSync r.owner (pSem d) 1) w))) ∧
    (engineRuns (start s) e = true → nextRerun (start s) x = some (r :: rest) → x.second = false → x.kept = none →
      halfFree g h r.desc = true → (waitingNext g).any (fun p => above (start s) p.ctx r.ctx) = false →
      exec (.passRerun e h none []) s = nextOf s (fun w =>
        let w := doIf (pDup r.desc) (quadAdd (quadOf (partnerOf e)) 0x25 1) (quadAdd (quadOf e) 0x25 1 w)
        retireUpdate e r.desc (runPass e h r none (modHalf e h (fun y =>
          { y with waiting := y.waiting.erase (r :: rest), rerun := rest, second := true, chain := [], loaded := [] }) w)))) ∧
    (q < 64 → q < quadCount s.blk.fuses → engineRuns (start s) e = true → noPassToIssue (workOf s) e = true →
      firstServed (start s) ((s.blk.tileq.flatMap (·.2)).filter (mayTake (start s) e)) = some r → quadOf r.owner = q →
      halfFor (start s) g r.ctx r.desc = some h →
      exec (.tileTake e q) s = nextOf s (fun w =>
        placeNext e h r { w with tileq := tabMod [] w.tileq q (fun l => l.erase r) }))
/-- The vector engine and the transfers (04 R99, 05 R110, 06 R149, R150, R152). A chain that is ready, of which no higher slice holds
the engine, starts within its budget and reads its fill. A chain whose fill has been read and whose operands no pass holds back
completes: its rows are evaluated in order, its entries consumed, its status kept and stored, and its semaphore signalled; where it
meets an uncorrectable word it is reported and abandoned. A transfer of which every row can be written completes and signals; held
writes go on behind the hub's writer (07 R158). -/
def Obligations.VectorAndTransferCommands : Prop :=
  ∀ (s : State) (e j a len : Nat) (c : ChainReq) (run : ChainRun) (fill : List (Nat × List Byte)) (job : DmaJob),
    e < 256 → e < engineCount s.blk.fuses →
    (engineRuns (start s) e = true → (engineOf (start s) e).vec.running = none →
      (firstChains (engineOf (start s) e).vec.issued).filter (fun y => chainReady (start s) e y && noHigher (start s) e y.ctx) = [c] →
      entriesOk c.desc (chainEntries (start s) e c) = true → len = chainLength c.desc (stagesOf (workOf s) e c.desc) →
      chargeOf (start s) e c.ctx + len ≤ ctxGet (start s) c.ctx (0x11 + 16 * activePlace (start s) c.ctx) →
      exec (.chainStart e) s = nextOf s (fun w =>
        fillChain e (modSlice c.ctx (fun y => { y with quads := Nat.lor y.quads (2 ^ quadOf e) })
          (modEngine e (fun g => { g with vec.issued := g.vec.issued.erase c, vec.running := some { req := c, len, fill := none } })
            (charge e c.ctx len w))))) ∧
    ((engineOf (start s) e).vec.running = some run → run.fill = some fill →
      heldBack (start s) e run.req.stamp (tileReads run.req.desc (fill.map (·.1))) = false →
      exec (.chainComplete e none []) s = nextOf s (fun w =>
        let c := run.req
        let d := c.desc
        let f : ChainFix := { e, d, a := allotOf w.toBlk e c.ctx, qs := chainEntries w.toBlk e c }
        let v := (engineOf w.toBlk e).vec
        let z : ChainEval := { x := [], int := cInt d, tiles := v.tiles, rows := v.rows,
                               flags := chainFolds w f (fill.map (·.1)), w := w, before := w }
        let r := (List.range (cRows d)).foldl (chainRow f fill) z
        let done := fun (g : Engine) =>
          let left := g.vec.queue.filter (fun x => !consume c.ctx d x)
          { g with vec.tiles := r.tiles, vec.rows := r.rows, vec.status := chainStatus r.flags, vec.running := none, vec.queue := left }
        let w := modEngine e done r.w
        let w := doIf (cStatusEn d) (put (spmKey e (64 * cStatusAddr d)) (leBytes 8 (chainStatus r.flags))) w
        let w := doIf r.flags.outSat (quadAdd (quadOf e) 0x51 1) (quadAdd (quadOf e) 0x50 1 w)
        doIf (cSemEn d) (signalSync e (cSem d) 1) (progress e c.ctx w)) ∧
      exec (.chainComplete e (some a) []) s = nextOf s (fun w =>
        abandonChain e (raiseBy e 1 0x030 e (a / 8 * 8) (quadAdd (quadOf e) 0x64 1 w)))) ∧
    ((engineOf (start s) e).dma[j]? = some job → job.held = [] →
      (dmaRows e (dRows job.desc) job (workOf s)).1.held = [] →
      dRows (dmaRows e (dRows job.desc) job (workOf s)).1.desc ≤ (dmaRows e (dRows job.desc) job (workOf s)).1.next →
      exec (.dmaComplete e j) s = nextOf s (fun w =>
        let r := dmaRows e (dRows job.desc) job w
        doIf (dSemEn r.1.desc) (signalSync e (dSem r.1.desc) 1)
          (progress e r.1.ctx (modEngine e (fun g => { g with dma := g.dma.eraseIdx j })
            (modEngine e (fun g => { g with dma := setNth g.dma j r.1 }) r.2))))) ∧
    exec (.lbHeldWriteResume e j) s = nextOf s (fun w => dmaResume e j (writersResume w))

/-! ## Loads, main memory and the channels -/

/-- Messages that the crypto unit and the loader take, once their last frame has come (12 R318, 13 R330, R343 to R345): a firmware
image whose header is right waits for its verification; a program image and weights that pass their checks are loaded, take a
handle and are answered with it; an attestation request waits for the crypto unit. A report that is sent leaves its queue and is counted;
one without model entries is the signed body of R344. -/
def Obligations.LoadCommands : Prop :=
  ∀ (s : State) (hd : Hdr) (p m : List Byte), p.length ≤ 2 ^ 31 →
    (FrameServed hd 0x20 p m s → 16 ≤ m.length →
      ((s.blk.dev.state = .boot ∨ s.blk.dev.state = .config ∨ activeState (start s) = true) → leAt m 1 1 = 1 →
        leAt m 0 1 = 1 → leAt m 2 6 = 0 → leAt m 8 8 = 0 →
        exec (.loadFirmware hd p) s = nextOf s (fun w =>
          let w := served hd 0x20 w
          { w with cores.crypto := s.blk.cores.crypto ++ [.verify hd.link hd.tag m] })) ∧
      (leAt m 1 1 = 2 → loadHeader (served hd 0x20 (workOf s)).toBlk 2 m = (0, 0) → s.blk.res.nextProg ≤ 65535 →
        (loadImage (leAt m 2 2) (leAt m 4 1) s.blk.res.nextProg (m.drop 16) (served hd 0x20 (workOf s))).1 = 0 →
        exec (.loadProgramImage hd p) s = nextOf s (fun w =>
          let r := loadImage (leAt m 2 2) (leAt m 4 1) s.blk.res.nextProg (m.drop 16) (served hd 0x20 w)
          let h := takeHandle 1 (leNat (sha3 m)) r.2
          loadResult hd.link hd.tag 2 0 0 h.1 m h.2)) ∧
      (leAt m 1 1 = 3 → loadHeader (served hd 0x20 (workOf s)).toBlk 3 m = (0, 0) → s.blk.res.nextWeight ≤ 65535 →
        m.length = 16 + 16 * leAt m 8 4 + (weightSegs m).foldl (fun a x => a + x.2.2.1) 0 →
        (List.range (weightSegs m).length).any (fun i => leAt m (18 + 16 * i) 2 != 0) = false →
        (weightSegs m).all (weightSegOk (served hd 0x20 (workOf s)).toBlk (leAt m 2 2) (leAt m 4 1)) = true →
        exec (.loadWeights hd p) s = nextOf s (fun w =>
          let h := takeHandle 2 (leNat (sha3 m)) (storeSegs m (served hd 0x20 w))
          loadResult hd.link hd.tag 3 0 0 h.1 m
            { h.2 with res.weights := tabSet 0 h.2.res.weights (leAt m 2 2) h.1 }))) ∧
    (FrameServed hd 0x70 p m s → m.length = 36 → leAt m 0 1 = 1 → leAt m 1 1 < 2 → leAt m 2 2 = 0 →
      (s.blk.dev.state = .config ∨ activeState (start s) = true) →
      exec (.attestRequest hd p) s = nextOf s (fun w =>
        let w := served hd 0x70 w
        { w with cores.crypto := s.blk.cores.crypto ++ [.attest hd.link hd.tag (leAt m 1 1) (m.drop 4)] })) ∧
    (∀ (link tag flags : Nat) (nonce : List Byte) (rest : List CryptoOp), s.blk.cores.crypto = .attest link tag flags nonce :: rest →
      Completes .attestReportSend s (fun t => t.blk.cores.crypto = rest ∧ t.mem = s.mem ∧ t.blk.time = s.blk.time ∧
        odGet t.blk 0x2530 6 = satAdd (8 * odBytes 0x2530 6) (odGet (start s) 0x2530 6) 1) ∧
      (flags.testBit 0 = false → exec .attestReportSend s = nextOf s (fun w =>
        let b := start s
        let fl := b2n b.fuses.debugLock + 2 * odGet b 0x2530 4 + 4 * b2n b.cores.pending.isSome +
          8 * b2n ((List.range 6).any (fun k => pairState b k == 2))
        let body := leBytes 1 1 ++ leBytes 1 (stateCode b.dev.state) ++ leBytes 1 fl ++ leBytes 1 (odGet b 0x2500 4) ++
          leBytes 4 (odGet b 0x1018 2) ++ leBytes 4 (odGet b 0x1018 3) ++ leBytes 4 (odGet b 0x1018 4) ++ leBytes 8 b.time.beat ++
          nonce ++ leBytes 64 (odGet b 0x2500 2) ++ leBytes 16 (odGet b 0x2500 3) ++ leBytes 4 (odGet b 0x2002 1) ++
          leBytes 4 (odGet b 0x2010 1) ++ leBytes 16 (configDigest b) ++ leBytes 2 0 ++ leBytes 94 0
        answer link tag 0x71 0 (body ++ Config.attestSign (sha3 body)) (odAdd 0x2530 6 1 { w with cores.crypto := rest }))))
/-- A channel in the direct service of 07 R166. A run that the bus takes and the throttle lets go (14 R363) returns its bursts, each word as the code delivers it
and reports it, or stores its data, and keeps the protocol of R168; a die that stays silent is reported and gives or takes
no data. The training pattern, the refresh rate with the beat's phase, and the status, whose byte 0 is the count of refresh operations; a die
that answers neither of its reads is reported, too, at a burst address that the spec does not give (a free value, log 137). -/
def Obligations.ChannelCommands : Prop :=
  ∀ (s : State) (c a n st held k hit : Nat) (x : Chan) (met : RunMet) (errs : List (Nat × Nat × Nat)) (data : List Byte)
    (r : RefreshSet), c < 192 → chanThere s c = true →
    (Instr.wf (.readRun c a n st held met errs) = true → planRun (start s) c a n st held met.low = some (k, hit, x) →
      exec (.readRun c a n st held met errs) s = nextOf s (fun w =>
        let w := protocol c a (held % 2 ^ k) hit met.silent (setChan c x w)
        if met.silent then w
        else forAll (List.range k) (fun i w =>
          let ws := burstWords w (burstKey c (a + i)) ((errs.filter (fun p => p.1 == i)).map (·.2))
          reportBurst none16 c (a + i) false ws (send (.channel c (ws.flatMap (fun y => leBytes 8 y.1))) w)) w)) ∧
    (Instr.wf (.writeRun c a st held met data) = true → planRun (start s) c a (data.length / 64) st held met.low = some (k, hit, x) →
      exec (.writeRun c a st held met data) s = nextOf s (fun w =>
        let w := protocol c a (held % 2 ^ k) hit met.silent (setChan c x w)
        if met.silent then w else memStore (burstKey c a) (data.take (64 * k)) w)) ∧
    (chanWorks (start s) c = true →
      exec (.readTraining { chan := c, silent := false }) s = nextOf s (send (.channel c trainingBytes)) ∧
      exec (.readTraining { chan := c, silent := true }) s = nextOf s (fun w =>
        raise 0x042 c (Config.freeValue s.blk.free % 2 ^ 21) { w with free := w.free + 1 }) ∧
      (Instr.wf (.setRefresh c r) = true → exec (.setRefresh c r) s = nextOf s (fun w =>
        let phase := (1728 + 1800 - r.clock) % 1800
        let past := ((tickClocks phase (r.rate == 2)).filter (fun t => decide (t ≤ r.clock))).length
        quadPut (chanQuad c) (0x84 + c % 3) (r.rate - 1) (setChan c { chanNow w.toBlk c with phase := phase, ticks := past } w))) ∧
      exec (.readStatus { chan := c, silent := false }) s = nextOf s (fun w =>
        send (.channel c (leBytes 1 (chanOf w.toBlk c).ops ++ leBytes 7 (Config.freeValue s.blk.free))) { w with free := w.free + 1 }) ∧
      exec (.readStatus { chan := c, silent := true }) s = nextOf s (fun w =>
        raise 0x042 c (Config.freeValue s.blk.free % 2 ^ 21) { w with free := w.free + 1 }))
/-- What a channel does by itself (07 R167, R181 to R183). A tick of the beat that is still to come starts the next refresh
operation, on bank k mod 16; a quad at 80 degrees or above doubles the rate, and one that has stayed below 70 for 4,096 beats ends it. A slot
that has not been used calibrates in one beat of 64, and otherwise writes back the oldest corrected burst, or scrubs the next one. A scrub
pass that takes too long is reported once. -/
def Obligations.ChannelBackground : Prop :=
  ∀ (s : State) (c f t : Nat) (r : SlotReport) (step : Int) (errs : List (Nat × Nat)), c < 192 → chanThere s c = true →
    chanWorks (start s) c = true →
    ((tickClocks (chanNow (start s) c).phase (isHot (start s) c))[(chanNow (start s) c).ticks]? = some t →
      exec (.refreshTick c) s = nextOf s (fun w =>
        let x := chanNow (start s) c
        setChan c { x with ops := x.ops + 1, ticks := x.ticks + 1, refresh := some (x.ops % 16, t) } w)) ∧
    (fLt (quadGet (start s) (chanQuad c) 0x90) 0x42A00000 = false →
      exec (.refreshRateSwitch c) s = nextOf s (fun w =>
        quadPut (chanQuad c) (0x84 + c % 3) 1 (modChan c (fun x => { x with cool := none }) w))) ∧
    (fLt (quadGet (start s) (chanQuad c) 0x90) 0x42A00000 = true → fLt (quadGet (start s) (chanQuad c) 0x90) 0x428C0000 = true →
      (chanOf (start s) c).cool = some f → f + 4096 ≤ s.blk.time.beat →
      exec (.refreshRateSwitch c) s = nextOf s (fun w =>
        quadPut (chanQuad c) (0x84 + c % 3) 0 (modChan c (fun x => { x with cool := some f }) w))) ∧
    ((chanNow (start s) c).slot = false →
      let x := chanNow (start s) c
      let x := { x with slot := true, scrubFrom := some (x.scrubFrom.getD s.blk.time.beat) }
      ((s.blk.time.beat + c) % 64 = 0 → exec (.backgroundSlot c r step errs) s = nextOf s (fun w =>
        if r.silent then dieSilent c (setChan c x w) else calibrate c r.agrees step (setChan c x w))) ∧
      ((s.blk.time.beat + c) % 64 ≠ 0 → x.queue ≠ [] → exec (.backgroundSlot c r step errs) s = nextOf s (fun w =>
        modChan c (fun y => { y with queue := x.queue.tail }) (setChan c x w))) ∧
      ((s.blk.time.beat + c) % 64 ≠ 0 → x.queue = [] → exec (.backgroundSlot c r step errs) s = nextOf s (fun w =>
        if r.silent then raise 0x042 c x.scrub (setChan c x w) else scrubRead c r.queued errs (setChan c x w)))) ∧
    ((chanOf (start s) c).scrubFrom = some f → f + 4260882 ≤ s.blk.time.beat → (chanOf (start s) c).starved = false →
      exec (.scrubStarved c) s = nextOf s (fun w =>
        raise 0x044 c (chanOf (start s) c).scrub (modChan c (fun x => { x with starved := true }) w)))
/-- The host's memory access (07 R175): a MEM_READ that is allowed answers the bytes, or status 6 with "uncorrectable word"
where it meets one; a MEM_WRITE that is allowed stores its bytes and answers 0. -/
def Obligations.HostMemoryCommands : Prop :=
  ∀ (s : State) (hd : Hdr) (p m : List Byte) (x : Nat),
    (FrameServed hd 0x30 p m s → m.length = 12 →
      memStatus (served hd 0x30 (workOf s)).toBlk (leAt m 0 8) (leAt m 8 4) hostReadOk = 0 →
      exec (.memRead hd p none) s = nextOf s (fun w =>
        let w := served hd 0x30 w
        answer hd.link hd.tag 0x31 0 (rd w (leAt m 0 8) (leAt m 8 4)) w) ∧
      exec (.memRead hd p (some x)) s = nextOf s (fun w =>
        let ch := memChannel x
        answer hd.link hd.tag 0x31 6 []
          (quadAdd (chanQuad ch) (0x74 + ch % 3) 1 (raiseBy (hostMaster hd.link) 0 0x041 ch (memOffset x) (served hd 0x30 w))))) ∧
    (FrameServed hd 0x32 p m s → 8 ≤ m.length →
      memStatus (served hd 0x32 (workOf s)).toBlk (leAt m 0 8) (m.length - 8) hostWriteOk = 0 →
      exec (.memWrite hd p) s = nextOf s (fun w =>
        answer hd.link hd.tag 0x33 0 [] (hostStore (leAt m 0 8) (m.drop 8) (served hd 0x32 w))))

/-! ## Temporal memory -/

/-- The committed effects on a temporal slot (08 R193, R209): a resident page is pinned where the limits allow it, and stays as
it was where they do not; a page is unpinned; the slot's pins are counted again. A reset frees the slot's pages, forgets its scores and
lists and the look-aside entries of the slot, and puts 0 into POSITION and the pin counts. -/
def Obligations.TemporalCommits : Prop :=
  ∀ (s : State) (t lp f : Nat) (glob : Bool) (p : Page), t < 32 →
    (residentOf (start s) t lp = some (f, p) → s.blk.links.effects.find? isPin = some (.pin t lp glob) →
      (pinOk (start s) t lp glob = true →
        exec .pinPage s = nextOf s (fun w =>
          countPins t (setPage t f (some { p with pinned := true, glob := p.glob || glob })
            { w with links.effects := w.links.effects.erase (.pin t lp glob) }))) ∧
      (pinOk (start s) t lp glob = false →
        exec .pinPage s = nextOf s (fun w => { w with links.effects := w.links.effects.erase (.pin t lp glob) }))) ∧
    (residentOf (start s) t lp = some (f, p) → s.blk.links.effects.find? isUnpin = some (.unpin t lp) →
      exec .unpinPage s = nextOf s (fun w =>
        countPins t (setPage t f (some { p with pinned := false, glob := false })
          { w with links.effects := w.links.effects.erase (.unpin t lp) }))) ∧
    (s.blk.links.effects.find? isTmReset = some (.tmReset t) →
      exec .tmReset s = nextOf s (fun w =>
        let w := { w with links.effects := w.links.effects.erase (.tmReset t) }
        let w := { w with tm := { w.tm with pages := w.tm.pages.filter (fun q => q.1 / 32768 != t),
                                            lab := w.tm.lab.map (fun l => l.filter (fun k => k.1 != t)) } }
        let w := modTm t (fun x => { x with scores := none, staged := none, list := [], phase := 0, back := 0, fwdOk := false }) w
        tmPut t 0x13 1 (tmPut t 0x15 0 (tmPut t 0x18 0 w))) ∧
      Completes .tmReset s (fun u => u.blk.tm.pages = s.blk.tm.pages.filter (fun q => q.1 / 32768 != t) ∧
        tmGet u.blk t 0x13 = 1 ∧ u.mem = s.mem ∧ u.blk.engines = s.blk.engines))
/-- The walk of a temporal slot (08 R198, R201, R205, R207). Phase 1 of its forward or backward slice writes the header and the fixed
descriptors on the slot's engine and signals; phase 2 writes entries, page descriptors and masks, of the forward slice at the
first trigger, and signals; the masses are read at the second. A page-map entry found uncorrectable ends the walk instead as R207
has it. Pair 4 stages the list for the next release with that release's allocation applied, and stages none where an entry is found
uncorrectable (the model's reading, log 142). -/
def Obligations.TemporalWalk : Prop :=
  ∀ (s : State) (t e : Nat) (ue : Option Nat), t < 32 →
    (tmEngine (start s) t = some e →
      let fwd := (tmSlot (start s) t).phase = 1 ∧ sliceRuns (start s) (tmFwd (start s) t) = true
      let back := (tmSlot (start s) t).back = 1 ∧ sliceRuns (start s) (tmBack (start s) t) = true
      let fwd2 := (tmSlot (start s) t).phase = 2 ∧ sliceRuns (start s) (tmFwd (start s) t) = true ∧ triggerOf (start s) t ≠ 0
      let back2 := (tmSlot (start s) t).back = 2 ∧ sliceRuns (start s) (tmBack (start s) t) = true
      (ue.bind (residentOf (start s) t) = none →
        (fwd → exec (.walkPhase1 t false ue) s = nextOf s (fun w =>
          modTm t (fun x => { x with phase := 2 })
            (signalDone t e (tmPhase1 t e false (labLooks (e / 128) t (tmList w.toBlk t (tmSlot w.toBlk t).pos none) w))))) ∧
        (back → exec (.walkPhase1 t true ue) s = nextOf s (fun w =>
          modTm t (fun x => { x with back := 2 })
            (signalDone t e (tmPhase1 t e true (labLooks (e / 128) t (tmSlot w.toBlk t).list w))))) ∧
        (back2 → exec (.walkPhase2 t true ue) s = nextOf s (fun w =>
          signalDone t e (modTm t (fun x => { x with back := 3 }) (tmPhase2 t e (tmSlot (start s) t).list w)))) ∧
        (fwd2 → exec (.walkPhase2 t false ue) s = nextOf s (fun w =>
          let w := takeTrigger t w
          let b := start s
          let l := if pair4Mode b t then (tmSlot b t).list else tmList b t (tmSlot b t).pos (some (tmScoresAt w t e))
          let w := labLooks (e / 128) t (l.filter (fun x => x.source == 1)) w
          let keep := if pair4Mode b t then some (tmScoresAt w t e) else none
          signalDone t e (modTm t (fun x => { x with phase := 3, list := l, scores := keep }) (tmPhase2 t e l w))))) ∧
      (∀ (f : Nat) (p : Page), ue.bind (residentOf (start s) t) = some (f, p) →
        (fwd → exec (.walkPhase1 t false ue) s = nextOf s (mapUncorrectable t (tmFwd (start s) t) p.logical)) ∧
        (back → exec (.walkPhase1 t true ue) s = nextOf s (mapUncorrectable t (tmBack (start s) t) p.logical)) ∧
        (fwd2 → exec (.walkPhase2 t false ue) s = nextOf s (mapUncorrectable t (tmFwd (start s) t) p.logical)) ∧
        (back2 → exec (.walkPhase2 t true ue) s = nextOf s (mapUncorrectable t (tmBack (start s) t) p.logical))) ∧
      ((tmSlot (start s) t).phase = 3 → (sliceOf (start s) (tmFwd (start s) t)).live = true → triggerOf (start s) t ≠ 0 →
        exec (.massRead t) s = nextOf s (fun w =>
          let ms := (List.range (tmA (start s) t)).map (fun i => rdNat w (spmKey e (tmPart (start s) t 5 + 4 * i)) 4)
          modTm t (fun x => { x with phase := 4, masses := ms }) (takeTrigger t w)))) ∧
    (pair4Mode (start s) t = true → tmGet (start s) t 0x13 = 1 → (sliceOf (start s) (tmFwd (start s) t)).live = false →
      pairRuns (start s) 4 = true →
      (ue.bind (residentOf (start s) t) = none →
        exec (.pair4ListBuild { slot := t, ue }) s = nextOf s (fun w =>
          modTm t (fun x => { x with staged := some (tmList (tmAllocate t w).toBlk t (tmGet (start s) t 0x15) x.scores) }) w)) ∧
      (∀ (f : Nat) (p : Page), ue.bind (residentOf (start s) t) = some (f, p) →
        exec (.pair4ListBuild { slot := t, ue }) s = nextOf s (fun w =>
          modTm t (fun x => { x with staged := none }) (mapClear t p.logical w))))

/-! ## Sensor ingest -/

/-- CSI-2 (09 R218, R219): on an enabled receiver that runs, a long packet of the stream's channel and type takes its place; where
its CRC-16 holds and its bytes fill the row it becomes a record at its position, and otherwise it is counted and its position lost
with reason 0x01 or 0x02; what the pipeline finds wrong of it conceals it with reason 0x04 (R212, R237). A packet of another channel
or type has no effect. Frame Start is noted, Frame End closes nothing, Line Start and Line End are ignored; a corrected header is
counted, and a short packet whose header fails is dropped. -/
def Obligations.CameraPackets : Prop :=
  ∀ (s : State) (n vc dt t : Nat) (payload : List Byte) (f : SFrame) (pos : Nat) (v : Work) (met : PipeMet) (h : ShortHead),
    n < 16 → vc < 16 → dt < 64 → h.vc < 16 →
    (cameraOn (atTime t (workOf s)).toBlk n = true →
      (vc = inGet (atTime t (workOf s)).toBlk n 7 → dt = inGet (atTime t (workOf s)).toBlk n 8 →
        placeAt n (moment t (workOf s)) none (atTime t (workOf s)) = (some (f, pos), v) →
        (payload.length * 8 = imgW v.toBlk n * csiBits dt →
          exec (.csi2LongPacket n vc dt t false false true met payload) s = nextOf s (fun _ =>
            admitRecord n f.idx pos payload.length (fun w =>
              match met.ue with
              | some a => decide_ n f.idx pos (.lost 4 0xFFFFFF) (raise 0x030 0x400 a w)
              | none =>
                if met.crc || met.writer then decide_ n f.idx pos (.lost 4 0xFFFFFF) w
                else decide_ n f.idx pos (.good (rowRec w.toBlk n dt (rowTime w.toBlk n f pos) 0 payload)) w) v)) ∧
        (payload.length * 8 ≠ imgW v.toBlk n * csiBits dt →
          exec (.csi2LongPacket n vc dt t false false true met payload) s = nextOf s (fun _ =>
            decide_ n f.idx pos (.lost 2 0xFFFFFF) (inAdd n 0x44 1 v))) ∧
        exec (.csi2LongPacket n vc dt t false false false met payload) s = nextOf s (fun _ =>
          decide_ n f.idx pos (.lost 1 0xFFFFFF) (inAdd n 0x44 1 v))) ∧
      (vc ≠ inGet (atTime t (workOf s)).toBlk n 7 ∨ dt ≠ inGet (atTime t (workOf s)).toBlk n 8 → ∀ crcOk,
        exec (.csi2LongPacket n vc dt t false false crcOk met payload) s = nextOf s (atTime t))) ∧
    (cameraOn (atTime t (workOf s)).toBlk n = true →
      let seen := fun w => doIf h.fixed (inAdd n 0x45 1) (atTime t w)
      (h.bad = false → h.vc = inGet (seen (workOf s)).toBlk n 7 →
        exec (.csi2FrameStart n h t) s = nextOf s (fun w => modIn n (fun x => { x with fs := true }) (seen w))) ∧
      (h.bad = true ∨ h.vc ≠ inGet (seen (workOf s)).toBlk n 7 → exec (.csi2FrameStart n h t) s = nextOf s seen) ∧
      exec (.csi2FrameEnd n h t) s = nextOf s seen) ∧
    (cameraOn (start s) n = true → exec (.csi2LineShortPacket n h) s = nextOf s (doIf h.fixed (inAdd n 0x45 1)))
/-- Ethernet ingest (09 R213, R215, R216, R220, R226, R227, R235): a frame whose FCS fails, one that no stream takes, and a datagram
whose checksum fails are counted and dropped; a datagram of an enabled stream goes to its position, an RTP packet to its slice. The
JPEG XS decoder takes its next slice, whose record is lost with reason 0x07 where its codestream lies outside the subset; it delivers
the slice, or runs out of budget, which is counted and loses it with reason 0x06. A silent sensor is reported and its frame given up;
the positions past their deadline are lost; a replayed record goes its way. -/
def Obligations.StreamCommands : Prop :=
  ∀ (s : State) (n p t0 t depth off r : Nat) (x : FrameMet) (m : List Byte) (h : JxsHead) (met : PipeMet) (rows : List PRow)
      (j : JxsJob) (rest : List JxsJob),
    let a := (atTime t (workOf s)).toBlk
    let now := moment t (workOf s)
    (p < 4 → inRuns a = true → odGet a (0x2820 + p) 0xB = 1 →
      exec (.ethernetFrameReceived p t0 t { x with fcs := false } m) s = nextOf s (fun w => odAdd (0x2820 + p) 0xE 1 (atTime t w)) ∧
      (otherRow a p m = false → x.fcs = true →
        (udpOf m = none →
          exec (.ethernetFrameReceived p t0 t x m) s = nextOf s (fun w => odAdd (0x2820 + p) 0xC 1 (atTime t w))) ∧
        (∀ d : Datagram, udpOf m = some d →
          (matchStream a p m d.src d.port = none →
            exec (.ethernetFrameReceived p t0 t x m) s = nextOf s (fun w => odAdd (0x2820 + p) 0xC 1 (atTime t w))) ∧
          (matchStream a p m d.src d.port = some n →
            (d.good = false → exec (.ethernetFrameReceived p t0 t x m) s = nextOf s (fun w => inAdd n 0x44 1 (atTime t w))) ∧
            (d.good = true → inType a n = 3 →
              exec (.ethernetFrameReceived p t0 t x m) s = nextOf s (fun w => rtpPacket n now d.body (atTime t w))) ∧
            (d.good = true → inType a n ≠ 3 →
              exec (.ethernetFrameReceived p t0 t x m) s = nextOf s (fun w => datagram n t0 now x.met d.body (atTime t w))))))) ∧
    (16 ≤ n → n < 32 → inRuns a = true → (inOf a n).queue = j :: rest → (inOf a n).run = none →
      let taken := fun w => modIn n (fun x => { x with queue := rest }) (atTime t w)
      h.met.ue = none → h.met.crc = false →
      (isOutside (taken (workOf s)).toBlk n j.idx = false → jxsInside (taken (workOf s)).toBlk n h = true →
        exec (.jxsDecodeStart n t h) s = nextOf s (fun w =>
          modIn n (fun x => { x with run := some { j with start := now, depth := h.depth, tall := h.tall } }) (taken w))) ∧
      (isOutside (taken (workOf s)).toBlk n j.idx = true ∨ jxsInside (taken (workOf s)).toBlk n h = false →
        exec (.jxsDecodeStart n t h) s = nextOf s (fun w =>
          decide_ n j.idx j.pos (.lost 7 0xFFFFFF) (jxsOutside n j.idx (taken w))))) ∧
    (16 ≤ n → n < 32 → 8 ≤ depth → depth ≤ 12 → (inOf a n).run = some j → rowsFit a n j depth rows = true →
      now ≤ j.start + inGet a n 0x16 → met.ue = none → met.crc = false → met.writer = false →
      exec (.jxsDecodeComplete n t depth met rows) s = nextOf s (fun w =>
        let scaled := rows.map (fun r => r.map (fun p => p.map (fun v => v * 2 ^ (16 - depth))))
        decide_ n j.idx j.pos (.good { j.rec_ with rows := scaled }) (modIn n (fun x => { x with run := none }) (atTime t w)))) ∧
    (16 ≤ n → n < 32 → off < 2 ^ 24 → (inOf a n).run = some j → j.start + inGet a n 0x16 ≤ now →
      exec (.jxsDecodeBudgetExpired n t off) s = nextOf s (fun w =>
        decide_ n j.idx j.pos (.lost 6 off) (inAdd n 0x46 1 (modIn n (fun x => { x with run := none }) (atTime t w))))) ∧
    (n < 32 → (inOf a n).lastRef = some r → inEnabled a n = true → inRuns a = true → inFree a n = false → inTrigger a n = 0xFF →
      r + inGet a n 0x11 + inGet a n 0x14 ≤ now →
      exec (.sensorSilent n t) s = nextOf s (fun w =>
        let next := (inOf a n).next
        goneFrame n next (raise 0x060 n (next % 65536) (inAdd n 0x42 1 (beginFrame n (r + inGet a n 0x11) none (atTime t w)))))) ∧
    (n < 32 → inEnabled a n = true → inRuns a = true → inFree a n = false →
      exec (.positionDeadline n t) s = nextOf s (fun w =>
        let w := atTime t w
        let mark := fun (b : Blk) (f : SFrame) =>
          (List.range (inRecords b n)).filter (fun r => decide (f.closed ≤ r) && (tabGet none f.ready r).isNone &&
            !f.busy.contains r && decide (deadlineOf b n f r ≤ now))
        closeReady n (forAll (inOf w.toBlk n).frames (fun f w =>
          modFrame n f.idx (fun g => { g with ready := (mark w.toBlk f).foldl (fun t r => tabSet none t r (some (Fate.lost 8 0xFFFFFF))) g.ready }) w) w))) ∧
    (∀ (hd : Hdr) (y : Arrival) (q : List Byte), FrameServed hd 0x50 q m s →
      exec (.replayRecord hd y q) s = nextOf s (fun w => replayMsg y m (served hd 0x50 w)))

/-! ## Time, triggers and inputs -/

/-- gPTP (11 R275, R277): on the port that follows, a Sync waits for its Follow_Up, which makes a sample for the servo; a peer
delay exchange gives the path's delay; an Announce is ignored; a master port sends Sync with its Follow_Up, once an interval, and
Announce. -/
def Obligations.GptpCommands : Prop :=
  ∀ (s : State) (port seq t : Nat) (origin corr t1 t2 t3 t4 : Int), port < 5 → seq < 65536 →
    (follows (start s) port 0 = true →
      exec (.gptpSync port 0 seq t) s = nextOf s (fun w => { atTime t w with time.openSync := some (seq, moment t w) }) ∧
      exec (.gptpPdelay port t1 t2 t3 t4) s = nextOf s (fun w => { w with time.pathDelay := ((t4 - t1) - (t3 - t2)) / 2 }) ∧
      (s.blk.time.openSync = some (seq, t) →
        exec (.gptpFollowUp port 0 seq origin corr) s = nextOf s (fun w =>
          let delay : Int := if odGet (start s) 0x2101 6 = 1 then (odGet (start s) 0x2101 7 : Int) else s.blk.time.pathDelay
          servoSample 2 { dev := t, net := origin + corr + delay } { w with time.openSync := none }))) ∧
    exec (.gptpAnnounce port) s = nextOf s id ∧
    (sends (atTime t (workOf s)).toBlk port = true →
      let at_ := moment t (workOf s)
      exec (.gptpAnnounceSend port t) s = nextOf s (fun w =>
        send (.ether port 3 []) { atTime t w with pins.annSent := tabInsert (atTime t w).pins.annSent port at_ }) ∧
      ((∀ l, tabFind (atTime t (workOf s)).pins.syncSent port = some l → l + syncInterval (atTime t (workOf s)).toBlk ≤ at_) →
        exec (.gptpSyncSend port t) s = nextOf s (fun w =>
          let w := { atTime t w with pins.syncSent := tabInsert (atTime t w).pins.syncSent port at_ }
          send (.ether port 2 (leBytes 8 (mapNet w.time at_).toNat)) (send (.ether port 1 []) w))))
/-- The map of network time (11 R273, R275, R276, R277, 17 R437): the map that waits takes effect at the first boundary after
what asked for it and not before, a grandmaster's own with its state; a cascade's master sends it for two beats later. Without an
accepted sample for three intervals, or for 3 s with PPS, the state becomes holdover with "time lost", and free running after the
limit; the committed commands reset the map and set the PPS seconds. -/
def Obligations.TimeMapCommands : Prop :=
  ∀ (s : State) (m : NewMap) (v : Nat) (g : Int),
    (s.blk.time.newMap = some m →
      let t : Int := s.blk.time.ns
      let n0 := match m.first with
        | some (ti, ni) => ni + (t - ti) + (t - ti) * m.rate / 2 ^ 40
        | none => mapNet s.blk.time t + m.delta
      (s.blk.time.beat < m.due → exec .mapUpdate s = nextOf s id) ∧
      (s.blk.time.ns = 2000 * s.blk.time.beat → m.due ≤ s.blk.time.beat →
        (odGet (start s) 0x2700 4 ≠ 2 → m.own = none →
          exec .mapUpdate s = nextOf s (fun w => setMap s.blk.time.ns n0 m.rate { w with time.newMap := none })) ∧
        (odGet (start s) 0x2700 4 ≠ 2 → m.own = some g →
          exec .mapUpdate s = nextOf s (fun w => setMap 0 g 0 { w with time.newMap := none, time.sync := 5 })) ∧
        (odGet (start s) 0x2700 4 = 2 → m.own = none →
          exec .mapUpdate s = nextOf s (fun w => { w with
            time.newMap := none,
            casc.map := some (s.blk.time.beat + 2, s.blk.time.ns, n0, m.rate, (s.blk.time.gen + 1) % 2 ^ 32) })) ∧
        (odGet (start s) 0x2700 4 = 2 → m.own = some g →
          exec .mapUpdate s = nextOf s (fun w => { w with
            time.newMap := none, time.sync := 5,
            casc.map := some (s.blk.time.beat + 2, 0, g, 0, (s.blk.time.gen + 1) % 2 ^ 32) })))) ∧
    ((s.blk.time.sync = 2 ∧ s.blk.time.lastSample + 3 * syncInterval (start s) ≤ s.blk.time.ns) ∨
        (s.blk.time.sync = 3 ∧ s.blk.time.lastSample + 3000000000 ≤ s.blk.time.ns) →
      exec .syncTimeout s = nextOf s (fun w =>
        raise 0x091 (timePort w.toBlk) 0 { w with time.sync := 4, time.holdoverFrom := s.blk.time.ns })) ∧
    (mapArrives (start s) = false → s.blk.time.sync = 4 →
      s.blk.time.holdoverFrom + odGet (start s) 0x2100 0xD * 1000000000 ≤ s.blk.time.ns →
      exec .holdoverExpire s = nextOf s (fun w => { w with time := { s.blk.time with sync := 0, samples := [], good := 0, bad := 0 } })) ∧
    (.mapReset ∈ s.blk.links.effects →
      exec .mapReset s = nextOf s (fun w => { w with
        links.effects := w.links.effects.erase .mapReset,
        time := { s.blk.time with sync := 0, samples := [], good := 0, bad := 0, newMap := none, stepOk := true } })) ∧
    (s.blk.links.effects.find? isPpsSeconds = some (.ppsSeconds v) →
      exec .ppsSeconds s = nextOf s (fun w =>
        { w with links.effects := w.links.effects.erase (.ppsSeconds v), time.ppsSeconds := some v }))
/-- Triggers (11 R280, R281, 09 R213): an enabled trigger finds its first edge; an edge is scheduled two beats before, or skipped
while PPS_OUT has no network time; the edge drives the pin for the width, is counted with its time, and is a frame reference for
the streams that name it; the pulse ends. -/
def Obligations.TriggerCommands : Prop :=
  ∀ (s : State) (k c i d t e : Nat), k < 33 →
    ((trigOf (start s) k).since = some c → trigOn (start s) k = true → (trigOf (start s) k).next = none →
      (trigNet (start s) k = true → s.blk.time.sync = 2 ∨ s.blk.time.sync = 3 ∨ s.blk.time.sync = 5) →
      let x : Int := if trigNet (start s) k then mapNet s.blk.time (max c s.blk.time.ns : Nat) else (c : Int)
      let first := ceilDiv ((x + 4000 - trigPhase (start s) k) * 65536).toNat (trigStep (start s) k)
      exec (.triggerStart k) s = nextOf s (modTrig k (fun x => { x with next := some first }))) ∧
    ((trigOf (start s) k).next = some i → trigOn (start s) k = true → (trigOf (start s) k).sched = none →
      let edge := trigEdge (start s) k i
      let at_ := refEdge (if trigNet (start s) k then (mapDev s.blk.time edge).toNat else edge)
      at_ / 2000 ≤ s.blk.time.beat + 2 →
      ((k = 32 → 2 ≤ s.blk.time.sync ∧ s.blk.time.sync ≤ 5) →
        exec (.triggerSchedule k) s = nextOf s (modTrig k (fun x => { x with sched := some at_ }))) ∧
      (k = 32 → s.blk.time.sync < 2 →
        exec (.triggerSchedule k) s = nextOf s (modTrig k (fun x => { x with next := some (i + 1) })))) ∧
    ((trigOf (start s) k).sched = some d → trigOn (start s) k = true → d / 2000 ≤ s.blk.time.beat →
      let drive := fun w => modTrig k (fun x => { x with sched := none, next := x.next.map (· + 1), until_ := some (refEdge (d + trigWidth (start s) k)) }) (atTime d w)
      (k = 32 → exec .ppsOutEdge s = nextOf s drive) ∧
      (k < 32 →
        exec (.triggerEdge k) s = nextOf s (fun w =>
          triggerFrames k d (odAdd (0x2120 + k) 9 1 (odPut (0x2120 + k) 0xA d (drive w)))))) ∧
    ((trigOf (atTime t (workOf s)).toBlk k).until_ = some e → e ≤ moment t (workOf s) →
      exec (.triggerPulseEnd k t) s = nextOf s (fun w => modTrig k (fun x => { x with until_ := none }) (atTime t w)))
/-- Inputs and the converter (11 R283 to R288, R290, 14 R360, R375), while REFCLK runs: a level that stays shorter than the filter
is a glitch and is counted; an accepted change is an event where the input is enabled and the level active or both edges count,
unless it comes within the minimum interval, where it is dropped and counted; a change that is no event is reported. The minimum
interval ends in the withheld level's event; an input that stays active is reported once; a pop reads and removes the oldest
capture, and reads 0 where there is none; a conversion is kept with the last 16, AIN0's are counted while below its limit, and the
fourth in a row is the net-low event. -/
def Obligations.InputCommands : Prop :=
  ∀ (s : State) (i t n c code a : Nat) (lv : Bool),
    (i < 20 → n ≤ 255 → clockRuns (start s) = true →
      (n < odGet (start s) (0x2140 + i) 4 → exec (.inputChangeAccepted i lv t n) s = nextOf s (odAdd (0x2140 + i) 0x12 1)) ∧
      (odGet (start s) (0x2140 + i) 4 ≤ n → (inputOf (start s) i).level ≠ lv →
        let active := activeLevel (start s) i lv
        let moved := fun w => modInput i (fun x => { x with level := lv, raw := t, active := if active then some t else none, stuck := x.stuck && active })
          (atTime (t + 40 * odGet (start s) (0x2140 + i) 4) w)
        (inputOn (moved (workOf s)).toBlk i = false → exec (.inputChangeAccepted i lv t n) s = nextOf s moved) ∧
        (inputOn (moved (workOf s)).toBlk i = true →
          (active = true ∨ odGet (moved (workOf s)).toBlk (0x2140 + i) 7 = 1 →
            (tooSoon (moved (workOf s)).toBlk i t = false →
              exec (.inputChangeAccepted i lv t n) s = nextOf s (fun w => acceptEvent i active t (moved w))) ∧
            (tooSoon (moved (workOf s)).toBlk i t = true →
              exec (.inputChangeAccepted i lv t n) s = nextOf s (fun w => dropEvent i (moved w)))) ∧
          (active = false → odGet (moved (workOf s)).toBlk (0x2140 + i) 7 ≠ 1 →
            exec (.inputChangeAccepted i lv t n) s = nextOf s (fun w =>
              inputEffect i false t (modInput i (fun x => { x with reported := false }) (moved w))))))) ∧
    (let b := (atTime t (workOf s)).toBlk;
      (i < 20 → isLevel b i = true → tooSoon b i (moment t (workOf s)) = false →
        activeLevel b i (inputOf b i).level ≠ (inputOf b i).reported → inputOn b i = true →
        exec (.minIntervalExpire i t) s = nextOf s (fun w =>
          acceptEvent i (activeLevel b i (inputOf b i).level) (inputOf b i).raw (atTime t w))) ∧
      (i < 20 → (inputOf b i).active = some a → (inputOf b i).stuck = false → inputOn b i = true →
        a + odGet b (0x2140 + i) 6 * 1000000 ≤ moment t (workOf s) →
        exec (.inputStuck i t) s = nextOf s (fun w =>
          raise 0x093 i 0 (odAdd (0x2140 + i) 0x13 1 (modInput i (fun x => { x with stuck := true }) (atTime t w)))))) ∧
    (∀ hd : Hdr, i < 16 → FrameServed hd 0x10 (objHead (0x2140 + i) 0x16) (objHead (0x2140 + i) 0x16) s →
      readCheck (served hd 0x10 (workOf s)).toBlk (0x2140 + i) 0x16 = 0 →
      (∀ v rest, (inputOf (served hd 0x10 (workOf s)).toBlk i).fifo = v :: rest →
        exec (.capFifoPop i hd) s = nextOf s (fun w =>
          answer hd.link hd.tag 0x11 0 (objHead (0x2140 + i) 0x16 ++ leBytes 4 0 ++ leBytes 8 v)
            (modInput i (fun x => { x with fifo := rest }) (served hd 0x10 w)))) ∧
      ((inputOf (served hd 0x10 (workOf s)).toBlk i).fifo = [] →
        exec (.capFifoPop i hd) s = nextOf s (fun w =>
          answer hd.link hd.tag 0x11 0 (objHead (0x2140 + i) 0x16 ++ leBytes 4 0 ++ leBytes 8 0) (served hd 0x10 w)))) ∧
    (c < 8 → code < 4096 → clockRuns (start s) = true →
      let keep := fun w => modAdc c (fun x => { x with codes := (code :: x.codes).take 16 }) (odPut (0x2280 + c) 8 code w)
      (0 < c ∨ odGet (keep (workOf s)).toBlk 0x2280 0xC = 0 → exec (.adcConversion c code) s = nextOf s keep) ∧
      (c = 0 → code < odGet (keep (workOf s)).toBlk 0x2280 0xC →
        exec (.adcConversion c code) s = nextOf s (fun w => modAdc 0 (fun x => { x with low := x.low + 1 }) (keep w)))) ∧
    (4 ≤ (adcOf (atTime t (workOf s)).toBlk 0).low → (atTime t (workOf s)).pow.netLow = false →
      exec (.netLowEvent t) s = nextOf s (fun w => powerFail (moment t w) { atTime t w with pow.netLow := true }))

/-! ## The object service and the links -/

/-- The object service on a link (12 R296 to R303), on a message that the session serves: an OD_READ answers the value and takes
what it pops, or the abort code; an OD_WRITE enters the stage, or answers the code that refuses it; a COMMIT waits for its boundary,
two beats and one for every 2,048 staged bytes later, a discard empties the stage. A commit that is due and that every check allows
is applied, its stage emptied and its sender answered; a request for a state of a formed cascade is answered later; one that a check
refuses is counted, its stage emptied and the first code answered. -/
def Obligations.ObjectCommands : Prop :=
  ∀ (s : State) (hd : Hdr) (p bs : List Byte) (idx sub link at_ : Nat) (r : Reply),
    idx < 65536 → sub < 256 →
    (FrameServed hd 0x10 p (objHead idx sub) s →
      let v := served hd 0x10 (workOf s)
      (readCheck v.toBlk idx sub = 0 → exec (.odRead hd p) s = nextOf s (fun w =>
        let w := served hd 0x10 w
        answer hd.link hd.tag 0x11 0 (objHead idx sub ++ leBytes 4 0 ++ leBytes (odBytes idx sub) (odRead w.toBlk hd.link idx sub))
          (odPop idx sub w))) ∧
      (readCheck v.toBlk idx sub ≠ 0 → exec (.odRead hd p) s = nextOf s (fun w =>
        answer hd.link hd.tag 0x11 9 (objHead idx sub ++ leBytes 4 (readCheck v.toBlk idx sub)) (served hd 0x10 w)))) ∧
    (FrameServed hd 0x12 p (objHead idx sub ++ bs) s →
      let e := expandWrite (served hd 0x12 (workOf s)).toBlk idx sub bs
      (e.1 = 0 → ¬ (idx = 0x2001 ∧ sub = 1) → exec (.odWrite hd p) s = nextOf s (fun w =>
        let x := enterStage hd.link e.2 (served hd 0x12 w)
        answer hd.link hd.tag 0x13 (if x.1 = 0 then 0 else 9) (objHead idx sub ++ leBytes 4 x.1) x.2)) ∧
      (e.1 ≠ 0 → exec (.odWrite hd p) s = nextOf s (fun w =>
        answer hd.link hd.tag 0x13 9 (objHead idx sub ++ leBytes 4 e.1) (served hd 0x12 w)))) ∧
    (let v := served hd 0x12 (workOf s);
      (FrameServed hd 0x12 (objHead 0x2001 1 ++ leBytes 1 1) (objHead 0x2001 1 ++ leBytes 1 1) s →
        (expandWrite v.toBlk 0x2001 1 (leBytes 1 1)).1 = 0 →
        (stageOf v.toBlk hd.link).commitAt = none → (stageOf v.toBlk hd.link).writes.isEmpty = false →
        exec (.commit hd) s = nextOf s (fun w =>
          let w := served hd 0x12 w
          let at_ := w.time.beat + 2 + ceilDiv (stageBytes (stageOf w.toBlk hd.link)) 2048
          modStage hd.link (fun x => { x with commitAt := some at_, order := v.links.orders + 1, reply := some (.crino hd.link hd.tag) })
            { w with links.orders := w.links.orders + 1 })) ∧
      (FrameServed hd 0x12 (objHead 0x2001 1 ++ leBytes 1 0) (objHead 0x2001 1 ++ leBytes 1 0) s →
        (expandWrite v.toBlk 0x2001 1 (leBytes 1 0)).1 = 0 →
        exec (.stageDiscard hd) s = nextOf s (fun w =>
          let r := discardStage hd.link (served hd 0x12 w)
          answer hd.link hd.tag 0x13 (if r.1 = 0 then 0 else 9) (objHead 0x2001 1 ++ leBytes 4 r.1) r.2))) ∧
    (link < 4 → (stageOf (start s) link).commitAt = some at_ → at_ ≤ s.blk.time.beat → (stageOf (start s) link).reply = some r →
      let st := stageOf (start s) link
      let emptied := fun w => modStage link (fun _ => Stage.empty) w
      let new := (mapsAfter st (forAll st.writes applyWrite (workOf s))).toBlk
      (s.blk.dev.escalate = none → (s.blk.dev.state = .config ∨ activeState (start s) = true) →
        ((∀ x ∈ st.writes, commitCheck (start s) new x = 0) →
          (jointAsked (commitApply st (emptied (workOf s))).toBlk st = false →
            exec (.commitApply link) s = nextOf s (fun w => commitAnswer r 0 (commitApply st (emptied w)))) ∧
          (jointAsked (commitApply st (emptied (workOf s))).toBlk st = true →
            exec (.commitApply link) s = nextOf s (fun w =>
              { commitApply st (emptied w) with links.joint := some (r, odGet (start s) 0x2000 2) }))) ∧
        (∀ c, (st.writes.map (commitCheck (start s) new)).find? (· != 0) = some c →
          exec (.commitApply link) s = nextOf s (fun w => commitAnswer r c (odAdd 0x2001 5 1 (emptied w))))) ∧
      (s.blk.dev.escalate.isSome = true ∨ (s.blk.dev.state ≠ .config ∧ activeState (start s) = false) →
        exec (.commitApply link) s = nextOf s (fun w => commitAnswer r 0x08000022 (odAdd 0x2001 5 1 (emptied w)))))
/-- CAN FD (12 R307 to R310): a client's read, write or segmented write is served, and another client's meanwhile aborted; a
transfer that stalls for 100 ms is aborted; an NMT command is counted; the heartbeat goes out when its period has passed and the
safety status at the boundaries of its period, where a controller can send it; bus-off is counted and raised, and ends. -/
def Obligations.CanCommands : Prop :=
  ∀ (s : State) (c client idx sub size t : Nat) (o : UsdoOpen) (data : List Byte), c < 2 →
    (client < 128 → idx < 2 ^ 16 → sub < 256 → data.length ≤ 2 ^ 16 → canActive (start s) c = true → serviceRuns (start s) = true →
      ((canOf (start s) c).usdo = none →
        exec (.usdoRequest c client (.read idx sub)) s = nextOf s (fun w =>
          let r := serveRead (2 + c) idx sub w
          usdoAnswer c client r.1 r.2.1 r.2.2) ∧
        exec (.usdoRequest c client (.write idx sub data)) s = nextOf s (usdoWrite c client idx sub data) ∧
        (size < 2 ^ 32 → exec (.usdoRequest c client (.start idx sub size)) s = nextOf s (fun w =>
          let o : UsdoOpen := { client, session := 0, write := true, idx, sub, size, bytes := [], last := w.time.ns }
          usdoAnswer c client 0 [] (modCan c (fun x => { x with usdo := some o }) w))) ∧
        exec (.usdoRequest c client .invalid) s = nextOf s (usdoAnswer c client 0x05040001 [])) ∧
      ((canOf (start s) c).usdo = some o → o.client ≠ client → ∀ q : UsdoReq, q.wf = true →
        exec (.usdoRequest c client q) s = nextOf s (usdoAnswer c client 0x08000021 [])) ∧
      ((canOf (start s) c).usdo = some o → o.client = client →
        exec (.usdoRequest c client (.segment false data)) s = nextOf s (fun w =>
          usdoAnswer c client 0 [] (modCan c (fun x => { x with usdo := some { o with bytes := o.bytes ++ data, last := w.time.ns } }) w)) ∧
        ((o.bytes ++ data).length = o.size →
          exec (.usdoRequest c client (.segment true data)) s = nextOf s (fun w =>
            usdoWrite c client o.idx o.sub (o.bytes ++ data) (modCan c (fun x => { x with usdo := none }) w))))) ∧
    ((canOf (atTime t (workOf s)).toBlk c).usdo = some o → o.last + 100000000 ≤ moment t (workOf s) →
      exec (.usdoTimeout c t) s = nextOf s (fun w =>
        usdoAnswer c o.client 0x05040000 [] (modCan c (fun x => { x with usdo := none }) (atTime t w)))) ∧
    (canActive (start s) c = true → exec (.nmtCommand c) s = nextOf s (odAdd (0x2810 + c) 0xB 1)) ∧
    (canActive (atTime t (workOf s)).toBlk c = true →
      let sent := (canOf (atTime t (workOf s)).toBlk c).beatSent
      (sent = 0 ∨ sent + odGet (atTime t (workOf s)).toBlk 0x1017 0 * 1000000 ≤ moment t (workOf s)) →
      exec (.heartbeat c t) s = nextOf s (fun w =>
        let at_ := moment t w
        let w := atTime t w
        canSend c (0x700 + w.dev.nodeId) (leBytes 1 (nmtState w.dev.state)) (modCan c (fun x => { x with beatSent := at_ }) w))) ∧
    (servedState (start s) = true → odGet (start s) 0x2390 1 = 1 → s.blk.time.beat % odGet (start s) 0x2390 3 = 0 →
      s.blk.time.ns = 2000 * s.blk.time.beat → (canActive (start s) 0 = true ∨ canActive (start s) 1 = true) →
      exec .safetyStatusFrame s = nextOf s (fun w =>
        let f := ssfBytes w.toBlk
        let id := odGet w.toBlk 0x2390 2
        let w := canSend 1 id f (canSend 0 id f w)
        odAdd 0x2390 4 1 { w with links.ssfCount := (w.links.ssfCount + 1) % 65536 })) ∧
    (canActive (start s) 0 = false → canActive (start s) 1 = false → exec .safetyStatusFrame s = nextOf s id) ∧
    ((canOf (start s) c).busOff = false →
      exec (.canBusOff c) s = nextOf s (fun w =>
        raise 0x0B0 c 0 (odAdd (0x2810 + c) 8 1 (modCan c (fun x => { x with busOff := true }) w)))) ∧
    ((canOf (start s) c).busOff = true →
      exec (.canBusOffRecovery c) s = nextOf s (fun w =>
        odPut (0x2810 + c) 9 0 (odPut (0x2810 + c) 0xA 0 (modCan c (fun x => { x with busOff := false }) w))))
/-- Sessions (12 R313 to R315, R317, R322): HELLO opens a session where a version is common and answers what the host needs, and
answers status 1 where none is, an open session closed (the model's reading, log 145); a KEEPALIVE that the session serves refreshes
it; a repeated request over UDP receives the held
answer of its TAG; a reserved type is answered with status 2; a frame whose CRC fails is counted and dropped; a session that stays silent, or whose
port detaches, closes with its rings stopped and "host silent". -/
def Obligations.SessionCommands : Prop :=
  ∀ (s : State) (hd : Hdr) (payload : List Byte) (ftype link t : Nat), hd.wf = true →
    (linkServes (start s) hd.link hd.port = true → stranger (start s) hd = false → heldAnswer (start s) hd = none →
      (payload.length = 4 → hd.offset = 0 → (hd.flags = 1 ∨ hd.flags = 3) → hd.reserved = 0 → leAt payload 2 2 = 0 → hd.version = 1 →
        let body := fun (common : Bool) => leBytes 1 (b2n common) ++ leBytes 1 (stateCode s.blk.dev.state) ++ leBytes 2 0 ++
          leBytes 4 (odGet (start s) 0x1018 2) ++ leBytes 4 (odGet (start s) 0x1018 4) ++ leBytes 4 (odGet (start s) 0x2002 1)
        (leAt payload 0 1 ≤ 1 → 1 ≤ leAt payload 1 1 →
          exec (.hello hd payload) s = nextOf s (fun w =>
            let w := dropStage hd.link false w
            let w := modSession hd.link (fun _ => { Session.closed with up := true, version := 1, last := w.time.ns, peer := hd.peer }) w
            answer hd.link hd.tag 2 0 (body true) (odPut 0x2800 8 1 w))) ∧
        (1 < leAt payload 0 1 ∨ leAt payload 1 1 < 1 →
          exec (.hello hd payload) s = nextOf s (fun w =>
            answer hd.link hd.tag 2 1 (body false)
              (doIf (sessionOf (start s) hd.link).up (fun w => closeSession hd.link (dropStage hd.link false w)) w)))) ∧
      ((sessionOf (start s) hd.link).up = true → hd.version = (sessionOf (start s) hd.link).version → hd.reserved = 0 → hd.flags < 4 →
        ftype < 256 → exec (.unknownFrameType ftype hd) s = nextOf s (answer hd.link hd.tag ftype 2 []))) ∧
    (∀ os : List Output, linkServes (start s) hd.link hd.port = true → stranger (start s) hd = false → heldAnswer (start s) hd = some os →
      exec (.hello hd payload) s = nextOf s (fun w => sendAgain os (heard hd.link w))) ∧
    (FrameServed hd 3 [] [] s → exec (.keepalive hd) s = nextOf s (served hd 3)) ∧
    (linkServes (start s) hd.link hd.port = true → exec (.crinoFrameCrcFail hd) s = nextOf s (odAdd 0x2800 4 1)) ∧
    (link < 2 → t < 2 ^ 64 → (sessionOf (atTime t (workOf s)).toBlk link).last + odGet (atTime t (workOf s)).toBlk 0x2800 3 * 1000000 ≤ moment t (workOf s) →
      (sessionOf (atTime t (workOf s)).toBlk link).up = true →
      exec (.hostSilent link t) s = nextOf s (fun w =>
        let w := ringsStop (closeSession link (dropStage link false (atTime t w)))
        raise 0x0B2 link 0 (odAdd 0x2800 5 1 { w with links.silent := true }))) ∧
    (s.blk.links.usb.up = true →
      exec .usbDetach s = nextOf s (fun w =>
        let w := ringsStop (closeSession 0 (dropStage 0 false (odPut 0x2800 2 0 w)))
        raise 0x0B2 0 0 (odAdd 0x2800 5 1 { w with links.silent := true })))
/-- The register window (12 R320, R321): messages that the session serves read and write its words; HOST_KEEPALIVE, a clearing
of IRQ_STATUS and a doorbell are writes of one word: the first keeps the session, the second clears the bits that are set in the
value, the third starts its ring where it holds an entry and otherwise leaves it idle. -/
def Obligations.WindowCommands : Prop :=
  ∀ (s : State) (hd : Hdr) (p m : List Byte) (r v : Nat), v < 2 ^ 32 → r < 4 →
    (FrameServed hd 0x40 p m s → exec (.regRead hd p) s = nextOf s (fun w => regReadMsg hd.link hd.tag m (served hd 0x40 w))) ∧
    (FrameServed hd 0x41 p m s → exec (.regWrite hd p) s = nextOf s (fun w => regWriteMsg hd.link hd.tag m (served hd 0x41 w))) ∧
    (FrameServed hd 0x41 (regOne 0x1C v) (regOne 0x1C v) s →
      exec (.hostKeepalive hd v) s = nextOf s (fun w =>
        let w := served hd 0x41 w
        answer hd.link hd.tag 0x42 0 [] (modSession hd.link (fun x => { x with last := w.time.ns }) w))) ∧
    (FrameServed hd 0x41 (regOne 0x20 v) (regOne 0x20 v) s →
      (v < 32 → exec (.irqStatusClear hd v) s = nextOf s (fun w =>
        let w := served hd 0x41 w
        answer hd.link hd.tag 0x42 0 [] { w with links.win.irq := Nat.land w.links.win.irq (31 - v) })) ∧
      (32 ≤ v → exec (.irqStatusClear hd v) s = nextOf s (fun w => answer hd.link hd.tag 0x42 0xB [] (served hd 0x41 w)))) ∧
    (FrameServed hd 0x41 (regOne (0x110 + 0x20 * r) v) (regOne (0x110 + 0x20 * r) v) s →
      exec (.ringDoorbell hd r v) s = nextOf s (fun w =>
        answer hd.link hd.tag 0x42 0 [] (modRing_ r (fun x =>
          { x with status := if x.entries = 0 ∨ x.head = x.tail then 0 else 1, code := 0, link := hd.link }) (served hd 0x41 w))))
/-- The command rings (12 R321, 14 R368): the next entry, well formed, is taken and completed: a COMMIT when 12 R299 answers, a
hint with its own status, a REPLAY_FRAME_END after its frame is over, a NOP at once; an entry that is reserved stops the
ring. -/
def Obligations.RingCommands : Prop :=
  ∀ (s : State) (r : Nat) (e : List Byte), nextCmd (workOf s) = some (r, e) →
    let tag := leAt e 4 4
    let args := e.drop 8
    (cmdStops e = none →
      (leAt e 1 1 = 1 → exec .cmdCommit s = nextOf s (fun w =>
        let link := (ringOf w.toBlk r).link
        let x := askCommit link (.ring tag link) (ringPast r w)
        match x.1 with
        | none => x.2
        | some c => complete tag (if c = 0 then 0 else 9) 1 c (ringPast r w).time.beat x.2)) ∧
      (leAt e 1 1 = 2 → exec .heavyPhaseHint s = nextOf s (fun w =>
        let x := hint args (ringPast r w)
        complete tag x.1 2 0 (ringPast r w).time.beat x.2)) ∧
      (leAt e 1 1 = 3 → s.blk.dev.state = .adapt → leAt args 1 1 = 0 → leAt args 0 1 < 32 →
        exec .replayFrameEnd s = nextOf s (fun w =>
          let w := ringPast r w
          let n := leAt args 0 1
          let v := match (inOf w.toBlk n).frames.find? (fun f => f.ctr == leAt args 2 2) with
            | some f => goneFrame n f.idx w
            | none => w
          complete tag 0 3 0 v.time.beat v)) ∧
      (leAt e 1 1 = 3 → s.blk.dev.state = .adapt → 32 ≤ leAt args 0 1 → exec .replayFrameEnd s = nextOf s (fun w =>
        complete tag 1 3 0 (ringPast r w).time.beat (ringPast r w))) ∧
      (leAt e 1 1 = 3 → s.blk.dev.state ≠ .adapt → exec .replayFrameEnd s = nextOf s (fun w =>
        complete tag 4 3 0 (ringPast r w).time.beat (ringPast r w))) ∧
      (leAt e 1 1 = 4 → exec .cmdNop s = nextOf s (fun w => complete tag 0 4 0 (ringPast r w).time.beat (ringPast r w)))) ∧
    (∀ c : Nat, cmdStops e = some c → exec .cmdReserved s = nextOf s (fun w =>
      let w := modRing_ r (fun x => { x with head := (x.head + 1) % x.entries, status := 2, code := c }) w
      complete tag c (leAt e 1 1) 0 w.time.beat w))
/-- The Ethernet ports (12 R317, R319): a port answers ARP and neighbour solicitation for its own address with its MAC address;
the state of its link shows. -/
def Obligations.EthernetCommands : Prop :=
  ∀ (s : State) (p : Nat) (target : List Byte) (up : Bool), p < 5 →
    (target.length = 4 → ethAnswers (start s) p = true →
      leBytes 16 (odGet (start s) (0x2820 + p) 3) = List.replicate 10 0 ++ [0xFF, 0xFF] ++ target →
      exec (.arpRequest p target) s = nextOf s (send (.ether p 4 (leBytes 6 (odGet (start s) (0x2820 + p) 2) ++ target)))) ∧
    (target.length = 16 → ethAnswers (start s) p = true → leBytes 16 (odGet (start s) (0x2820 + p) 3) = target →
      exec (.neighbourSolicitation p target) s =
        nextOf s (send (.ether p 5 (leBytes 6 (odGet (start s) (0x2820 + p) 2) ++ target)))) ∧
    exec (.ethLinkChange p up) s = nextOf s (odPut (0x2820 + p) 0xB (b2n up))
/-- What a read takes away (13 R347, 16 R414, R415): a served read of LOG_POP answers and removes the oldest entry, one of FAULT_ACK
answers the lowest latched source and clears its latch outside SAFE, one of FE_RELEASE answers the captured fault and empties the
capture; an EP3 transfer drains the log ring. -/
def Obligations.PopCommands : Prop :=
  ∀ (s : State) (hd : Hdr) (n : Nat),
    let v := served hd 0x10 (workOf s)
    (FrameServed hd 0x10 (objHead 0x2540 8) (objHead 0x2540 8) s → readCheck v.toBlk 0x2540 8 = 0 →
      exec (.logPop hd) s = nextOf s (fun w =>
        let w := served hd 0x10 w
        let x := match w.log with | e :: _ => leNat (logBytes e) | [] => 0
        answer hd.link hd.tag 0x11 0 (objHead 0x2540 8 ++ leBytes 4 0 ++ leBytes (odBytes 0x2540 8) x) { w with log := w.log.drop 1 })) ∧
    (FrameServed hd 0x10 (objHead 0x2400 8) (objHead 0x2400 8) s → readCheck v.toBlk 0x2400 8 = 0 →
      exec (.faultAck hd) s = nextOf s (fun w =>
        let w := served hd 0x10 w
        let x := match w.coll.latches with | q :: _ => q.1 | [] => none16
        answer hd.link hd.tag 0x11 0 (objHead 0x2400 8 ++ leBytes 4 0 ++ leBytes (odBytes 0x2400 8) x)
          (if w.dev.state = .safe then w else { w with coll.latches := w.coll.latches.drop 1 }))) ∧
    (FrameServed hd 0x10 (objHead 0x2410 7) (objHead 0x2410 7) s → readCheck v.toBlk 0x2410 7 = 0 →
      exec (.feRelease hd) s = nextOf s (fun w =>
        let w := served hd 0x10 w
        let x := if odGet w.toBlk 0x2410 1 = 1 then odGet w.toBlk 0x2410 2 else 0
        answer hd.link hd.tag 0x11 0 (objHead 0x2410 7 ++ leBytes 4 0 ++ leBytes (odBytes 0x2410 7) x) (feReleasePop w))) ∧
    (1 ≤ n → n ≤ 512 → odGet (start s) 0x2540 7 = 1 → s.blk.links.usb.up = true →
      exec (.logDrainTransfer n) s = nextOf s (fun w => send (.log (s.blk.log.take n)) { w with log := s.blk.log.drop n }))

/-! ## The control cores -/

/-- Supervision (13 R325, R332, R336, R337, R339, 16 R418): a mismatch of a joined pair, halted or not, and a missed heartbeat restart
the pair with its fault, and so do a fatal trap and an uncorrectable error of its memory; a restart that ends well starts the pair
again and one that fails holds it; a heartbeat is counted and ends a start; a committed split or rejoin takes effect. -/
def Obligations.PairCommands : Prop :=
  ∀ (s : State) (k cause pc t : Nat) (ok good : Bool), k < 6 →
    (pairState (start s) k = 1 ∨ pairState (start s) k = 4 → (pairOf (start s) k).split = false →
      exec (.comparatorMismatch k) s = nextOf s (fun w => restartBegin k 1 0 (raise 0x0C1 k 0 w))) ∧
    (pairState (start s) k = 1 → 2 ≤ k → .split k ∈ s.blk.links.effects → odGet (start s) (0x2510 + k) 2 = 1 →
      exec (.pairSplit k) s = nextOf s (fun w =>
        pairPut k 1 2 (modPair k (fun p => { p with split := true }) { w with links.effects := w.links.effects.erase (.split k) }))) ∧
    ((pairOf (start s) k).split = true → 2 ≤ k → .rejoin k ∈ s.blk.links.effects →
      exec (.pairRejoin k) s = nextOf s (fun w => restartBegin k 6 0 { w with links.effects := w.links.effects.erase (.rejoin k) })) ∧
    ((pairOf (start s) k).start = none → pairState (start s) k = 1 ∨ pairState (start s) k = 2 →
      ((pairOf (start s) k).last + odGet (start s) 0x2420 3 ≤ s.blk.time.beat →
        exec (.heartbeatMissed k) s = nextOf s (fun w => restartBegin k 2 0 (raise 0x0C0 k 0 w))) ∧
      exec (.pairHeartbeat k) s = nextOf s (fun w =>
        let w := odAdd (0x2510 + k) 6 1 (modPair k (fun p => { p with start := none, last := w.time.beat }) w)
        let w := { w with cores.reporting := w.cores.reporting.filter (· != k) }
        if k = 0 then { w with safe.wdgBeat := true } else w)) ∧
    ((pairOf (start s) k).start = some t →
      (t + 500 ≤ s.blk.time.beat →
        exec (.heartbeatMissed k) s = nextOf s (fun w => restartBegin k 2 0 (raise 0x0C0 k 0 w))) ∧
      (pairState (start s) k = 0 ∨ pairState (start s) k = 3 →
        exec (.pairHeartbeat k) s = nextOf s (fun w =>
          let w := pairPut k 1 1 w
          let w := odAdd (0x2510 + k) 6 1 (modPair k (fun p => { p with start := none, last := w.time.beat }) w)
          let w := { w with cores.reporting := w.cores.reporting.filter (· != k) }
          if k = 0 then { w with safe.wdgBeat := true } else w))) ∧
    (1 ≤ cause → cause ≤ 6 → pc < 2 ^ 64 → pairState (start s) k = 3 → odGet (start s) (0x2510 + k) 4 = cause →
      (pairOf (start s) k).start = none →
      exec (.pairRestart k cause pc true true) s = nextOf s (fun w =>
        pairPut k 8 (sectionDigest w.toBlk k) (modPair k (fun p => { p with start := some w.time.beat }) w)) ∧
      exec (.pairRestart k cause pc false good) s = nextOf s (pairHold k) ∧
      exec (.pairRestart k cause pc true false) s = nextOf s (pairHold k)) ∧
    (pc < 2 ^ 64 → pairRuns (start s) k = true →
      exec (.pairRestart k 3 pc ok good) s = nextOf s (fun w =>
        let w := restartBegin k 3 pc (raise 0x0C2 k (pc % 2 ^ 32) w)
        if odGet w.toBlk (0x2510 + k) 4 = 3 then restartEnd k ok good w else w) ∧
      exec (.pairRestart k 4 pc ok good) s = nextOf s (fun w =>
        let w := restartBegin k 4 0 (raise 0x0C3 k (pc % 2 ^ 32 / 8 * 8) w)
        if odGet w.toBlk (0x2510 + k) 4 = 4 then restartEnd k ok good w else w))
/-- The debugger (13 R339): with the debug lock not fused it connects, halts a running pair with "debug halt", reads a value
that the spec does not state (a free value, log 48) from a halted pair, writes nothing that the spec names, and lets the pair go on,
split or joined as it was; with the lock fused it does nothing. -/
def Obligations.DebugCommands : Prop :=
  ∀ (s : State) (k : Nat) (write : Bool), k < 6 →
    (s.blk.fuses.debugLock = false →
      exec .debuggerConnect s = nextOf s (odPut 0x2530 4 1) ∧
      (pairRuns (start s) k = true →
        exec (.debugHalt k) s = nextOf s (fun w => pairAbsent k (raise 0x0C5 k 0 (odAdd (0x2510 + k) 7 1 (pairPut k 1 4 w))))) ∧
      (pairState (start s) k = 4 →
        exec (.debugAccess k false) s = nextOf s (fun w =>
          send (.debug k (Config.freeValue s.blk.free % 2 ^ 64)) { w with free := w.free + 1 }) ∧
        exec (.debugAccess k true) s = nextOf s id ∧
        exec (.debugResume k) s = nextOf s (fun w =>
          modPair k (fun p => { p with last := w.time.beat }) (pairPut k 1 (if (pairOf (start s) k).split then 2 else 1) w)))) ∧
    (s.blk.fuses.debugLock = true →
      exec .debuggerConnect s = nextOf s id ∧ exec (.debugHalt k) s = nextOf s id ∧ exec (.debugAccess k write) s = nextOf s id)
/-- Activation and the plan of Garnet starts (13 R335, R341, R342): a committed request for activation of a pending image, or its
withdrawal; in CONFIG every running pair restarts in the new image, elsewhere every one but pair 0; once all have reported, it is active, and
the start-up checks follow where pair 0 restarted; pair 2's plan is
kept; where it ends with pair 2 absent, "schedule exhausted" asks for an escalation. -/
def Obligations.ActivationCommands : Prop :=
  ∀ (s : State) (half : Nat) (starts : List (Nat × Nat)) (img : FwImage),
    (.activate ∈ s.blk.links.effects → exec .fwActivateRequest s = nextOf s (fun w =>
      fwWanted true { w with links.effects := w.links.effects.erase .activate })) ∧
    (.deactivate ∈ s.blk.links.effects → exec .fwActivateWithdraw s = nextOf s (fun w =>
      fwWanted false { w with links.effects := w.links.effects.erase .deactivate })) ∧
    (s.blk.cores.pending = some img → odGet (start s) 0x2500 1 = 3 → mayActivate (start s) = true → s.blk.dev.state = .config →
      exec .activationBegin s = nextOf s (fun w =>
        let ks := [0, 1, 2, 3, 4, 5].filter (fun k => pairRuns w.toBlk k)
        let w := { w with cores.active := some img, cores.pending := none, cores.recorded := fwDigest img.bytes, cores.reporting := ks }
        let w := showImage (odPut 0x2500 1 4 (odPut 0x2500 5 0 (odPut 0x2500 6 blankText w)))
        forAll ks (fun k w => restartBegin k 5 0 w) (odPut 0x2300 5 0 { w with dev.checksPassed := false }))) ∧
    (s.blk.cores.pending = some img → odGet (start s) 0x2500 1 = 3 → mayActivate (start s) = true → s.blk.dev.state ≠ .config →
      exec .activationBegin s = nextOf s (fun w =>
        let ks := [1, 2, 3, 4, 5].filter (fun k => pairRuns w.toBlk k)
        let w := { w with cores.active := some img, cores.pending := none, cores.recorded := fwDigest img.bytes, cores.reporting := ks }
        forAll ks (fun k w => restartBegin k 5 0 w)
          (showImage (odPut 0x2500 1 4 (odPut 0x2500 5 0 (odPut 0x2500 6 blankText w)))))) ∧
    (odGet (start s) 0x2500 1 = 4 → s.blk.cores.reporting = [] → s.blk.cores.active = some img →
      let shown := fun w => odPut 0x2500 3 (fwVersion img.bytes) (odPut 0x2500 1 1 w)
      (s.blk.dev.state ≠ .config → exec .activationComplete s = nextOf s shown) ∧
      (s.blk.dev.state = .config → odGet (start s) 0x2300 5 = 0 →
        exec .activationComplete s = nextOf s (fun w => odPut 0x2300 5 1 (shown w)))) ∧
    (starts.all (fun p => decide (p.2 < 64)) = true → pairRuns (start s) 2 = true → s.blk.time.beat < 4096 * (half + 1) →
      exec (.garnetPlanWrite half starts) s = nextOf s (fun w =>
        let old := w.sched.plan.filter (fun p => decide (w.time.beat ≤ p.1 + 64))
        { w with sched.plan := (starts.filter (fun p => p.1 / 4096 == half)).foldl (fun t p => tabSet 0 t p.1 p.2) old,
                 sched.planEnd := max w.sched.planEnd (4096 * (half + 1)) })) ∧
    (activeState (start s) = true → pairRuns (start s) 2 = false → s.blk.sched.planEnd ≤ s.blk.time.beat → s.blk.dev.escalate = none →
      Completes .schedulePlanExhausted s (fun t => t.blk.dev.escalate.isSome = true ∧ t.blk.dev.state = s.blk.dev.state ∧
        t.blk.time = s.blk.time ∧ t.mem = s.mem ∧ t.blk.engines = s.blk.engines))

/-! ## Power and cooling -/

/-- Power, clocks and cooling (14 R353, R361, R363, R365, R368, R370, R371, R374): the estimate of an even boundary runs the control laws
and switches the refresh rates; pair 1's level is taken at an even boundary; losing a PLL is counted and raised, relocking is counted;
every 500 beats the duties are full in BOOT, in SAFE and until the cooling is configured, LULL's in LULL, and follow their laws
otherwise where no thermal emergency stands and the coolant's value is there; a PWM period begins with the present frequency and
duty; a hold of 500 beats ends in its fault; a hinted phase raises the voltages two beats before and gives them back after it. -/
def Obligations.PowerCommands : Prop :=
  ∀ (s : State) (mw l p t : Nat) (temps : List (Nat × Int)) (h : Hint),
    (mw < 2 ^ 32 → s.blk.time.beat % 2 = 0 → s.blk.time.ns = 2000 * s.blk.time.beat → s.blk.pow.lastEst ≠ some s.blk.time.beat →
      hubRuns (start s) = true →
      exec (.powerEstimate mw temps) s = nextOf s (fun w =>
        let w := addEnergy mw (odPut 0x2200 5 mw { w with pow.lastEst := some w.time.beat })
        let seen := temps.filter (fun p => sensorThere w.toBlk p.1)
        let w := forAll seen (fun p w => doIf (decide (p.1 < 64)) (quadPut p.1 0x90 (quarterF p.2)) w) w
        let w := stepHardware mw (stepBudget mw w)
        let w := match hottest seen with
          | none => w
          | some (x, t) => stepCoolant t (stepThermal t (odPut 0x2210 6 x (odPut 0x2210 5 (quarterF t) w)))
        let w := stepEmergency mw (forAll seen (fun p w => stepTrip p.1 p.2 w) w)
        rateSwitches (temps.map (·.1)) (odPut 0x2200 8 (effLevel w.toBlk) w))) ∧
    (l ≤ 10 → s.blk.time.beat % 2 = 0 → odGet (start s) 0x2511 1 = 1 →
      exec (.fwLevelWrite l) s = nextOf s (fun w => { odPut 0x2200 0xA l w with pow.fwAt := some s.blk.time.beat })) ∧
    (p < 5 → pllThere p s = true → s.blk.pow.unlocked.contains p = false →
      exec (.pllLockLost p) s = nextOf s (fun w =>
        let w := { odAdd 0x2202 5 1 w with pow.unlocked := p :: s.blk.pow.unlocked }
        if p = 4 then raise 0x083 0 0 w else raise 0x026 (p / 2) (p % 2) w)) ∧
    (p < 5 → pllThere p s = true → s.blk.pow.unlocked.contains p = true →
      (s.blk.dev.state = .boot ∧ s.blk.dev.warm = false) ∨ (p ≠ 4 ∧ odGet (start s) 0x2430 3 = 3 ∧
        ∀ q ∈ dieQuads (start s) (p / 2), droopHolds (start s) q = false) →
      exec (.pllRelock p) s = nextOf s (fun w =>
        odAdd 0x2202 4 1 { w with pow.unlocked := s.blk.pow.unlocked.filter (· != p) })) ∧
    (s.blk.time.beat % 500 = 0 → s.blk.dev.state ≠ .porst →
      (s.blk.dev.state = .boot ∨ s.blk.dev.state = .safe ∨ s.blk.pow.coolOn = false →
        exec .coolingUpdate s = nextOf s (fun w => odPut 0x2290 3 1024 (odPut 0x2291 3 1024 (odPut 0x2220 0xA 1 w)))) ∧
      (s.blk.dev.state = .lull → s.blk.pow.coolOn = true →
        exec .coolingUpdate s = nextOf s (fun w =>
          odPut 0x2290 3 (odGet (start s) 0x2220 9) (odPut 0x2291 3 1024 (odPut 0x2220 0xA 0 w)))) ∧
      (s.blk.dev.state ≠ .boot → s.blk.dev.state ≠ .safe → s.blk.dev.state ≠ .lull → s.blk.pow.coolOn = true →
        fld s.blk.dev.emergency 3 1 = 0 → fIsNaN (adcValue (start s) 2) = false →
        exec .coolingUpdate s = nextOf s (fun w =>
          let b := start s
          let pump := coolLaw (odGet b 0x2210 5) (odGet b 0x2220 3) (odGet b 0x2220 5) (sgn 8 (odGet b 0x2220 4))
          let valve := coolLaw (adcValue b 2) (odGet b 0x2220 6) (odGet b 0x2220 8) (sgn 8 (odGet b 0x2220 7))
          odPut 0x2290 3 pump (odPut 0x2291 3 valve (odPut 0x2220 0xA 0 w))))) ∧
    (p < 2 → clockRuns (start s) = true →
      exec (.pwmPeriod p) s = nextOf s (fun w =>
        let period := rneRatio 25000000 (odGet w.toBlk (0x2290 + p) 2)
        odAdd (0x2290 + p) 4 1 { w with pow.pwm := setNth w.pow.pwm p (period, rneRatio (odGet w.toBlk (0x2290 + p) 3 * period) 1024) })) ∧
    (s.blk.pow.holdAt = some t → t + 500 ≤ s.blk.time.beat →
      exec .powerHoldExpire s = nextOf s (fun w => raise 0x0A3 0 0 { w with pow.holdAt := none })) ∧
    (s.blk.pow.hint = some h →
      (h.start ≤ s.blk.time.beat + 2 → s.blk.time.beat < h.stop →
        exec .heavyPhaseRaise s = nextOf s (fun w =>
          forAll ((maskQuads h.quads).filter (fun q => quadGet (start s) q 0xA0 != 2 && !(quadRun (start s) q).heavy)) (fun q w =>
            raiseVolt q (modQuad q (fun r => { r with heavy := true }) w)) w)) ∧
      (h.stop < s.blk.time.beat →
        exec .heavyPhaseEnd s = nextOf s (fun w => { loseHeavy w with pow.hint := none })))

/-! ## Checking -/

/-- Checking (15 R379, R390 to R402): a Garnet slice that outlasts its window makes its quad suspect; at the end of a diagnostic
cycle coverage is there where every checker was exercised on every quad, and otherwise each one that was not is named by "diagnostic
starved" and the cycle counted; a test step on an idle quad that passes is marked and one that fails makes the quad suspect; the guard
path's mismatch is counted, raised, and retracts each guard stream from its earliest unsettled result on; a comparison inside its
margins clears the count, one outside is counted, and the fault follows after so many in a row; the remedies of a suspect quad follow
in order; a retest restores or removes it; the watchdog's pulse is driven where pair 0 has reported, and counted as missed elsewhere. -/
def Obligations.CheckCommands : Prop :=
  ∀ (s : State) (q item t beats prog sq latest i : Nat) (bins missed : List Nat) (rest : List (Nat × Nat × Nat × List Nat)),
    (q < 64 → q < quadCount s.blk.fuses →
      ((sliceOf (start s) (960 + q)).live = true → (sliceOf (start s) (960 + q)).doneAt = none →
        (sliceOf (start s) (960 + q)).stopped = none → (sliceOf (start s) (960 + q)).rel + 64 ≤ s.blk.time.beat →
        exec (.garnetWindowExpire q) s = nextOf s (fun w =>
          makeSuspect q (raise 0x010 q (((sliceOf (start s) (960 + q)).rel - q) / 64 % 16) (quadAdd q 0xA3 1 w)))) ∧
      (let a := (atTime t (workOf s)).toBlk;
        item < 29 → t < 2 ^ 64 → guardRuns a = true → resetting a = false → quadGet a q 0xA0 = 0 → (quadRun a q).gated = false →
        quadBusy a q = false → stealing a q = false →
        (∀ r n, nextRelease a q = some (r, n) → moment t (workOf s) + 64000 / max 1 (clockOf a q) ≤ 2000 * r) →
        exec (.testStep q item t true) s = nextOf s (fun w => modQuad q (fun r => { r with tested := testMark item r.tested }) (atTime t w)) ∧
        exec (.testStep q item t false) s = nextOf s (fun w =>
          makeSuspect q (raise 0x014 (testSource q item).2 (testSource q item).1 (atTime t w)))) ∧
      (quadGet (start s) q 0xA0 = 1 → resetting (start s) = false →
        let used := quadGet (start s) q 0xA8
        ((quadRun (start s) q).remedy = 1 →
          (used.testBit 0 = false → quadGet (start s) q 0x92 + 25 ≤ 825 →
            exec (.suspectRemedy q) s = nextOf s (fun w =>
              raiseVolt q (modQuad q (fun r => { r with raised := true, remedy := 3 }) (quadPut q 0xA8 (Nat.lor used 1) w)))) ∧
          (used.testBit 0 = true ∨ 825 < quadGet (start s) q 0x92 + 25 → used.testBit 1 = false → 500 < clockOf (start s) q →
            exec (.suspectRemedy q) s = nextOf s (fun w =>
              askRecompute 2 (modQuad q (fun r => { r with remedy := 2 }) (quadPut q 0xA8 (Nat.lor used 2) w)))) ∧
          (used.testBit 0 = true ∨ 825 < quadGet (start s) q 0x92 + 25 → used.testBit 1 = true ∨ clockOf (start s) q ≤ 500 →
            exec (.suspectRemedy q) s = nextOf s (loseQuad q 0x010))) ∧
        ((quadRun (start s) q).remedy = 3 → clockOf (start s) q ≤ (quadRun (start s) q).cap → pairRuns (start s) 0 = true →
          beats ≤ 40 →
          exec (.retest q beats true) s = nextOf s (quadRestored q beats) ∧
          exec (.retest q beats false) s = nextOf s (loseQuad q 0x010)))) ∧
    (s.blk.safe.cycles < s.blk.time.beat / 8192 → s.blk.safe.checkedAt.isSome = true → guardRuns (start s) = true →
      missed.all (fun m => decide (m < 512)) = true →
      let finish := fun (w : Work) => { w with quads := tabMap QuadRun.idle (fun _ r => { r with tested := [] }) w.quads }
      let begun := fun (w : Work) => { w with safe.cycles := s.blk.time.beat / 8192 }
      let lacks := (List.range (quadCount s.blk.fuses)).flatMap (fun q => (untested (begun (workOf s)).toBlk q).map (fun i => (testSource q i).1))
      let starved := (lacks ++ missed ++ []).eraseDups
      (starved = [] → exec (.diagnosticCycleEnd [] missed) s = nextOf s (fun w => finish (odPut 0x2300 3 1 (begun w)))) ∧
      (starved ≠ [] → exec (.diagnosticCycleEnd [] missed) s = nextOf s (fun w =>
        finish (odPut 0x2300 3 0 (odAdd 0x2300 4 1 (forAll starved (fun s w => raise 0x015 0 s w) (begun w))))))) ∧
    (prog < 2 → guardRuns (start s) = true →
      exec (.guardPathMismatch prog) s = nextOf s (fun w =>
        let w := raise 0x080 prog (w.time.beat % 2 ^ 32) (odAdd 0x2320 0xA 1 w)
        let clean := w.res.guardClean
        forAll (List.range 64) (fun o w =>
          if odGet w.toBlk (0x6000 + o) 4 = 0 ∧ odGet w.toBlk (0x6000 + o) 3 = 0 then
            match (outOf w.toBlk o).unsettled.find? (fun u => decide (clean ≤ u.beat)) with
            | some u => retractFrom o u.seq w
            | none => w
          else w) { w with guard.mismatch := true })) ∧
    (s.blk.guard.compare = (i, sq, latest, bins) :: rest → pairRuns (start s) 0 = true →
      let fit := s.blk.guard.outs.filter (fun o => decide (o.time ≤ latest) && decide (latest ≤ o.time + odGet (start s) 0x2330 8))
      (fit = [] ∨ bins = [] →
        exec .plausibilityCompare s = nextOf s (fun w => odAdd 0x2330 0xB 1 { w with guard.compare := rest })) ∧
      (∀ (o : GuardOut) (os : List GuardOut), fit = o :: os → bins ≠ [] →
        let g := os.foldl (fun m x => if m.time < x.time then x else m) o
        let ps := (List.zip bins g.bins).filter (fun p => p.2 != 20000)
        let bad := (ps.filter (fun p => decide (p.2 + plausMargin (start s) p.2 < p.1))).length
        let low := (ps.filter (fun p => decide (p.1 + plausMargin (start s) p.2 < p.2))).length
        let seen := fun (w : Work) =>
          { odAdd 0x2330 0xC low (odAdd 0x2330 9 1 { w with guard.compare := rest }) with cores.compareDue := false }
        (bad < odGet (start s) 0x2330 6 →
          exec .plausibilityCompare s = nextOf s (fun w => { seen w with guard.bad := 0 })) ∧
        (odGet (start s) 0x2330 6 ≤ bad → exec .plausibilityCompare s = nextOf s (fun w =>
          let w := odAdd 0x2330 0xA 1 (seen w)
          let w := { w with guard.badSeq := if w.guard.bad = 0 then sq else w.guard.badSeq, guard.bad := w.guard.bad + 1 }
          if odGet (start s) 0x2330 7 ≤ w.guard.bad then plausFault (odGet (start s) 0x2330 2) sq w else w)))) ∧
    (guardRuns (start s) = true → s.blk.time.beat % max 1 (odGet (start s) 0x2300 9) = 0 → s.blk.safe.wdgFrom < s.blk.time.beat →
      let good := s.blk.safe.wdgJoined && s.blk.safe.wdgBeat && odGet (start s) 0x2510 1 == 1
      let next := fun (w : Work) =>
        { w with safe.wdgFrom := s.blk.time.beat, safe.wdgJoined := odGet (start s) 0x2510 1 == 1, safe.wdgBeat := false }
      (good = true → exec .extWdgPulse s = nextOf s (fun w => { next w with safe.wdgUntil := some (s.blk.time.beat + 5) })) ∧
      (good = false → exec .extWdgPulse s = nextOf s (fun w => odAdd 0x2300 0xA 1 (next w))))

/-! ## Faults and the compute-part reset -/

/-- Faults (16 R408, R413, R416, R417): a listed message of version 1 is collected, or applied as lost and not classified where the queue is
full, with what other chapters tie to it; one of a reserved kind, version or source is only counted as lost; an engine that does not acknowledge a
stop and a slot without progress are raised and stopped hard. -/
def Obligations.FaultCommands : Prop :=
  ∀ (s : State) (msg master access e n units k : Nat), msg < 2 ^ 64 → master < 2 ^ 16 → access < 2 ^ 64 → e < 256 → n < 1024 →
    (fld msg 50 47 < 7 → fld msg 63 60 = 1 → faultListed (fld msg 59 51) = true →
      exec (.faultMessage msg master access false) s = nextOf s (fun w =>
        faultReact (fld msg 59 51) (fld msg 44 32) (fld msg 31 0) master access
          (wouldLast (start s) (fld msg 59 51) (fld msg 44 32)) (collect msg master access w)) ∧
      exec (.faultMessage msg master access true) s = nextOf s (fun w =>
        faultReact (fld msg 59 51) (fld msg 44 32) (fld msg 31 0) master access
          false (collectLost msg w))) ∧
    (fld msg 50 47 = 7 → fld msg 63 60 = 1 → faultListed (fld msg 59 51) = true →
      exec (.faultMessage msg master access false) s = nextOf s (collect msg master access) ∧
      exec (.faultMessage msg master access true) s = nextOf s (collectLost msg)) ∧
    (7 < fld msg 50 47 ∨ fld msg 63 60 ≠ 1 ∨ faultListed (fld msg 59 51) = false → ∀ full : Bool,
      exec (.faultMessage msg master access full) s = nextOf s (odAdd 0x2400 5 1)) ∧
    (units < 2 ^ 32 → e < engineCount s.blk.fuses → (sliceOf (start s) n).unacked.contains e = true →
      (sliceOf (start s) n).stopped.getD (sliceOf (start s) n).rel < s.blk.time.beat →
      exec (.stopAckTimeout e n units) s = nextOf s (fun w =>
        let x := sliceOf (start s) n
        raise 0x01D e units (odAdd 0x2420 5 1 (doIf (x.stopped.isNone && x.live) (stopSlice n true)
          (modSlice n (fun x => { x with unacked := x.unacked.filter (· != e) }) w))))) ∧
    (e < engineCount s.blk.fuses → slotIx (start s) e n = some k →
      (slotOf (engineOf (start s) e) k).progress + odGet (start s) 0x2420 1 ≤ s.blk.time.beat →
      exec (.progressStalled e n) s = nextOf s (fun w =>
        let es := (ctxEngines (odAdd 0x2420 4 1 w).toBlk n).map (·.1)
        modSlice n (fun x => { x with unacked := es }) (stopSlice n true (raise 0x01C e n (odAdd 0x2420 4 1 w)))))
/-- The compute-part reset (16 R420 to R423): step 1 withholds the slices in flight and what is held, asks them to stop, begins the
reset and suspends ingest; the dump is taken, and where pair 0 does not run the reset is asserted at once; step 3 clears the compute
part; step 4 releases it, with its synchronisation objects as loaded, and its tests restore, lose or suspect the quads; step 5 resumes
with the admitted contexts' next releases, clears the latches of severity RESET and counts the reset. -/
def Obligations.ComputeResetCommands : Prop :=
  ∀ (s : State) (msg t beats taken : Nat) (lost : List Nat) (fails : List (Nat × Nat)),
    (s.blk.coll.resetBy = some msg → resetting (start s) = false → (s.blk.dev.state = .config ∨ activeState (start s) = true) →
      exec .computeResetBegin s = nextOf s (fun w =>
        let now := w.time.beat
        let live := (w.slices.filter (fun p => p.2.live && p.2.doneAt.isNone && p.2.stopped.isNone)).map (·.1)
        let w := forAll live (fun n w =>
          modSlice n (fun x => { x with withheld := true, open_ := [], stopped := some now, unacked := [] }) (withholdDue n w))
          { w with coll.resetBy := none }
        let w := { w with res.outs := tabMap OutStream.idle (fun _ o => { o with due := o.due.map (fun d : Due => { d with withheld := true }) }) w.res.outs }
        let w := { w with rst := { w.rst with begun := now :: w.rst.begun.take 31, asserted := none, released := none, tested := none } }
        let w := forAll (List.range 32) inSuspend (odPut 0x2430 7 now (odPut 0x2430 6 msg (odPut 0x2430 3 1 w)))
        let jobs := if odGet w.toBlk 0x2700 4 = 2 then memberJobs w.toBlk else []
        { w with dev.steps := [], casc.abortOut := jobs.foldl (fun m k => setBit m k true) w.casc.abortOut })) ∧
    (odGet (start s) 0x2430 3 = 1 → odGet (start s) 0x2430 7 + 1 ≤ s.blk.time.beat →
      let dumped := fun (w : Work) =>
        let w' := { w with free := w.free + 4 * engineCount w.fuses }
        let items := dumpItems w' w.free
        let d := dumpArea (odGet (start s) 0x2430 6) (odGet (start s) 0x2430 7 + 1)
          (if pairRuns (start s) 0 then items.length else taken) lost items
        odPut 0x2430 3 2 (odPut 0x2450 4 d.1 (odPut 0x2450 3 items.length (odPut 0x2450 2 1 (odPut 0x2450 5 (leNat d.2) w'))))
      (pairRuns (start s) 0 = true → exec (.computeResetDump taken lost) s = nextOf s dumped) ∧
      (pairRuns (start s) 0 = false → exec (.computeResetDump taken lost) s = nextOf s (fun w => resetAssert (dumped w)))) ∧
    (odGet (start s) 0x2430 3 = 2 → odGet (start s) 0x2430 7 + 1 ≤ s.blk.time.beat →
      exec .computeResetAssert s = nextOf s (fun w =>
        let w := clearCompute w
        { odPut 0x2430 3 3 w with rst := { w.rst with asserted := some w.time.beat } })) ∧
    (s.blk.rst.asserted = some t → odGet (start s) 0x2430 3 = 3 → t + 25 ≤ s.blk.time.beat → pairRuns (start s) 0 = true →
      s.blk.pow.unlocked.any (fun p => decide (p < 2 * dies s.blk.fuses)) = false → beats ≤ 40 →
      fails.all (fun f => decide (f.1 < 64) && decide (f.2 < 2 ^ 32)) = true →
      exec (.computeResetRelease fails beats) s = nextOf s (fun w =>
        let now := w.time.beat
        let was := (List.range (quadCount w.fuses)).filter (fun q => quadGet w.toBlk q 0xA0 == 1)
        let w := odPut 0x2430 3 4 (syncsInit w)
        let w := { w with rst := { w.rst with released := some now, tested := some (now + beats + 1) } }
        let w := forAll was (fun q w => if fails.any (fun p => p.1 == q) then loseQuad q 0x010 w else quadRestored q 0 w) w
        forAll (fails.filter (fun p => !was.contains p.1 && decide (p.1 < quadCount w.fuses) && !quadRemoved w.toBlk p.1)) (fun p w =>
          makeSuspect p.1 (quadAdd p.1 0xA3 1 (raise 0x010 p.1 p.2 w))) w)) ∧
    (s.blk.rst.tested = some t → odGet (start s) 0x2430 3 = 4 → t ≤ s.blk.time.beat → pairRuns (start s) 0 = true →
      exec .resumption s = nextOf s (fun w =>
        let now := w.time.beat
        let w := { w with coll.latches := w.coll.latches.filter (fun p => p.2 != 4) }
        let w := odAdd 0x2430 4 1 (odPut 0x2430 8 now (odPut 0x2430 3 0 w))
        let w := { w with rst := { w.rst with asserted := none, released := none, tested := none } }
        forAll ((admitted w.toBlk).filter (· != 0)) (fun n w =>
          let named := decide (ctxGet w.toBlk n 7 < 1024)
          modCtx n (fun c => { c with firstAt := max c.firstAt now, needPred := if named then some now else none }) w) w))

/-! ## The cascade -/

/-- Training (17 R435, R436): a TRAIN flit shows the peer; with every peer seen and good the master names the formation boundary
to every port, and a member takes the boundary it is told; a peer that the master's check refuses fails the training; at the boundary
the cascade is formed on the master's count; training that does not end in 20,000 beats fails. -/
def Obligations.TrainingCommands : Prop :=
  ∀ (s : State) (p straps serial low high delay own master t step : Nat), s.blk.dev.state = .config →
    (Instr.wf (.trainFlit p straps serial low high delay) = true → s.blk.casc.trainFrom.isSome = true → connected (start s) p = true →
      exec (.trainFlit p straps serial low high delay) s = nextOf s (fun w =>
        odPut (0x2710 + p) 1 (straps % 4) (odPut (0x2710 + p) 3 delay
          (modPort p (fun c => { c with peer := some { straps, serial, low, high, delay } }) w)))) ∧
    (own < 2 ^ 64 → master < 2 ^ 64 → s.blk.casc.trainFrom.isSome = true → s.blk.time.beat + 16 ≤ own →
      (∀ p < 3, connected (start s) p = true → (portOf (start s) p).peer.isSome = true ∧ peerGood (start s) p = true) →
      (casMe (start s) = 0 → exec (.form own master) s = nextOf s (fun w =>
        forAll ((List.range 3).filter (connected w.toBlk)) (fun p w => send (.form p own) w) { w with casc.formAt := some (own, own) })) ∧
      (casMe (start s) ≠ 0 → exec (.form own master) s = nextOf s (fun w => { w with casc.formAt := some (own, master) }))) ∧
    (own < 2 ^ 64 → master < 2 ^ 64 → s.blk.casc.trainFrom.isSome = true → s.blk.time.beat + 16 ≤ own → casMe (start s) = 0 →
      (∀ p < 3, connected (start s) p = true → (portOf (start s) p).peer.isSome = true) →
      ((List.range 3).filter (connected (start s))).find? (fun p => !peerGood (start s) p) = some p →
      exec (.form own master) s = nextOf s (trainFail p 3)) ∧
    (s.blk.casc.formAt = some (own, master) → own ≤ s.blk.time.beat →
      Completes .formation s (fun u => odGet u.blk 0x2700 4 = 2 ∧ odGet u.blk 0x2700 5 = 1 ∧ u.blk.casc.formAt = none ∧
        u.blk.casc.trainFrom = none ∧ (casMe (start s) ≠ 0 → u.blk.time.beat = master + (s.blk.time.beat - own)) ∧
        (casMe (start s) = 0 → u.blk.time = s.blk.time) ∧ u.mem = s.mem)) ∧
    (1 ≤ step → step ≤ 4 → s.blk.casc.trainFrom = some t → t + 20000 ≤ s.blk.time.beat →
      exec (.trainingTimeout step) s = nextOf s (fun w =>
        let ps := (List.range 3).filter (connected w.toBlk)
        trainFail (((ps.find? (fun p => (portOf w.toBlk p).peer.isNone)).orElse (fun _ => ps.head?)).getD 0) step w))
/-- Flits (17 R438 to R441, R446): a control flit of the right beat is heard and its fields are taken, the master's with its map,
its request and its schedule; one of the master with another beat is raised, and the master is left; one whose CRC is wrong is counted, and
one of another version or of a lost partner ignored. A numbered flit in order is acknowledged: a management flit, with which the master may
learn that a member has left ADAPT by itself and commits CONFIG, and a record's flit, whose last one brings the record; one out of
order is dropped, a bad one counted. Flits that are sent again are counted and raised. -/
def Obligations.FlitCommands : Prop :=
  ∀ (s : State) (p seq ack stream flags index n : Nat) (m payload : List Byte) (f : MgmtFlit), p < 3 → formed (start s) = true →
    connected (start s) p = true →
    (ack < 2 ^ 16 → m.length = 256 →
      exec (.controlFlitReceived p ack m false) s = nextOf s (odAdd (0x2710 + p) 6 1) ∧
      (leAt m 0 1 ≠ 1 → exec (.controlFlitReceived p ack m true) s = nextOf s id) ∧
      (leAt m 0 1 = 1 → (partnerAt (start s) (peerOf (start s) p)).lost = true →
        exec (.controlFlitReceived p ack m true) s = nextOf s id) ∧
      (leAt m 0 1 = 1 → (partnerAt (start s) (peerOf (start s) p)).lost = false →
        let j := peerOf (start s) p
        let taken := fun w =>
          let b := leAt m 16 8
          let fl := leAt m 3 1
          let w := modPartner j (fun x => { x with heard := w.time.beat, state := leAt m 2 1, flags := fl, lostMask := leAt m 12 1,
                                                   leave := if bit fl 1 then some 2 else x.leave }) (ackTake p ack w)
          let jobs := (List.range 32).filter ((leAt m 4 4).testBit ·)
          let w := odAdd 0x2700 0xB jobs.length { w with casc.aborts := w.casc.aborts ++ jobs.map (fun k => (k, b + 2)) }
          heldTake j (bit fl 0) b (stretchTake j (if bit fl 2 then leAt m 8 4 else 0) b w)
        (j ≠ 0 → exec (.controlFlitReceived p ack m true) s = nextOf s taken) ∧
        (j = 0 → leAt m 16 8 = (taken (workOf s)).time.beat → exec (.controlFlitReceived p ack m true) s = nextOf s (fun w =>
          masterFields m (taken w))) ∧
        (j = 0 → leAt m 16 8 ≠ (taken (workOf s)).time.beat → exec (.controlFlitReceived p ack m true) s = nextOf s (fun w =>
          let w := taken w
          let diff := (max (leAt m 16 8) w.time.beat - min (leAt m 16 8) w.time.beat) % 2 ^ 32
          modPartner 0 (fun x => { x with leave := some 3 }) (raise 0x0F6 0 diff w))))) ∧
    ((partnerAt (start s) (peerOf (start s) p)).lost = false → seq < 2 ^ 16 → ack < 2 ^ 16 →
      let next := ((portOf (start s) p).ack + 1) % 65536
      let taken := fun w => ackTake p ack (modPort p (fun c => { c with ack := seq }) w)
      (f.good = false → exec (.managementFlit p seq ack f) s = nextOf s (odAdd (0x2710 + p) 6 1)) ∧
      (f.good = true → seq ≠ next → exec (.managementFlit p seq ack f) s = nextOf s id) ∧
      (f.good = true → seq = next →
        (f.leftAdapt = false ∨ casMe (taken (workOf s)).toBlk ≠ 0 → exec (.managementFlit p seq ack f) s = nextOf s taken) ∧
        (f.leftAdapt = true → casMe (taken (workOf s)).toBlk = 0 → exec (.managementFlit p seq ack f) s = nextOf s (fun w =>
          { taken w with links.effects := (taken w).links.effects ++ [.request 2] }))) ∧
      (stream < 64 → flags < 256 → index < 2 ^ 16 → payload.length = 256 →
        exec (.recordFlit p seq ack stream flags index payload false) s = nextOf s (odAdd (0x2710 + p) 6 1) ∧
        (seq ≠ next → exec (.recordFlit p seq ack stream flags index payload true) s = nextOf s id) ∧
        (seq = next →
          let kept := if bit flags 0 then [] else tabGet [] (portOf (taken (workOf s)).toBlk p).asm stream
          let bs := if kept.length = 256 * index then kept ++ payload else []
          let into := fun l w => modPort p (fun c => { c with asm := tabSet [] c.asm stream l }) (taken w)
          (bit flags 1 = false → exec (.recordFlit p seq ack stream flags index payload true) s = nextOf s (into bs)) ∧
          (bit flags 1 = true → exec (.recordFlit p seq ack stream flags index payload true) s = nextOf s (fun w =>
            recordArrives (peerOf (into [] w).toBlk p) (recordCut bs) (into [] w)))))) ∧
    (n ≤ 8 → exec (.flitResend p n) s = nextOf s (fun w =>
      let c := portOf w.toBlk p
      let fs := c.sent.take (min 8 n)
      forAll (fs.mapIdx (fun i f => (i, f))) (fun x w =>
        let f := x.2
        let w := send (.flit p (1 + x.1) f.kind (flitBytes f.kind f.seq c.ack f.stream (Nat.lor f.flags 4) f.index f.bytes)) w
        raise 0x0F2 p fs.length (odAdd (0x2710 + p) 5 1 (odAdd (0x2710 + p) 4 1 w))) w))
/-- The formed cascade (17 R441, R445 to R450): a joint change takes effect at its boundary, with the master's commit answered; one
boundary before it the master refuses the request unless every member that it has not lost is ready; at the arrival boundary of a
collective its set is laid out, once: the headers, the parts that came a boundary before, the sum of a reduction whose parts are whole, the count and
the signal; the aborts that are due end their slices; STRETCH is set and cleared; a member that has not been heard for four beats, or
has to leave, is lost; the master expels a member of a pair that has lost each other. -/
def Obligations.CascadeCommands : Prop :=
  ∀ (s : State) (k j code at_ : Nat) (outs : List (Nat × Nat)) (mine : Bool), formed (start s) = true →
    (s.blk.casc.request = some (code, at_, mine) →
      let ended := fun (w : Work) => { w with casc.request := none }
      (at_ ≤ s.blk.time.beat → exec .jointStateChange s = nextOf s (fun w => requestState code (jointAnswer 0 (ended w)))) ∧
      (casMe (start s) = 0 → at_ = s.blk.time.beat + 1 →
        let ready := fun (p : Nat) => connected (start s) p = false ∨ (partnerAt (start s) (peerOf (start s) p)).lost = true ∨
          (partnerAt (start s) (peerOf (start s) p)).flags.testBit 3 = true
        ((∀ p < 3, ready p) → allows (start s) code = true → exec .jointStateChange s = nextOf s id) ∧
        ((∃ p < 3, ¬ ready p) ∨ allows (start s) code = false →
          exec .jointStateChange s = nextOf s (fun w => jointAnswer 0x08000022 (ended w))))) ∧
    (k < 32 → Instr.wf (.arrivalSetComplete k outs) = true → activeState (start s) = true → collReceives (start s) k = true →
      let b := start s
      let now := s.blk.time.beat
      let cons := collGet b k 6
      let per := max 1 (ctxGet b cons 3)
      let red := collGet b k 2 == 2
      let lag := if red then 3 else 2
      let close := now - lag
      cons < 1024 → ctxGet b cons 0x0B = 2 → now % per = ctxGet b cons 0x0F % per → lag ≤ now →
      s.blk.casc.done.contains (k, close) = false →
      exec (.arrivalSetComplete k outs) s = nextOf s (fun w =>
        let outOf_ := fun (j : Nat) => ((outs.find? (fun o => o.1 == j)).map (·.2)).getD (collGet b k 5)
        let parts := (collParts b k).map (fun j => (j, partAt b j (outOf_ j) close now))
        let part := 64 + parts.foldl (fun m p => max m (partBytes b k p.2)) 0
        let pay := if collGet b k 5 < 64 then odGet b (0x6000 + collGet b k 5) 7 else 0
        let size := if red then ceilDiv (64 * parts.length + pay) 64 * 64 else part * parts.length
        let base := collGet b k 7 + (close / per % max 1 (collGet b k 9)) * size
        let f := w.free
        let w := (parts.mapIdx (fun i p => (i, p))).foldl (fun w x =>
          let j := x.2.1
          let a := base + x.1 * (if red then 64 else part)
          let w := put a (arrivalHead j (outOf_ j) close (f + 3 * x.1) x.2.2) w
          match x.2.2 with
          | none => missingPart k j (outOf_ j) close w
          | some r => if red then w else put (a + 64) ((r.body ++ List.replicate 65536 0).take (ceilDiv r.body.length 64 * 64)) w)
          { w with free := f + 3 * parts.length }
        let whole := parts.all (fun p => match p.2 with | some r => r.kind == 1 | none => false)
        let w := doIf (red && whole) (put (base + 64 * parts.length)
          ((reduceSum (parts.filterMap (fun p => p.2.map partWords))).flatMap (leBytes 4))) w
        let w := odAdd (0x2720 + k) 0xA 1 { w with casc.done := ((k, close) :: w.casc.done).take 64 }
        if collGet b k 8 = none16 then w else signalSync 0 (collGet b k 8 % 8192) 1 w)) ∧
    exec .jobAbort s = nextOf s (fun w =>
      let due := (s.blk.casc.aborts.filter (fun a => decide (a.2 ≤ s.blk.time.beat))).map (·.1)
      let w := { w with casc.aborts := s.blk.casc.aborts.filter (fun a => decide (s.blk.time.beat < a.2)) }
      forAll ((due.flatMap (jobCtxs w.toBlk)).eraseDups) abortCtx w) ∧
    exec (.jobStretch false) s = nextOf s (fun w => { w with casc.stretchOut := 0 }) ∧
    ((List.range (quadCount s.blk.fuses)).any (fun q => carriesJob (start s) q && clockOf (start s) q != wantClock (start s) q) = true →
      exec (.jobStretch true) s = nextOf s (fun w => { w with casc.stretchOut := stretchJobs (start s) })) ∧
    (j < 4 → j ≠ casMe (start s) → j < casSize (start s) → (partnerAt (start s) j).lost = false →
      (partnerAt (start s) j).leave.isSome = true ∨ (partnerAt (start s) j).heard + 4 ≤ s.blk.time.beat →
      exec (.partnerLost j) s = nextOf s (fun w =>
        let detail := (partnerAt (start s) j).leave.getD 0
        let w := modPartner j (fun x => { x with lost := true, leave := none }) w
        let w := odPut 0x2700 9 (Nat.lor (odGet w.toBlk 0x2700 9) (2 ^ j)) (odPut (0x2710 + portTo w.toBlk j) 2 3 w)
        if j = 0 then loseMaster detail w else loseMember j detail w)) ∧
    (casMe (start s) = 0 →
      exec .memberExpel s = nextOf s (fun w =>
        let hears := fun (j : Nat) => !(partnerAt w.toBlk j).lost && decide (w.time.beat < (partnerAt w.toBlk j).heard + 4)
        forAll [(1, 2), (1, 3), (2, 3)] (fun x w =>
          if x.2 < casSize w.toBlk && hears x.1 && hears x.2 && (partnerAt w.toBlk x.1).lostMask.testBit x.2 &&
              (partnerAt w.toBlk x.2).lostMask.testBit x.1 && !w.casc.expel.testBit x.2 then
            modPartner x.2 (fun y => { y with leave := some (y.leave.getD 1) }) { w with casc.expel := setBit w.casc.expel x.2 true }
          else w) w))

/-! ## The test access port -/

/-- The test access port (18 R463, R464, R468): Test-Logic-Reset and BYPASS select the bypass register, SAMPLE captures the 88 cells without
driving, PRELOAD loads them, EXTEST, which only PORST_N with REFCLK running allows, drives and captures them, and at any other time is
BYPASS. -/
def Obligations.TestPortCommands : Prop :=
  ∀ (s : State) (x : Nat), x < 2 ^ 88 →
    exec .jtagTestLogicReset s = nextOf s (fun w => { w with tap.ir := 0, tap.bypass := false }) ∧
    exec .jtagBypass s = nextOf s (fun w => { w with tap.ir := 0, tap.bypass := false }) ∧
    exec (.jtagSample x) s = nextOf s (fun w =>
      let c := captureCells { start s with tap.ir := 1 } x
      { w with tap.ir := 1, tap.captured := c, out := [.jtag c] }) ∧
    exec (.jtagPreload x) s = nextOf s (fun w => { w with tap.ir := 2, tap.cells := x }) ∧
    (s.blk.dev.state = .porst → s.blk.dev.noRefclk = false →
      exec (.jtagExtest x) s = nextOf s (fun w =>
        let c := captureCells { start s with tap.ir := 3 } x
        { w with tap.ir := 3, tap.captured := c, out := [.jtag c] })) ∧
    (s.blk.dev.state ≠ .porst ∨ s.blk.dev.noRefclk = true → exec (.jtagExtest x) s = exec .jtagBypass s)

/-! ## The block as a whole -/

/-- A step executes the command at the front of the queue on the state with the queue's rest. -/
def Obligations.StepRunsFront : Prop :=
  ∀ (s : State) (c : Instr) (rest : List Instr), step { s with pending := c :: rest } = exec c { s with pending := rest }
/-- The model's own conventions (log 16): with no command waiting the block idles, and no word spells a command, since no row
of the table has bits. -/
def Obligations.IdleAndWords : Prop :=
  ∀ (s : State) (nbits w : Nat), (s.pending = [] → step s = .next s) ∧ decodeTableWord nbits w = none ∧
    s.withFetchWord nbits w = s
/-- What becomes of a command: operands outside their encodings are refused, a unit that the grade does not have is a fault,
and every other command, in every state, answers a next state with the queue as it was. -/
def Obligations.CommandOutcome : Prop :=
  ∀ (c : Instr) (s : State),
    (Instr.wf c = false → exec c s = .refused .malformed) ∧
    (Instr.wf c = true → unitThere c s = false → exec c s = .fault .absentUnit) ∧
    (Accepted c s → ∃ f : Work → Work, exec c s = nextOf s f ∧ Completes c s (fun _ => True))
/-- Every step keeps the canonical form of the addressed stores. -/
def Obligations.MemoryStaysCanonical : Prop :=
  ∀ s t : State, Inv s → step s = .next t → Inv t
/-- Reset memory is in its canonical form. -/
def Obligations.ResetMeetsInvariant : Prop := Inv State.reset ∧ State.reset.pending = []
/-- The block at power-up: held in PORST_N, device time and beat counter 0, nothing stored, nothing admitted, no engine, slice
or latch in use, every object of the device state at the default of 01 R19. -/
def Obligations.ResetValues : Prop :=
  State.reset.blk.dev.state = .porst ∧ State.reset.blk.time.beat = 0 ∧ State.reset.blk.time.ns = 0 ∧ State.reset.mem = [] ∧
  State.reset.blk.slices = [] ∧ State.reset.blk.engines = [] ∧ State.reset.blk.ctxs = [] ∧ State.reset.blk.coll.latches = [] ∧
  State.reset.blk.od = [] ∧ State.reset.blk.dev.prev = 0 ∧ State.reset.blk.dev.cause = 1 ∧
  odGet (start State.reset) 0x2000 2 = 2 ∧ odGet (start State.reset) 0x2003 1 = 0 ∧ faultLow (start State.reset) = false
/-- The commands of the device state change it only from and to the states of the table of 01 R21, with the exit of 01 R24
from SQUALL to CONFIG; PORST_N is held, or REFCLK stops, from any state. -/
def Obligations.StateTransitions : Prop :=
  ∀ (c : Instr) (s t : State) (node casc : Nat) (intact : Bool),
    c ∈ [.porstNRelease node casc, .porstNAssert, .lullReady, .wake, .refclkStop, .warmRstNAssert, .warmRstNRelease,
         .retainedFirmwareCheck intact, .firmwareStart, .requestConfig, .requestRun, .requestAdapt, .requestLull,
         .drainComplete, .stationaryLost, .squallEntry, .squallExit, .escalation] →
    exec c s = .next t → t.blk.dev.state ≠ s.blk.dev.state →
    (s.blk.dev.state, t.blk.dev.state) ∈ [(.porst, .lull), (.lull, .boot), (.boot, .config), (.config, .run), (.run, .config),
      (.config, .adapt), (.adapt, .config), (.config, .lull), (.run, .squall), (.squall, .run), (.squall, .config)] ∨
    (t.blk.dev.state = .safe ∧ s.blk.dev.state ≠ .lull ∧ c = .escalation) ∨
    (t.blk.dev.state = .boot ∧ s.blk.dev.state ≠ .safe ∧ c = .warmRstNAssert) ∨
    (t.blk.dev.state = .porst ∧ (c = .porstNAssert ∨ c = .refclkStop))
/-- A command reads, under its own stores, the bytes that the next command reads in memory. -/
def Obligations.CommandReadsItsStores : Prop :=
  ∀ (s : State) (w : Work) (a k : Nat), w.mem = s.mem → rd w a k = rd (workOf (commitWork s w)) a k
/-- A MEM_WRITE that is allowed stores its bytes at its address; every other byte of every store reads as before, and so do the
block's slices, contexts and time. -/
def Obligations.HostWriteStores : Prop :=
  ∀ (s : State) (hd : Hdr) (p m : List Byte), FrameServed hd 0x32 p m s → 8 ≤ m.length →
    memStatus (served hd 0x32 (workOf s)).toBlk (leAt m 0 8) (m.length - 8) hostWriteOk = 0 →
    Completes (.memWrite hd p) s (fun t =>
      (∀ x, memByte t.mem x = if leAt m 0 8 ≤ x ∧ x < leAt m 0 8 + (m.length - 8) then nth memDefault (m.drop 8) (x - leAt m 0 8)
        else memByte s.mem x) ∧
      t.blk.slices = s.blk.slices ∧ t.blk.ctxs = s.blk.ctxs ∧ t.blk.time = s.blk.time ∧ t.blk.od = s.blk.od)

/-! ## Check bits -/

/-- The check byte (07 R176): the data bits stand at the positions 3 to 71 that are not powers of two, in ascending order; bit i
is the parity of the data bits whose position has bit i, bit 7 that of the data and the other seven. -/
def Obligations.CheckByteOfAWord : Prop :=
  bitPlaces.Pairwise (· < ·) ∧ (∀ p : Nat, p ∈ bitPlaces ↔ 3 ≤ p ∧ p ≤ 71 ∧ ∀ k, p ≠ 2 ^ k) ∧ checkByte 1 = 0x83 ∧
  ∀ x : Nat, x < 2 ^ 64 → checkByte x < 256 ∧
    (∀ i < 7, (checkByte x).testBit i =
      decide (((List.range 64).filter (fun d => (nth 0 bitPlaces d).testBit i && x.testBit d)).length % 2 = 1)) ∧
    (checkByte x).testBit 7 = decide ((((List.range 64).filter (fun d => x.testBit d)).length +
      ((List.range 7).filter (fun i => (checkByte x).testBit i)).length) % 2 = 1)
/-- What the code does (07 R177): a word read without errors is good, any one bit in error, check bits included, is corrected,
and any two bits in error are found uncorrectable. -/
def Obligations.SingleErrorsCorrected : Prop :=
  ∀ x : Nat, x < 2 ^ 64 → readWord x 0 = (x, 0) ∧ (∀ i < 72, readWord x (2 ^ i) = (x, 1)) ∧
    ∀ i j : Nat, i < 72 → j < 72 → i ≠ j → (readWord x (2 ^ i + 2 ^ j)).2 = 2

/-! ## Kinds and severities of faults -/

/-- A message of a reserved KIND is counted in MESSAGES_LOST and does nothing else, a test message is counted in its source's
entry of EVENT_COUNTS and does nothing else (16 R408). -/
def Obligations.ReservedAndTestKinds : Prop :=
  ∀ (s : State) (msg master access : Nat), msg < 2 ^ 64 → master < 2 ^ 16 → access < 2 ^ 64 →
    (7 < fld msg 50 47 → ∀ full : Bool, Completes (.faultMessage msg master access full) s (fun t =>
      t = { s with blk := { s.blk with out := [], od := t.blk.od } } ∧
      odGet t.blk 0x2400 5 = satAdd 32 (odGet s.blk 0x2400 5) 1 ∧
      ∀ i j : Nat, odKey i j ≠ odKey 0x2400 5 → odGet t.blk i j = odGet s.blk i j)) ∧
    (fld msg 50 47 = 7 → fld msg 63 60 = 1 → faultListed (fld msg 59 51) = true →
      Completes (.faultMessage msg master access false) s (fun t =>
        t = { s with blk := { s.blk with out := [], od := t.blk.od } } ∧
        (∀ x < 512, fld (odGet t.blk 0x2401 5) (32 * x + 31) (32 * x) =
          if x = fld msg 59 51 then satAdd 32 (fld (odGet s.blk 0x2401 5) (32 * x + 31) (32 * x)) 1
          else fld (odGet s.blk 0x2401 5) (32 * x + 31) (32 * x)) ∧
        ∀ i j : Nat, odKey i j ≠ odKey 0x2401 5 → odGet t.blk i j = odGet s.blk i j))
/-- What a severity does (16 R409): from LATCH on the source is latched with the severity at least, from NOTIFY on FAULT_N is
low, from STOP on SAFE_OK is held, RESET asks for the compute-part reset, ESCALATE for the escalation; COUNT does nothing, and
a latch never holds less than before (16 R414). -/
def Obligations.SeverityReactions : Prop :=
  ∀ (w : Work) (source msg sev : Nat),
    let u := applySeverity source msg sev w
    (sev = 0 → u = w) ∧
    (1 ≤ sev → tabGet 0 u.coll.latches source = max (tabGet 0 w.coll.latches source) sev) ∧
    (∀ x : Nat, x ≠ source → tabGet 0 u.coll.latches x = tabGet 0 w.coll.latches x) ∧
    (2 ≤ sev → faultLow u.toBlk = true) ∧
    (3 ≤ sev → safeCause u.toBlk ≠ 0 ∧ ∀ readback : Bool, (safeOkStep readback u).safe.high = false) ∧
    (sev = 4 → (w.dev.state = .config ∨ w.dev.state = .run ∨ w.dev.state = .adapt ∨ w.dev.state = .squall) →
      resetting w.toBlk = false → w.coll.resetBy = none → u.coll.resetBy = some msg) ∧
    (sev = 5 → w.dev.state ≠ .safe → w.dev.escalate = none → u.dev.escalate = some source)

/-! ## Straps and frames -/

/-- The CASC_ROLE straps (17 R433): read at the release of PORST_N, bits 3:2 the number of members less one, bits 1:0 the
member; a standalone member other than 0 and a member above the size are invalid: "cascade strap invalid" (0x0F0) is counted,
the device runs standalone and no port is connected. -/
def Obligations.CascadeStraps : Prop :=
  ∀ (s : State) (node casc : Nat), Instr.wf (.porstNRelease node casc) = true → s.blk.dev.state = .porst →
    ((casc / 4 = 0 ∧ casc % 4 ≠ 0) ∨ casc / 4 < casc % 4 →
      Completes (.porstNRelease node casc) s (fun t => casSize t.blk = 1 ∧ odGet t.blk 0x2700 2 = casc ∧
        (∀ p < 3, connected t.blk p = false) ∧ fld (odGet t.blk 0x2401 5) (32 * 0x0F0 + 31) (32 * 0x0F0) = 1)) ∧
    (¬ ((casc / 4 = 0 ∧ casc % 4 ≠ 0) ∨ casc / 4 < casc % 4) →
      Completes (.porstNRelease node casc) s (fun t => casSize t.blk = casc / 4 + 1 ∧ casMe t.blk = casc % 4 ∧
        odGet t.blk 0x2700 2 = casc ∧ fld (odGet t.blk 0x2401 5) (32 * 0x0F0 + 31) (32 * 0x0F0) = 0 ∧
        (casc = 0 → ∀ p < 3, connected t.blk p = false)))
/-- The commands of the time base keep memory, the engines, the slices, the contexts, the quads and the device state. -/
def Obligations.TimeCommandsFrame : Prop :=
  ∀ (c : Instr) (s t : State) (p seq at_ : Nat) (dom : Nat) (o r t1 t2 t3 t4 : Int),
    c ∈ [.gptpSync p dom seq at_, .gptpFollowUp p dom seq o r, .gptpPdelay p t1 t2 t3 t4, .gptpAnnounce p,
         .gptpSyncSend p at_, .gptpAnnounceSend p at_, .mapUpdate, .syncTimeout, .holdoverExpire] →
    exec c s = .next t →
    t.mem = s.mem ∧ t.blk.engines = s.blk.engines ∧ t.blk.slices = s.blk.slices ∧ t.blk.ctxs = s.blk.ctxs ∧
    t.blk.quads = s.blk.quads ∧ t.blk.dev.state = s.blk.dev.state ∧ t.blk.time.beat = s.blk.time.beat
/-- The test port's commands keep every part of the block but the port's own registers and the outputs; SLOT_RETURN commands
and BARRIER_RELEASE keep memory, the object dictionary, time and the device state. -/
def Obligations.PortAndSlotFrames : Prop :=
  ∀ (c : Instr) (s t : State) (x e n o : Nat), exec c s = .next t →
    (c ∈ [.jtagTestLogicReset, .jtagBypass, .jtagSample x, .jtagPreload x, .jtagExtest x] →
      t.mem = s.mem ∧ t.blk = { s.blk with tap := t.blk.tap, out := t.blk.out }) ∧
    (c ∈ [.waitReturn e n, .fenceReturn e n, .barrierRelease o] →
      t.mem = s.mem ∧ t.blk = { s.blk with engines := t.blk.engines, syncs := t.blk.syncs, out := [] })
end

