-- ==== Sys2Proof/Laws/Memory.lean ====
section
/-! SUPPORT. The addressed stores: every operation keeps the canonical form, a read finds what was stored and nothing else
changes; and a command reads its own stores as the next command will. -/

namespace Sys2Proof.Laws

open Sys2Proof.Machine

/-! ## The canonical form -/

theorem tabRising_iff {α : Type} (t : Tab α) : tabRising t = true ↔ t.Pairwise (fun p q => p.1 < q.1) := by
  induction t with
  | nil => simp [tabRising]
  | cons p r ih =>
    cases r with
    | nil => simp [tabRising]
    | cons q r =>
      obtain ⟨k, u⟩ := p
      obtain ⟨j, v⟩ := q
      simp only [tabRising, Bool.and_eq_true, decide_eq_true_eq, ih, List.pairwise_cons]
      constructor
      · rintro ⟨h, h2, h3⟩
        refine ⟨fun x hx => ?_, h2, h3⟩
        rcases List.mem_cons.mp hx with rfl | hx
        · exact h
        · exact Nat.lt_trans h (h2 x hx)
      · rintro ⟨h, h2⟩
        exact ⟨h (j, v) (by simp), h2⟩

theorem memory_wf_iff (m : List Host.Cell) :
    Memory.wf m = true ↔ m.Pairwise (fun p q => p.1 < q.1) ∧ ∀ p ∈ m, p.2 ≠ memDefault := by
  simp [tabWf, tabRising_iff]

theorem memCells_bounds (a : Nat) (bs : List Byte) : ∀ p ∈ memCells a bs, a ≤ p.1 ∧ p.1 < a + bs.length ∧ p.2 ≠ memDefault := by
  induction bs generalizing a with
  | nil => simp [memCells]
  | cons b bs ih =>
    intro p hp
    simp only [memCells] at hp
    split at hp
    · obtain ⟨h1, h2, h3⟩ := ih (a + 1) p hp
      exact ⟨by omega, by simp only [List.length_cons]; omega, h3⟩
    · rcases List.mem_cons.mp hp with rfl | hp
      · simp_all
      · obtain ⟨h1, h2, h3⟩ := ih (a + 1) p hp
        exact ⟨by omega, by simp only [List.length_cons]; omega, h3⟩

theorem memCells_rising (a : Nat) (bs : List Byte) : (memCells a bs).Pairwise (fun p q => p.1 < q.1) := by
  induction bs generalizing a with
  | nil => simp [memCells]
  | cons b bs ih =>
    simp only [memCells]
    split
    · exact ih (a + 1)
    · exact List.pairwise_cons.mpr ⟨fun p hp => by have := memCells_bounds (a + 1) bs p hp; simp only; omega, ih (a + 1)⟩

/-- A store keeps the canonical form. -/
theorem memPut_wf {m : List Host.Cell} (h : Memory.wf m = true) (a : Nat) (bs : List Byte) : Memory.wf (memPut m a bs) = true := by
  rw [memory_wf_iff] at h ⊢
  obtain ⟨h1, h2⟩ := h
  refine ⟨?_, fun p hp => ?_⟩
  · simp only [memPut, List.append_assoc, List.pairwise_append, List.mem_append, List.mem_filter, decide_eq_true_eq]
    refine ⟨h1.filter _, ⟨memCells_rising a bs, h1.filter _, fun p hp q hq => ?_⟩, fun p hp q hq => ?_⟩
    · have := memCells_bounds a bs p hp; omega
    · rcases hq with hq | hq
      · have := memCells_bounds a bs q hq; omega
      · omega
  · simp only [memPut, List.mem_append, List.mem_filter] at hp
    rcases hp with (hp | hp) | hp
    · exact h2 p hp.1
    · exact (memCells_bounds a bs p hp).2.2
    · exact h2 p hp.1

/-- The stores of a command keep the canonical form. -/
theorem memPutAll_wf {m : List Host.Cell} (h : Memory.wf m = true) (ws : List (Nat × List Byte)) :
    Memory.wf (memPutAll m ws) = true := by
  induction ws with
  | nil => exact h
  | cons x ws ih => exact memPut_wf ih x.1 x.2

/-- A command's work keeps the canonical form, whatever it stores. -/
theorem commitWork_wf {s : State} (h : Inv s) (w : Work) : Inv (commitWork s w) := memPutAll_wf h w.wr

/-- Reset memory lists nothing. -/
theorem reset_mem : State.reset.mem = [] := rfl

/-! ## Reading -/

theorem memByte_append (l r : List Host.Cell) (a : Nat) (h : ∀ p ∈ l, p.1 ≠ a) : memByte (l ++ r) a = memByte r a := by
  induction l with
  | nil => rfl
  | cons p l ih =>
    have hp : p.1 ≠ a := h p (by simp)
    simp only [memByte, tabGet, List.cons_append, tabFind, if_neg hp]
    exact ih (fun q hq => h q (by simp [hq]))

theorem memByte_none (l : List Host.Cell) (a : Nat) (h : ∀ p ∈ l, p.1 ≠ a) : memByte l a = memDefault := by
  have := memByte_append l [] a h
  rwa [List.append_nil] at this

theorem memByte_before (l r : List Host.Cell) (a : Nat) (h : ∀ p ∈ r, p.1 ≠ a) : memByte (l ++ r) a = memByte l a := by
  induction l with
  | nil => simpa [memByte, tabGet, tabFind] using memByte_none r a h
  | cons p l ih =>
    simp only [memByte, tabGet, List.cons_append, tabFind] at ih ⊢
    split
    · rfl
    · exact ih

theorem memByte_filter (m : List Host.Cell) (f : Host.Cell → Bool) (a : Nat) (h : ∀ p ∈ m, p.1 = a → f p = true) :
    memByte (m.filter f) a = memByte m a := by
  induction m with
  | nil => rfl
  | cons p m ih =>
    have ih := ih (fun q hq => h q (by simp [hq]))
    by_cases hp : p.1 = a
    · simp [h p (by simp) hp, memByte, tabGet, tabFind, hp]
    · by_cases hf : f p = true
      · simpa [List.filter_cons, hf, memByte, tabGet, tabFind, hp] using ih
      · simpa [List.filter_cons, hf, memByte, tabGet, tabFind, hp] using ih

theorem memByte_cells (a : Nat) (bs : List Byte) (i : Nat) : memByte (memCells a bs) (a + i) = nth memDefault bs i := by
  induction bs generalizing a i with
  | nil => simp [memCells, memByte, tabGet, tabFind, nth]
  | cons b bs ih =>
    cases i with
    | zero =>
      have h : memByte (memCells (a + 1) bs) a = memDefault :=
        memByte_none _ _ (fun p hp => by have := memCells_bounds (a + 1) bs p hp; omega)
      simp only [memCells, Nat.add_zero]
      split
      · next hb => simp [h, nth, hb]
      · simp [memByte, tabGet, tabFind, nth]
    | succ i =>
      have h := ih (a + 1) i
      rw [Nat.add_right_comm, Nat.add_assoc] at h
      simp only [memCells]
      split
      · simpa [nth] using h
      · have : ¬ a = a + (i + 1) := by omega
        simp only [memByte, tabGet, tabFind, if_neg this]
        simpa [nth, memByte, tabGet] using h

/-- A store is read back, and every other byte reads as before. -/
theorem memByte_memPut (m : List Host.Cell) (a : Nat) (bs : List Byte) (x : Nat) :
    memByte (memPut m a bs) x = if a ≤ x ∧ x < a + bs.length then nth memDefault bs (x - a) else memByte m x := by
  unfold memPut
  split
  · next h =>
    rw [memByte_before _ _ _ (fun p hp => by simp only [List.mem_filter, decide_eq_true_eq] at hp; omega),
      memByte_append _ _ _ (fun p hp => by simp only [List.mem_filter, decide_eq_true_eq] at hp; omega)]
    have := memByte_cells a bs (x - a)
    rwa [Nat.add_sub_cancel' h.1] at this
  · next h =>
    by_cases hx : x < a
    · rw [memByte_before _ _ _ (fun p hp => by simp only [List.mem_filter, decide_eq_true_eq] at hp; omega),
        memByte_before _ _ _ (fun p hp => by have := memCells_bounds a bs p hp; omega)]
      exact memByte_filter m _ x (fun p _ hp => by simp [hp, hx])
    · rw [memByte_append _ _ _ (fun p hp => by
        simp only [List.mem_append, List.mem_filter, decide_eq_true_eq] at hp
        rcases hp with hp | hp
        · omega
        · have := memCells_bounds a bs p hp; omega)]
      exact memByte_filter m _ x (fun p _ hp => by simp only [hp, decide_eq_true_eq]; omega)

/-- The bytes that a command's stores leave are those it read under them. -/
theorem memByte_memPutAll (m : List Host.Cell) (ws : List (Nat × List Byte)) (x : Nat) :
    memByte (memPutAll m ws) x = memLook m ws x := by
  induction ws with
  | nil => rfl
  | cons w ws ih =>
    obtain ⟨a, bs⟩ := w
    simp only [memPutAll, memLook, memByte_memPut, ih]

end Sys2Proof.Laws
end

