-- ==== Sys2Proof/Laws/State.lean ====
section
/-! SUPPORT. What each update of one kind of state leaves alone: one lemma for each field. -/

namespace Sys2Proof.Laws

open Sys2Proof.Machine

@[simp] theorem odPut_fuses (idx sub v : Nat) (w : Work) : (odPut idx sub v w).fuses = w.fuses := rfl
@[simp] theorem odPut_dev (idx sub v : Nat) (w : Work) : (odPut idx sub v w).dev = w.dev := rfl
@[simp] theorem odPut_time (idx sub v : Nat) (w : Work) : (odPut idx sub v w).time = w.time := rfl
@[simp] theorem odPut_coll (idx sub v : Nat) (w : Work) : (odPut idx sub v w).coll = w.coll := rfl
@[simp] theorem odPut_log (idx sub v : Nat) (w : Work) : (odPut idx sub v w).log = w.log := rfl
@[simp] theorem odPut_engines (idx sub v : Nat) (w : Work) : (odPut idx sub v w).engines = w.engines := rfl
@[simp] theorem odPut_tileq (idx sub v : Nat) (w : Work) : (odPut idx sub v w).tileq = w.tileq := rfl
@[simp] theorem odPut_syncs (idx sub v : Nat) (w : Work) : (odPut idx sub v w).syncs = w.syncs := rfl
@[simp] theorem odPut_images (idx sub v : Nat) (w : Work) : (odPut idx sub v w).images = w.images := rfl
@[simp] theorem odPut_slices (idx sub v : Nat) (w : Work) : (odPut idx sub v w).slices = w.slices := rfl
@[simp] theorem odPut_ctxs (idx sub v : Nat) (w : Work) : (odPut idx sub v w).ctxs = w.ctxs := rfl
@[simp] theorem odPut_quads (idx sub v : Nat) (w : Work) : (odPut idx sub v w).quads = w.quads := rfl
@[simp] theorem odPut_out (idx sub v : Nat) (w : Work) : (odPut idx sub v w).out = w.out := rfl
@[simp] theorem odPut_free (idx sub v : Nat) (w : Work) : (odPut idx sub v w).free = w.free := rfl
@[simp] theorem odPut_links (idx sub v : Nat) (w : Work) : (odPut idx sub v w).links = w.links := rfl
@[simp] theorem odPut_chans (idx sub v : Nat) (w : Work) : (odPut idx sub v w).chans = w.chans := rfl
@[simp] theorem odPut_res (idx sub v : Nat) (w : Work) : (odPut idx sub v w).res = w.res := rfl
@[simp] theorem odPut_sched (idx sub v : Nat) (w : Work) : (odPut idx sub v w).sched = w.sched := rfl
@[simp] theorem odPut_pow (idx sub v : Nat) (w : Work) : (odPut idx sub v w).pow = w.pow := rfl
@[simp] theorem odPut_pins (idx sub v : Nat) (w : Work) : (odPut idx sub v w).pins = w.pins := rfl
@[simp] theorem odPut_tm (idx sub v : Nat) (w : Work) : (odPut idx sub v w).tm = w.tm := rfl
@[simp] theorem odPut_ingest (idx sub v : Nat) (w : Work) : (odPut idx sub v w).ingest = w.ingest := rfl
@[simp] theorem odPut_guard (idx sub v : Nat) (w : Work) : (odPut idx sub v w).guard = w.guard := rfl
@[simp] theorem odPut_casc (idx sub v : Nat) (w : Work) : (odPut idx sub v w).casc = w.casc := rfl
@[simp] theorem odPut_cores (idx sub v : Nat) (w : Work) : (odPut idx sub v w).cores = w.cores := rfl
@[simp] theorem odPut_safe (idx sub v : Nat) (w : Work) : (odPut idx sub v w).safe = w.safe := rfl
@[simp] theorem odPut_rst (idx sub v : Nat) (w : Work) : (odPut idx sub v w).rst = w.rst := rfl
@[simp] theorem odPut_tap (idx sub v : Nat) (w : Work) : (odPut idx sub v w).tap = w.tap := rfl
@[simp] theorem odPut_issues (idx sub v : Nat) (w : Work) : (odPut idx sub v w).issues = w.issues := rfl
@[simp] theorem odPut_closed (idx sub v : Nat) (w : Work) : (odPut idx sub v w).closed = w.closed := rfl
@[simp] theorem odPut_mem (idx sub v : Nat) (w : Work) : (odPut idx sub v w).mem = w.mem := rfl
@[simp] theorem odPut_wr (idx sub v : Nat) (w : Work) : (odPut idx sub v w).wr = w.wr := rfl

@[simp] theorem odAdd_fuses (idx sub k : Nat) (w : Work) : (odAdd idx sub k w).fuses = w.fuses := rfl
@[simp] theorem odAdd_dev (idx sub k : Nat) (w : Work) : (odAdd idx sub k w).dev = w.dev := rfl
@[simp] theorem odAdd_time (idx sub k : Nat) (w : Work) : (odAdd idx sub k w).time = w.time := rfl
@[simp] theorem odAdd_coll (idx sub k : Nat) (w : Work) : (odAdd idx sub k w).coll = w.coll := rfl
@[simp] theorem odAdd_log (idx sub k : Nat) (w : Work) : (odAdd idx sub k w).log = w.log := rfl
@[simp] theorem odAdd_engines (idx sub k : Nat) (w : Work) : (odAdd idx sub k w).engines = w.engines := rfl
@[simp] theorem odAdd_tileq (idx sub k : Nat) (w : Work) : (odAdd idx sub k w).tileq = w.tileq := rfl
@[simp] theorem odAdd_syncs (idx sub k : Nat) (w : Work) : (odAdd idx sub k w).syncs = w.syncs := rfl
@[simp] theorem odAdd_images (idx sub k : Nat) (w : Work) : (odAdd idx sub k w).images = w.images := rfl
@[simp] theorem odAdd_slices (idx sub k : Nat) (w : Work) : (odAdd idx sub k w).slices = w.slices := rfl
@[simp] theorem odAdd_ctxs (idx sub k : Nat) (w : Work) : (odAdd idx sub k w).ctxs = w.ctxs := rfl
@[simp] theorem odAdd_quads (idx sub k : Nat) (w : Work) : (odAdd idx sub k w).quads = w.quads := rfl
@[simp] theorem odAdd_out (idx sub k : Nat) (w : Work) : (odAdd idx sub k w).out = w.out := rfl
@[simp] theorem odAdd_free (idx sub k : Nat) (w : Work) : (odAdd idx sub k w).free = w.free := rfl
@[simp] theorem odAdd_links (idx sub k : Nat) (w : Work) : (odAdd idx sub k w).links = w.links := rfl
@[simp] theorem odAdd_chans (idx sub k : Nat) (w : Work) : (odAdd idx sub k w).chans = w.chans := rfl
@[simp] theorem odAdd_res (idx sub k : Nat) (w : Work) : (odAdd idx sub k w).res = w.res := rfl
@[simp] theorem odAdd_sched (idx sub k : Nat) (w : Work) : (odAdd idx sub k w).sched = w.sched := rfl
@[simp] theorem odAdd_pow (idx sub k : Nat) (w : Work) : (odAdd idx sub k w).pow = w.pow := rfl
@[simp] theorem odAdd_pins (idx sub k : Nat) (w : Work) : (odAdd idx sub k w).pins = w.pins := rfl
@[simp] theorem odAdd_tm (idx sub k : Nat) (w : Work) : (odAdd idx sub k w).tm = w.tm := rfl
@[simp] theorem odAdd_ingest (idx sub k : Nat) (w : Work) : (odAdd idx sub k w).ingest = w.ingest := rfl
@[simp] theorem odAdd_guard (idx sub k : Nat) (w : Work) : (odAdd idx sub k w).guard = w.guard := rfl
@[simp] theorem odAdd_casc (idx sub k : Nat) (w : Work) : (odAdd idx sub k w).casc = w.casc := rfl
@[simp] theorem odAdd_cores (idx sub k : Nat) (w : Work) : (odAdd idx sub k w).cores = w.cores := rfl
@[simp] theorem odAdd_safe (idx sub k : Nat) (w : Work) : (odAdd idx sub k w).safe = w.safe := rfl
@[simp] theorem odAdd_rst (idx sub k : Nat) (w : Work) : (odAdd idx sub k w).rst = w.rst := rfl
@[simp] theorem odAdd_tap (idx sub k : Nat) (w : Work) : (odAdd idx sub k w).tap = w.tap := rfl
@[simp] theorem odAdd_issues (idx sub k : Nat) (w : Work) : (odAdd idx sub k w).issues = w.issues := rfl
@[simp] theorem odAdd_closed (idx sub k : Nat) (w : Work) : (odAdd idx sub k w).closed = w.closed := rfl
@[simp] theorem odAdd_mem (idx sub k : Nat) (w : Work) : (odAdd idx sub k w).mem = w.mem := rfl
@[simp] theorem odAdd_wr (idx sub k : Nat) (w : Work) : (odAdd idx sub k w).wr = w.wr := rfl

@[simp] theorem send_fuses (o : Output) (w : Work) : (send o w).fuses = w.fuses := rfl
@[simp] theorem send_dev (o : Output) (w : Work) : (send o w).dev = w.dev := rfl
@[simp] theorem send_time (o : Output) (w : Work) : (send o w).time = w.time := rfl
@[simp] theorem send_od (o : Output) (w : Work) : (send o w).od = w.od := rfl
@[simp] theorem send_coll (o : Output) (w : Work) : (send o w).coll = w.coll := rfl
@[simp] theorem send_log (o : Output) (w : Work) : (send o w).log = w.log := rfl
@[simp] theorem send_engines (o : Output) (w : Work) : (send o w).engines = w.engines := rfl
@[simp] theorem send_tileq (o : Output) (w : Work) : (send o w).tileq = w.tileq := rfl
@[simp] theorem send_syncs (o : Output) (w : Work) : (send o w).syncs = w.syncs := rfl
@[simp] theorem send_images (o : Output) (w : Work) : (send o w).images = w.images := rfl
@[simp] theorem send_slices (o : Output) (w : Work) : (send o w).slices = w.slices := rfl
@[simp] theorem send_ctxs (o : Output) (w : Work) : (send o w).ctxs = w.ctxs := rfl
@[simp] theorem send_quads (o : Output) (w : Work) : (send o w).quads = w.quads := rfl
@[simp] theorem send_free (o : Output) (w : Work) : (send o w).free = w.free := rfl
@[simp] theorem send_links (o : Output) (w : Work) : (send o w).links = w.links := rfl
@[simp] theorem send_chans (o : Output) (w : Work) : (send o w).chans = w.chans := rfl
@[simp] theorem send_res (o : Output) (w : Work) : (send o w).res = w.res := rfl
@[simp] theorem send_sched (o : Output) (w : Work) : (send o w).sched = w.sched := rfl
@[simp] theorem send_pow (o : Output) (w : Work) : (send o w).pow = w.pow := rfl
@[simp] theorem send_pins (o : Output) (w : Work) : (send o w).pins = w.pins := rfl
@[simp] theorem send_tm (o : Output) (w : Work) : (send o w).tm = w.tm := rfl
@[simp] theorem send_ingest (o : Output) (w : Work) : (send o w).ingest = w.ingest := rfl
@[simp] theorem send_guard (o : Output) (w : Work) : (send o w).guard = w.guard := rfl
@[simp] theorem send_casc (o : Output) (w : Work) : (send o w).casc = w.casc := rfl
@[simp] theorem send_cores (o : Output) (w : Work) : (send o w).cores = w.cores := rfl
@[simp] theorem send_safe (o : Output) (w : Work) : (send o w).safe = w.safe := rfl
@[simp] theorem send_rst (o : Output) (w : Work) : (send o w).rst = w.rst := rfl
@[simp] theorem send_tap (o : Output) (w : Work) : (send o w).tap = w.tap := rfl
@[simp] theorem send_issues (o : Output) (w : Work) : (send o w).issues = w.issues := rfl
@[simp] theorem send_closed (o : Output) (w : Work) : (send o w).closed = w.closed := rfl
@[simp] theorem send_mem (o : Output) (w : Work) : (send o w).mem = w.mem := rfl
@[simp] theorem send_wr (o : Output) (w : Work) : (send o w).wr = w.wr := rfl

@[simp] theorem put_fuses (a : Nat) (bs : List Byte) (w : Work) : (put a bs w).fuses = w.fuses := rfl
@[simp] theorem put_dev (a : Nat) (bs : List Byte) (w : Work) : (put a bs w).dev = w.dev := rfl
@[simp] theorem put_time (a : Nat) (bs : List Byte) (w : Work) : (put a bs w).time = w.time := rfl
@[simp] theorem put_od (a : Nat) (bs : List Byte) (w : Work) : (put a bs w).od = w.od := rfl
@[simp] theorem put_coll (a : Nat) (bs : List Byte) (w : Work) : (put a bs w).coll = w.coll := rfl
@[simp] theorem put_log (a : Nat) (bs : List Byte) (w : Work) : (put a bs w).log = w.log := rfl
@[simp] theorem put_engines (a : Nat) (bs : List Byte) (w : Work) : (put a bs w).engines = w.engines := rfl
@[simp] theorem put_tileq (a : Nat) (bs : List Byte) (w : Work) : (put a bs w).tileq = w.tileq := rfl
@[simp] theorem put_syncs (a : Nat) (bs : List Byte) (w : Work) : (put a bs w).syncs = w.syncs := rfl
@[simp] theorem put_images (a : Nat) (bs : List Byte) (w : Work) : (put a bs w).images = w.images := rfl
@[simp] theorem put_slices (a : Nat) (bs : List Byte) (w : Work) : (put a bs w).slices = w.slices := rfl
@[simp] theorem put_ctxs (a : Nat) (bs : List Byte) (w : Work) : (put a bs w).ctxs = w.ctxs := rfl
@[simp] theorem put_quads (a : Nat) (bs : List Byte) (w : Work) : (put a bs w).quads = w.quads := rfl
@[simp] theorem put_out (a : Nat) (bs : List Byte) (w : Work) : (put a bs w).out = w.out := rfl
@[simp] theorem put_free (a : Nat) (bs : List Byte) (w : Work) : (put a bs w).free = w.free := rfl
@[simp] theorem put_links (a : Nat) (bs : List Byte) (w : Work) : (put a bs w).links = w.links := rfl
@[simp] theorem put_chans (a : Nat) (bs : List Byte) (w : Work) : (put a bs w).chans = w.chans := rfl
@[simp] theorem put_res (a : Nat) (bs : List Byte) (w : Work) : (put a bs w).res = w.res := rfl
@[simp] theorem put_sched (a : Nat) (bs : List Byte) (w : Work) : (put a bs w).sched = w.sched := rfl
@[simp] theorem put_pow (a : Nat) (bs : List Byte) (w : Work) : (put a bs w).pow = w.pow := rfl
@[simp] theorem put_pins (a : Nat) (bs : List Byte) (w : Work) : (put a bs w).pins = w.pins := rfl
@[simp] theorem put_tm (a : Nat) (bs : List Byte) (w : Work) : (put a bs w).tm = w.tm := rfl
@[simp] theorem put_ingest (a : Nat) (bs : List Byte) (w : Work) : (put a bs w).ingest = w.ingest := rfl
@[simp] theorem put_guard (a : Nat) (bs : List Byte) (w : Work) : (put a bs w).guard = w.guard := rfl
@[simp] theorem put_casc (a : Nat) (bs : List Byte) (w : Work) : (put a bs w).casc = w.casc := rfl
@[simp] theorem put_cores (a : Nat) (bs : List Byte) (w : Work) : (put a bs w).cores = w.cores := rfl
@[simp] theorem put_safe (a : Nat) (bs : List Byte) (w : Work) : (put a bs w).safe = w.safe := rfl
@[simp] theorem put_rst (a : Nat) (bs : List Byte) (w : Work) : (put a bs w).rst = w.rst := rfl
@[simp] theorem put_tap (a : Nat) (bs : List Byte) (w : Work) : (put a bs w).tap = w.tap := rfl
@[simp] theorem put_issues (a : Nat) (bs : List Byte) (w : Work) : (put a bs w).issues = w.issues := rfl
@[simp] theorem put_closed (a : Nat) (bs : List Byte) (w : Work) : (put a bs w).closed = w.closed := rfl
@[simp] theorem put_mem (a : Nat) (bs : List Byte) (w : Work) : (put a bs w).mem = w.mem := rfl

@[simp] theorem modEngine_fuses (e : Nat) (f : Engine → Engine) (w : Work) : (modEngine e f w).fuses = w.fuses := rfl
@[simp] theorem modEngine_dev (e : Nat) (f : Engine → Engine) (w : Work) : (modEngine e f w).dev = w.dev := rfl
@[simp] theorem modEngine_time (e : Nat) (f : Engine → Engine) (w : Work) : (modEngine e f w).time = w.time := rfl
@[simp] theorem modEngine_od (e : Nat) (f : Engine → Engine) (w : Work) : (modEngine e f w).od = w.od := rfl
@[simp] theorem modEngine_coll (e : Nat) (f : Engine → Engine) (w : Work) : (modEngine e f w).coll = w.coll := rfl
@[simp] theorem modEngine_log (e : Nat) (f : Engine → Engine) (w : Work) : (modEngine e f w).log = w.log := rfl
@[simp] theorem modEngine_tileq (e : Nat) (f : Engine → Engine) (w : Work) : (modEngine e f w).tileq = w.tileq := rfl
@[simp] theorem modEngine_syncs (e : Nat) (f : Engine → Engine) (w : Work) : (modEngine e f w).syncs = w.syncs := rfl
@[simp] theorem modEngine_images (e : Nat) (f : Engine → Engine) (w : Work) : (modEngine e f w).images = w.images := rfl
@[simp] theorem modEngine_slices (e : Nat) (f : Engine → Engine) (w : Work) : (modEngine e f w).slices = w.slices := rfl
@[simp] theorem modEngine_ctxs (e : Nat) (f : Engine → Engine) (w : Work) : (modEngine e f w).ctxs = w.ctxs := rfl
@[simp] theorem modEngine_quads (e : Nat) (f : Engine → Engine) (w : Work) : (modEngine e f w).quads = w.quads := rfl
@[simp] theorem modEngine_out (e : Nat) (f : Engine → Engine) (w : Work) : (modEngine e f w).out = w.out := rfl
@[simp] theorem modEngine_free (e : Nat) (f : Engine → Engine) (w : Work) : (modEngine e f w).free = w.free := rfl
@[simp] theorem modEngine_links (e : Nat) (f : Engine → Engine) (w : Work) : (modEngine e f w).links = w.links := rfl
@[simp] theorem modEngine_chans (e : Nat) (f : Engine → Engine) (w : Work) : (modEngine e f w).chans = w.chans := rfl
@[simp] theorem modEngine_res (e : Nat) (f : Engine → Engine) (w : Work) : (modEngine e f w).res = w.res := rfl
@[simp] theorem modEngine_sched (e : Nat) (f : Engine → Engine) (w : Work) : (modEngine e f w).sched = w.sched := rfl
@[simp] theorem modEngine_pow (e : Nat) (f : Engine → Engine) (w : Work) : (modEngine e f w).pow = w.pow := rfl
@[simp] theorem modEngine_pins (e : Nat) (f : Engine → Engine) (w : Work) : (modEngine e f w).pins = w.pins := rfl
@[simp] theorem modEngine_tm (e : Nat) (f : Engine → Engine) (w : Work) : (modEngine e f w).tm = w.tm := rfl
@[simp] theorem modEngine_ingest (e : Nat) (f : Engine → Engine) (w : Work) : (modEngine e f w).ingest = w.ingest := rfl
@[simp] theorem modEngine_guard (e : Nat) (f : Engine → Engine) (w : Work) : (modEngine e f w).guard = w.guard := rfl
@[simp] theorem modEngine_casc (e : Nat) (f : Engine → Engine) (w : Work) : (modEngine e f w).casc = w.casc := rfl
@[simp] theorem modEngine_cores (e : Nat) (f : Engine → Engine) (w : Work) : (modEngine e f w).cores = w.cores := rfl
@[simp] theorem modEngine_safe (e : Nat) (f : Engine → Engine) (w : Work) : (modEngine e f w).safe = w.safe := rfl
@[simp] theorem modEngine_rst (e : Nat) (f : Engine → Engine) (w : Work) : (modEngine e f w).rst = w.rst := rfl
@[simp] theorem modEngine_tap (e : Nat) (f : Engine → Engine) (w : Work) : (modEngine e f w).tap = w.tap := rfl
@[simp] theorem modEngine_issues (e : Nat) (f : Engine → Engine) (w : Work) : (modEngine e f w).issues = w.issues := rfl
@[simp] theorem modEngine_closed (e : Nat) (f : Engine → Engine) (w : Work) : (modEngine e f w).closed = w.closed := rfl
@[simp] theorem modEngine_mem (e : Nat) (f : Engine → Engine) (w : Work) : (modEngine e f w).mem = w.mem := rfl
@[simp] theorem modEngine_wr (e : Nat) (f : Engine → Engine) (w : Work) : (modEngine e f w).wr = w.wr := rfl

@[simp] theorem modSlot_fuses (e k : Nat) (f : Slot → Slot) (w : Work) : (modSlot e k f w).fuses = w.fuses := rfl
@[simp] theorem modSlot_dev (e k : Nat) (f : Slot → Slot) (w : Work) : (modSlot e k f w).dev = w.dev := rfl
@[simp] theorem modSlot_time (e k : Nat) (f : Slot → Slot) (w : Work) : (modSlot e k f w).time = w.time := rfl
@[simp] theorem modSlot_od (e k : Nat) (f : Slot → Slot) (w : Work) : (modSlot e k f w).od = w.od := rfl
@[simp] theorem modSlot_coll (e k : Nat) (f : Slot → Slot) (w : Work) : (modSlot e k f w).coll = w.coll := rfl
@[simp] theorem modSlot_log (e k : Nat) (f : Slot → Slot) (w : Work) : (modSlot e k f w).log = w.log := rfl
@[simp] theorem modSlot_tileq (e k : Nat) (f : Slot → Slot) (w : Work) : (modSlot e k f w).tileq = w.tileq := rfl
@[simp] theorem modSlot_syncs (e k : Nat) (f : Slot → Slot) (w : Work) : (modSlot e k f w).syncs = w.syncs := rfl
@[simp] theorem modSlot_images (e k : Nat) (f : Slot → Slot) (w : Work) : (modSlot e k f w).images = w.images := rfl
@[simp] theorem modSlot_slices (e k : Nat) (f : Slot → Slot) (w : Work) : (modSlot e k f w).slices = w.slices := rfl
@[simp] theorem modSlot_ctxs (e k : Nat) (f : Slot → Slot) (w : Work) : (modSlot e k f w).ctxs = w.ctxs := rfl
@[simp] theorem modSlot_quads (e k : Nat) (f : Slot → Slot) (w : Work) : (modSlot e k f w).quads = w.quads := rfl
@[simp] theorem modSlot_out (e k : Nat) (f : Slot → Slot) (w : Work) : (modSlot e k f w).out = w.out := rfl
@[simp] theorem modSlot_free (e k : Nat) (f : Slot → Slot) (w : Work) : (modSlot e k f w).free = w.free := rfl
@[simp] theorem modSlot_links (e k : Nat) (f : Slot → Slot) (w : Work) : (modSlot e k f w).links = w.links := rfl
@[simp] theorem modSlot_chans (e k : Nat) (f : Slot → Slot) (w : Work) : (modSlot e k f w).chans = w.chans := rfl
@[simp] theorem modSlot_res (e k : Nat) (f : Slot → Slot) (w : Work) : (modSlot e k f w).res = w.res := rfl
@[simp] theorem modSlot_sched (e k : Nat) (f : Slot → Slot) (w : Work) : (modSlot e k f w).sched = w.sched := rfl
@[simp] theorem modSlot_pow (e k : Nat) (f : Slot → Slot) (w : Work) : (modSlot e k f w).pow = w.pow := rfl
@[simp] theorem modSlot_pins (e k : Nat) (f : Slot → Slot) (w : Work) : (modSlot e k f w).pins = w.pins := rfl
@[simp] theorem modSlot_tm (e k : Nat) (f : Slot → Slot) (w : Work) : (modSlot e k f w).tm = w.tm := rfl
@[simp] theorem modSlot_ingest (e k : Nat) (f : Slot → Slot) (w : Work) : (modSlot e k f w).ingest = w.ingest := rfl
@[simp] theorem modSlot_guard (e k : Nat) (f : Slot → Slot) (w : Work) : (modSlot e k f w).guard = w.guard := rfl
@[simp] theorem modSlot_casc (e k : Nat) (f : Slot → Slot) (w : Work) : (modSlot e k f w).casc = w.casc := rfl
@[simp] theorem modSlot_cores (e k : Nat) (f : Slot → Slot) (w : Work) : (modSlot e k f w).cores = w.cores := rfl
@[simp] theorem modSlot_safe (e k : Nat) (f : Slot → Slot) (w : Work) : (modSlot e k f w).safe = w.safe := rfl
@[simp] theorem modSlot_rst (e k : Nat) (f : Slot → Slot) (w : Work) : (modSlot e k f w).rst = w.rst := rfl
@[simp] theorem modSlot_tap (e k : Nat) (f : Slot → Slot) (w : Work) : (modSlot e k f w).tap = w.tap := rfl
@[simp] theorem modSlot_issues (e k : Nat) (f : Slot → Slot) (w : Work) : (modSlot e k f w).issues = w.issues := rfl
@[simp] theorem modSlot_closed (e k : Nat) (f : Slot → Slot) (w : Work) : (modSlot e k f w).closed = w.closed := rfl
@[simp] theorem modSlot_mem (e k : Nat) (f : Slot → Slot) (w : Work) : (modSlot e k f w).mem = w.mem := rfl
@[simp] theorem modSlot_wr (e k : Nat) (f : Slot → Slot) (w : Work) : (modSlot e k f w).wr = w.wr := rfl

@[simp] theorem modCtx_fuses (n : Nat) (f : CtxRun → CtxRun) (w : Work) : (modCtx n f w).fuses = w.fuses := rfl
@[simp] theorem modCtx_dev (n : Nat) (f : CtxRun → CtxRun) (w : Work) : (modCtx n f w).dev = w.dev := rfl
@[simp] theorem modCtx_time (n : Nat) (f : CtxRun → CtxRun) (w : Work) : (modCtx n f w).time = w.time := rfl
@[simp] theorem modCtx_od (n : Nat) (f : CtxRun → CtxRun) (w : Work) : (modCtx n f w).od = w.od := rfl
@[simp] theorem modCtx_coll (n : Nat) (f : CtxRun → CtxRun) (w : Work) : (modCtx n f w).coll = w.coll := rfl
@[simp] theorem modCtx_log (n : Nat) (f : CtxRun → CtxRun) (w : Work) : (modCtx n f w).log = w.log := rfl
@[simp] theorem modCtx_engines (n : Nat) (f : CtxRun → CtxRun) (w : Work) : (modCtx n f w).engines = w.engines := rfl
@[simp] theorem modCtx_tileq (n : Nat) (f : CtxRun → CtxRun) (w : Work) : (modCtx n f w).tileq = w.tileq := rfl
@[simp] theorem modCtx_syncs (n : Nat) (f : CtxRun → CtxRun) (w : Work) : (modCtx n f w).syncs = w.syncs := rfl
@[simp] theorem modCtx_images (n : Nat) (f : CtxRun → CtxRun) (w : Work) : (modCtx n f w).images = w.images := rfl
@[simp] theorem modCtx_slices (n : Nat) (f : CtxRun → CtxRun) (w : Work) : (modCtx n f w).slices = w.slices := rfl
@[simp] theorem modCtx_quads (n : Nat) (f : CtxRun → CtxRun) (w : Work) : (modCtx n f w).quads = w.quads := rfl
@[simp] theorem modCtx_out (n : Nat) (f : CtxRun → CtxRun) (w : Work) : (modCtx n f w).out = w.out := rfl
@[simp] theorem modCtx_free (n : Nat) (f : CtxRun → CtxRun) (w : Work) : (modCtx n f w).free = w.free := rfl
@[simp] theorem modCtx_links (n : Nat) (f : CtxRun → CtxRun) (w : Work) : (modCtx n f w).links = w.links := rfl
@[simp] theorem modCtx_chans (n : Nat) (f : CtxRun → CtxRun) (w : Work) : (modCtx n f w).chans = w.chans := rfl
@[simp] theorem modCtx_res (n : Nat) (f : CtxRun → CtxRun) (w : Work) : (modCtx n f w).res = w.res := rfl
@[simp] theorem modCtx_sched (n : Nat) (f : CtxRun → CtxRun) (w : Work) : (modCtx n f w).sched = w.sched := rfl
@[simp] theorem modCtx_pow (n : Nat) (f : CtxRun → CtxRun) (w : Work) : (modCtx n f w).pow = w.pow := rfl
@[simp] theorem modCtx_pins (n : Nat) (f : CtxRun → CtxRun) (w : Work) : (modCtx n f w).pins = w.pins := rfl
@[simp] theorem modCtx_tm (n : Nat) (f : CtxRun → CtxRun) (w : Work) : (modCtx n f w).tm = w.tm := rfl
@[simp] theorem modCtx_ingest (n : Nat) (f : CtxRun → CtxRun) (w : Work) : (modCtx n f w).ingest = w.ingest := rfl
@[simp] theorem modCtx_guard (n : Nat) (f : CtxRun → CtxRun) (w : Work) : (modCtx n f w).guard = w.guard := rfl
@[simp] theorem modCtx_casc (n : Nat) (f : CtxRun → CtxRun) (w : Work) : (modCtx n f w).casc = w.casc := rfl
@[simp] theorem modCtx_cores (n : Nat) (f : CtxRun → CtxRun) (w : Work) : (modCtx n f w).cores = w.cores := rfl
@[simp] theorem modCtx_safe (n : Nat) (f : CtxRun → CtxRun) (w : Work) : (modCtx n f w).safe = w.safe := rfl
@[simp] theorem modCtx_rst (n : Nat) (f : CtxRun → CtxRun) (w : Work) : (modCtx n f w).rst = w.rst := rfl
@[simp] theorem modCtx_tap (n : Nat) (f : CtxRun → CtxRun) (w : Work) : (modCtx n f w).tap = w.tap := rfl
@[simp] theorem modCtx_issues (n : Nat) (f : CtxRun → CtxRun) (w : Work) : (modCtx n f w).issues = w.issues := rfl
@[simp] theorem modCtx_closed (n : Nat) (f : CtxRun → CtxRun) (w : Work) : (modCtx n f w).closed = w.closed := rfl
@[simp] theorem modCtx_mem (n : Nat) (f : CtxRun → CtxRun) (w : Work) : (modCtx n f w).mem = w.mem := rfl
@[simp] theorem modCtx_wr (n : Nat) (f : CtxRun → CtxRun) (w : Work) : (modCtx n f w).wr = w.wr := rfl

@[simp] theorem modSlice_fuses (n : Nat) (f : Slice → Slice) (w : Work) : (modSlice n f w).fuses = w.fuses := rfl
@[simp] theorem modSlice_dev (n : Nat) (f : Slice → Slice) (w : Work) : (modSlice n f w).dev = w.dev := rfl
@[simp] theorem modSlice_time (n : Nat) (f : Slice → Slice) (w : Work) : (modSlice n f w).time = w.time := rfl
@[simp] theorem modSlice_od (n : Nat) (f : Slice → Slice) (w : Work) : (modSlice n f w).od = w.od := rfl
@[simp] theorem modSlice_coll (n : Nat) (f : Slice → Slice) (w : Work) : (modSlice n f w).coll = w.coll := rfl
@[simp] theorem modSlice_log (n : Nat) (f : Slice → Slice) (w : Work) : (modSlice n f w).log = w.log := rfl
@[simp] theorem modSlice_engines (n : Nat) (f : Slice → Slice) (w : Work) : (modSlice n f w).engines = w.engines := rfl
@[simp] theorem modSlice_tileq (n : Nat) (f : Slice → Slice) (w : Work) : (modSlice n f w).tileq = w.tileq := rfl
@[simp] theorem modSlice_syncs (n : Nat) (f : Slice → Slice) (w : Work) : (modSlice n f w).syncs = w.syncs := rfl
@[simp] theorem modSlice_images (n : Nat) (f : Slice → Slice) (w : Work) : (modSlice n f w).images = w.images := rfl
@[simp] theorem modSlice_ctxs (n : Nat) (f : Slice → Slice) (w : Work) : (modSlice n f w).ctxs = w.ctxs := rfl
@[simp] theorem modSlice_quads (n : Nat) (f : Slice → Slice) (w : Work) : (modSlice n f w).quads = w.quads := rfl
@[simp] theorem modSlice_out (n : Nat) (f : Slice → Slice) (w : Work) : (modSlice n f w).out = w.out := rfl
@[simp] theorem modSlice_free (n : Nat) (f : Slice → Slice) (w : Work) : (modSlice n f w).free = w.free := rfl
@[simp] theorem modSlice_links (n : Nat) (f : Slice → Slice) (w : Work) : (modSlice n f w).links = w.links := rfl
@[simp] theorem modSlice_chans (n : Nat) (f : Slice → Slice) (w : Work) : (modSlice n f w).chans = w.chans := rfl
@[simp] theorem modSlice_res (n : Nat) (f : Slice → Slice) (w : Work) : (modSlice n f w).res = w.res := rfl
@[simp] theorem modSlice_sched (n : Nat) (f : Slice → Slice) (w : Work) : (modSlice n f w).sched = w.sched := rfl
@[simp] theorem modSlice_pow (n : Nat) (f : Slice → Slice) (w : Work) : (modSlice n f w).pow = w.pow := rfl
@[simp] theorem modSlice_pins (n : Nat) (f : Slice → Slice) (w : Work) : (modSlice n f w).pins = w.pins := rfl
@[simp] theorem modSlice_tm (n : Nat) (f : Slice → Slice) (w : Work) : (modSlice n f w).tm = w.tm := rfl
@[simp] theorem modSlice_ingest (n : Nat) (f : Slice → Slice) (w : Work) : (modSlice n f w).ingest = w.ingest := rfl
@[simp] theorem modSlice_guard (n : Nat) (f : Slice → Slice) (w : Work) : (modSlice n f w).guard = w.guard := rfl
@[simp] theorem modSlice_casc (n : Nat) (f : Slice → Slice) (w : Work) : (modSlice n f w).casc = w.casc := rfl
@[simp] theorem modSlice_cores (n : Nat) (f : Slice → Slice) (w : Work) : (modSlice n f w).cores = w.cores := rfl
@[simp] theorem modSlice_safe (n : Nat) (f : Slice → Slice) (w : Work) : (modSlice n f w).safe = w.safe := rfl
@[simp] theorem modSlice_rst (n : Nat) (f : Slice → Slice) (w : Work) : (modSlice n f w).rst = w.rst := rfl
@[simp] theorem modSlice_tap (n : Nat) (f : Slice → Slice) (w : Work) : (modSlice n f w).tap = w.tap := rfl
@[simp] theorem modSlice_issues (n : Nat) (f : Slice → Slice) (w : Work) : (modSlice n f w).issues = w.issues := rfl
@[simp] theorem modSlice_closed (n : Nat) (f : Slice → Slice) (w : Work) : (modSlice n f w).closed = w.closed := rfl
@[simp] theorem modSlice_mem (n : Nat) (f : Slice → Slice) (w : Work) : (modSlice n f w).mem = w.mem := rfl
@[simp] theorem modSlice_wr (n : Nat) (f : Slice → Slice) (w : Work) : (modSlice n f w).wr = w.wr := rfl

@[simp] theorem modQuad_fuses (q : Nat) (f : QuadRun → QuadRun) (w : Work) : (modQuad q f w).fuses = w.fuses := rfl
@[simp] theorem modQuad_dev (q : Nat) (f : QuadRun → QuadRun) (w : Work) : (modQuad q f w).dev = w.dev := rfl
@[simp] theorem modQuad_time (q : Nat) (f : QuadRun → QuadRun) (w : Work) : (modQuad q f w).time = w.time := rfl
@[simp] theorem modQuad_od (q : Nat) (f : QuadRun → QuadRun) (w : Work) : (modQuad q f w).od = w.od := rfl
@[simp] theorem modQuad_coll (q : Nat) (f : QuadRun → QuadRun) (w : Work) : (modQuad q f w).coll = w.coll := rfl
@[simp] theorem modQuad_log (q : Nat) (f : QuadRun → QuadRun) (w : Work) : (modQuad q f w).log = w.log := rfl
@[simp] theorem modQuad_engines (q : Nat) (f : QuadRun → QuadRun) (w : Work) : (modQuad q f w).engines = w.engines := rfl
@[simp] theorem modQuad_tileq (q : Nat) (f : QuadRun → QuadRun) (w : Work) : (modQuad q f w).tileq = w.tileq := rfl
@[simp] theorem modQuad_syncs (q : Nat) (f : QuadRun → QuadRun) (w : Work) : (modQuad q f w).syncs = w.syncs := rfl
@[simp] theorem modQuad_images (q : Nat) (f : QuadRun → QuadRun) (w : Work) : (modQuad q f w).images = w.images := rfl
@[simp] theorem modQuad_slices (q : Nat) (f : QuadRun → QuadRun) (w : Work) : (modQuad q f w).slices = w.slices := rfl
@[simp] theorem modQuad_ctxs (q : Nat) (f : QuadRun → QuadRun) (w : Work) : (modQuad q f w).ctxs = w.ctxs := rfl
@[simp] theorem modQuad_out (q : Nat) (f : QuadRun → QuadRun) (w : Work) : (modQuad q f w).out = w.out := rfl
@[simp] theorem modQuad_free (q : Nat) (f : QuadRun → QuadRun) (w : Work) : (modQuad q f w).free = w.free := rfl
@[simp] theorem modQuad_links (q : Nat) (f : QuadRun → QuadRun) (w : Work) : (modQuad q f w).links = w.links := rfl
@[simp] theorem modQuad_chans (q : Nat) (f : QuadRun → QuadRun) (w : Work) : (modQuad q f w).chans = w.chans := rfl
@[simp] theorem modQuad_res (q : Nat) (f : QuadRun → QuadRun) (w : Work) : (modQuad q f w).res = w.res := rfl
@[simp] theorem modQuad_sched (q : Nat) (f : QuadRun → QuadRun) (w : Work) : (modQuad q f w).sched = w.sched := rfl
@[simp] theorem modQuad_pow (q : Nat) (f : QuadRun → QuadRun) (w : Work) : (modQuad q f w).pow = w.pow := rfl
@[simp] theorem modQuad_pins (q : Nat) (f : QuadRun → QuadRun) (w : Work) : (modQuad q f w).pins = w.pins := rfl
@[simp] theorem modQuad_tm (q : Nat) (f : QuadRun → QuadRun) (w : Work) : (modQuad q f w).tm = w.tm := rfl
@[simp] theorem modQuad_ingest (q : Nat) (f : QuadRun → QuadRun) (w : Work) : (modQuad q f w).ingest = w.ingest := rfl
@[simp] theorem modQuad_guard (q : Nat) (f : QuadRun → QuadRun) (w : Work) : (modQuad q f w).guard = w.guard := rfl
@[simp] theorem modQuad_casc (q : Nat) (f : QuadRun → QuadRun) (w : Work) : (modQuad q f w).casc = w.casc := rfl
@[simp] theorem modQuad_cores (q : Nat) (f : QuadRun → QuadRun) (w : Work) : (modQuad q f w).cores = w.cores := rfl
@[simp] theorem modQuad_safe (q : Nat) (f : QuadRun → QuadRun) (w : Work) : (modQuad q f w).safe = w.safe := rfl
@[simp] theorem modQuad_rst (q : Nat) (f : QuadRun → QuadRun) (w : Work) : (modQuad q f w).rst = w.rst := rfl
@[simp] theorem modQuad_tap (q : Nat) (f : QuadRun → QuadRun) (w : Work) : (modQuad q f w).tap = w.tap := rfl
@[simp] theorem modQuad_issues (q : Nat) (f : QuadRun → QuadRun) (w : Work) : (modQuad q f w).issues = w.issues := rfl
@[simp] theorem modQuad_closed (q : Nat) (f : QuadRun → QuadRun) (w : Work) : (modQuad q f w).closed = w.closed := rfl
@[simp] theorem modQuad_mem (q : Nat) (f : QuadRun → QuadRun) (w : Work) : (modQuad q f w).mem = w.mem := rfl
@[simp] theorem modQuad_wr (q : Nat) (f : QuadRun → QuadRun) (w : Work) : (modQuad q f w).wr = w.wr := rfl

@[simp] theorem ctxPut_fuses (n sub v : Nat) (w : Work) : (ctxPut n sub v w).fuses = w.fuses := rfl
@[simp] theorem ctxPut_dev (n sub v : Nat) (w : Work) : (ctxPut n sub v w).dev = w.dev := rfl
@[simp] theorem ctxPut_time (n sub v : Nat) (w : Work) : (ctxPut n sub v w).time = w.time := rfl
@[simp] theorem ctxPut_coll (n sub v : Nat) (w : Work) : (ctxPut n sub v w).coll = w.coll := rfl
@[simp] theorem ctxPut_log (n sub v : Nat) (w : Work) : (ctxPut n sub v w).log = w.log := rfl
@[simp] theorem ctxPut_engines (n sub v : Nat) (w : Work) : (ctxPut n sub v w).engines = w.engines := rfl
@[simp] theorem ctxPut_tileq (n sub v : Nat) (w : Work) : (ctxPut n sub v w).tileq = w.tileq := rfl
@[simp] theorem ctxPut_syncs (n sub v : Nat) (w : Work) : (ctxPut n sub v w).syncs = w.syncs := rfl
@[simp] theorem ctxPut_images (n sub v : Nat) (w : Work) : (ctxPut n sub v w).images = w.images := rfl
@[simp] theorem ctxPut_slices (n sub v : Nat) (w : Work) : (ctxPut n sub v w).slices = w.slices := rfl
@[simp] theorem ctxPut_ctxs (n sub v : Nat) (w : Work) : (ctxPut n sub v w).ctxs = w.ctxs := rfl
@[simp] theorem ctxPut_quads (n sub v : Nat) (w : Work) : (ctxPut n sub v w).quads = w.quads := rfl
@[simp] theorem ctxPut_out (n sub v : Nat) (w : Work) : (ctxPut n sub v w).out = w.out := rfl
@[simp] theorem ctxPut_free (n sub v : Nat) (w : Work) : (ctxPut n sub v w).free = w.free := rfl
@[simp] theorem ctxPut_links (n sub v : Nat) (w : Work) : (ctxPut n sub v w).links = w.links := rfl
@[simp] theorem ctxPut_chans (n sub v : Nat) (w : Work) : (ctxPut n sub v w).chans = w.chans := rfl
@[simp] theorem ctxPut_res (n sub v : Nat) (w : Work) : (ctxPut n sub v w).res = w.res := rfl
@[simp] theorem ctxPut_sched (n sub v : Nat) (w : Work) : (ctxPut n sub v w).sched = w.sched := rfl
@[simp] theorem ctxPut_pow (n sub v : Nat) (w : Work) : (ctxPut n sub v w).pow = w.pow := rfl
@[simp] theorem ctxPut_pins (n sub v : Nat) (w : Work) : (ctxPut n sub v w).pins = w.pins := rfl
@[simp] theorem ctxPut_tm (n sub v : Nat) (w : Work) : (ctxPut n sub v w).tm = w.tm := rfl
@[simp] theorem ctxPut_ingest (n sub v : Nat) (w : Work) : (ctxPut n sub v w).ingest = w.ingest := rfl
@[simp] theorem ctxPut_guard (n sub v : Nat) (w : Work) : (ctxPut n sub v w).guard = w.guard := rfl
@[simp] theorem ctxPut_casc (n sub v : Nat) (w : Work) : (ctxPut n sub v w).casc = w.casc := rfl
@[simp] theorem ctxPut_cores (n sub v : Nat) (w : Work) : (ctxPut n sub v w).cores = w.cores := rfl
@[simp] theorem ctxPut_safe (n sub v : Nat) (w : Work) : (ctxPut n sub v w).safe = w.safe := rfl
@[simp] theorem ctxPut_rst (n sub v : Nat) (w : Work) : (ctxPut n sub v w).rst = w.rst := rfl
@[simp] theorem ctxPut_tap (n sub v : Nat) (w : Work) : (ctxPut n sub v w).tap = w.tap := rfl
@[simp] theorem ctxPut_issues (n sub v : Nat) (w : Work) : (ctxPut n sub v w).issues = w.issues := rfl
@[simp] theorem ctxPut_closed (n sub v : Nat) (w : Work) : (ctxPut n sub v w).closed = w.closed := rfl
@[simp] theorem ctxPut_mem (n sub v : Nat) (w : Work) : (ctxPut n sub v w).mem = w.mem := rfl
@[simp] theorem ctxPut_wr (n sub v : Nat) (w : Work) : (ctxPut n sub v w).wr = w.wr := rfl

@[simp] theorem quadPut_fuses (q sub v : Nat) (w : Work) : (quadPut q sub v w).fuses = w.fuses := rfl
@[simp] theorem quadPut_dev (q sub v : Nat) (w : Work) : (quadPut q sub v w).dev = w.dev := rfl
@[simp] theorem quadPut_time (q sub v : Nat) (w : Work) : (quadPut q sub v w).time = w.time := rfl
@[simp] theorem quadPut_coll (q sub v : Nat) (w : Work) : (quadPut q sub v w).coll = w.coll := rfl
@[simp] theorem quadPut_log (q sub v : Nat) (w : Work) : (quadPut q sub v w).log = w.log := rfl
@[simp] theorem quadPut_engines (q sub v : Nat) (w : Work) : (quadPut q sub v w).engines = w.engines := rfl
@[simp] theorem quadPut_tileq (q sub v : Nat) (w : Work) : (quadPut q sub v w).tileq = w.tileq := rfl
@[simp] theorem quadPut_syncs (q sub v : Nat) (w : Work) : (quadPut q sub v w).syncs = w.syncs := rfl
@[simp] theorem quadPut_images (q sub v : Nat) (w : Work) : (quadPut q sub v w).images = w.images := rfl
@[simp] theorem quadPut_slices (q sub v : Nat) (w : Work) : (quadPut q sub v w).slices = w.slices := rfl
@[simp] theorem quadPut_ctxs (q sub v : Nat) (w : Work) : (quadPut q sub v w).ctxs = w.ctxs := rfl
@[simp] theorem quadPut_quads (q sub v : Nat) (w : Work) : (quadPut q sub v w).quads = w.quads := rfl
@[simp] theorem quadPut_out (q sub v : Nat) (w : Work) : (quadPut q sub v w).out = w.out := rfl
@[simp] theorem quadPut_free (q sub v : Nat) (w : Work) : (quadPut q sub v w).free = w.free := rfl
@[simp] theorem quadPut_links (q sub v : Nat) (w : Work) : (quadPut q sub v w).links = w.links := rfl
@[simp] theorem quadPut_chans (q sub v : Nat) (w : Work) : (quadPut q sub v w).chans = w.chans := rfl
@[simp] theorem quadPut_res (q sub v : Nat) (w : Work) : (quadPut q sub v w).res = w.res := rfl
@[simp] theorem quadPut_sched (q sub v : Nat) (w : Work) : (quadPut q sub v w).sched = w.sched := rfl
@[simp] theorem quadPut_pow (q sub v : Nat) (w : Work) : (quadPut q sub v w).pow = w.pow := rfl
@[simp] theorem quadPut_pins (q sub v : Nat) (w : Work) : (quadPut q sub v w).pins = w.pins := rfl
@[simp] theorem quadPut_tm (q sub v : Nat) (w : Work) : (quadPut q sub v w).tm = w.tm := rfl
@[simp] theorem quadPut_ingest (q sub v : Nat) (w : Work) : (quadPut q sub v w).ingest = w.ingest := rfl
@[simp] theorem quadPut_guard (q sub v : Nat) (w : Work) : (quadPut q sub v w).guard = w.guard := rfl
@[simp] theorem quadPut_casc (q sub v : Nat) (w : Work) : (quadPut q sub v w).casc = w.casc := rfl
@[simp] theorem quadPut_cores (q sub v : Nat) (w : Work) : (quadPut q sub v w).cores = w.cores := rfl
@[simp] theorem quadPut_safe (q sub v : Nat) (w : Work) : (quadPut q sub v w).safe = w.safe := rfl
@[simp] theorem quadPut_rst (q sub v : Nat) (w : Work) : (quadPut q sub v w).rst = w.rst := rfl
@[simp] theorem quadPut_tap (q sub v : Nat) (w : Work) : (quadPut q sub v w).tap = w.tap := rfl
@[simp] theorem quadPut_issues (q sub v : Nat) (w : Work) : (quadPut q sub v w).issues = w.issues := rfl
@[simp] theorem quadPut_closed (q sub v : Nat) (w : Work) : (quadPut q sub v w).closed = w.closed := rfl
@[simp] theorem quadPut_mem (q sub v : Nat) (w : Work) : (quadPut q sub v w).mem = w.mem := rfl
@[simp] theorem quadPut_wr (q sub v : Nat) (w : Work) : (quadPut q sub v w).wr = w.wr := rfl

@[simp] theorem quadAdd_fuses (q sub k : Nat) (w : Work) : (quadAdd q sub k w).fuses = w.fuses := rfl
@[simp] theorem quadAdd_dev (q sub k : Nat) (w : Work) : (quadAdd q sub k w).dev = w.dev := rfl
@[simp] theorem quadAdd_time (q sub k : Nat) (w : Work) : (quadAdd q sub k w).time = w.time := rfl
@[simp] theorem quadAdd_coll (q sub k : Nat) (w : Work) : (quadAdd q sub k w).coll = w.coll := rfl
@[simp] theorem quadAdd_log (q sub k : Nat) (w : Work) : (quadAdd q sub k w).log = w.log := rfl
@[simp] theorem quadAdd_engines (q sub k : Nat) (w : Work) : (quadAdd q sub k w).engines = w.engines := rfl
@[simp] theorem quadAdd_tileq (q sub k : Nat) (w : Work) : (quadAdd q sub k w).tileq = w.tileq := rfl
@[simp] theorem quadAdd_syncs (q sub k : Nat) (w : Work) : (quadAdd q sub k w).syncs = w.syncs := rfl
@[simp] theorem quadAdd_images (q sub k : Nat) (w : Work) : (quadAdd q sub k w).images = w.images := rfl
@[simp] theorem quadAdd_slices (q sub k : Nat) (w : Work) : (quadAdd q sub k w).slices = w.slices := rfl
@[simp] theorem quadAdd_ctxs (q sub k : Nat) (w : Work) : (quadAdd q sub k w).ctxs = w.ctxs := rfl
@[simp] theorem quadAdd_quads (q sub k : Nat) (w : Work) : (quadAdd q sub k w).quads = w.quads := rfl
@[simp] theorem quadAdd_out (q sub k : Nat) (w : Work) : (quadAdd q sub k w).out = w.out := rfl
@[simp] theorem quadAdd_free (q sub k : Nat) (w : Work) : (quadAdd q sub k w).free = w.free := rfl
@[simp] theorem quadAdd_links (q sub k : Nat) (w : Work) : (quadAdd q sub k w).links = w.links := rfl
@[simp] theorem quadAdd_chans (q sub k : Nat) (w : Work) : (quadAdd q sub k w).chans = w.chans := rfl
@[simp] theorem quadAdd_res (q sub k : Nat) (w : Work) : (quadAdd q sub k w).res = w.res := rfl
@[simp] theorem quadAdd_sched (q sub k : Nat) (w : Work) : (quadAdd q sub k w).sched = w.sched := rfl
@[simp] theorem quadAdd_pow (q sub k : Nat) (w : Work) : (quadAdd q sub k w).pow = w.pow := rfl
@[simp] theorem quadAdd_pins (q sub k : Nat) (w : Work) : (quadAdd q sub k w).pins = w.pins := rfl
@[simp] theorem quadAdd_tm (q sub k : Nat) (w : Work) : (quadAdd q sub k w).tm = w.tm := rfl
@[simp] theorem quadAdd_ingest (q sub k : Nat) (w : Work) : (quadAdd q sub k w).ingest = w.ingest := rfl
@[simp] theorem quadAdd_guard (q sub k : Nat) (w : Work) : (quadAdd q sub k w).guard = w.guard := rfl
@[simp] theorem quadAdd_casc (q sub k : Nat) (w : Work) : (quadAdd q sub k w).casc = w.casc := rfl
@[simp] theorem quadAdd_cores (q sub k : Nat) (w : Work) : (quadAdd q sub k w).cores = w.cores := rfl
@[simp] theorem quadAdd_safe (q sub k : Nat) (w : Work) : (quadAdd q sub k w).safe = w.safe := rfl
@[simp] theorem quadAdd_rst (q sub k : Nat) (w : Work) : (quadAdd q sub k w).rst = w.rst := rfl
@[simp] theorem quadAdd_tap (q sub k : Nat) (w : Work) : (quadAdd q sub k w).tap = w.tap := rfl
@[simp] theorem quadAdd_issues (q sub k : Nat) (w : Work) : (quadAdd q sub k w).issues = w.issues := rfl
@[simp] theorem quadAdd_closed (q sub k : Nat) (w : Work) : (quadAdd q sub k w).closed = w.closed := rfl
@[simp] theorem quadAdd_mem (q sub k : Nat) (w : Work) : (quadAdd q sub k w).mem = w.mem := rfl
@[simp] theorem quadAdd_wr (q sub k : Nat) (w : Work) : (quadAdd q sub k w).wr = w.wr := rfl

end Sys2Proof.Laws
end

