-- ==== Sys2Proof/Laws/Ops.lean ====
section
/-! SUPPORT. What the shared operations can do: how a command's work becomes the next state, what an object write and a
message of the collector leave alone. -/

namespace Sys2Proof.Laws

open Sys2Proof.Machine

/-! ## A command -/

@[simp] theorem doIf_true (f : Work → Work) (w : Work) : doIf true f w = f w := rfl
@[simp] theorem doIf_false (f : Work → Work) (w : Work) : doIf false f w = w := rfl

/-- A shared operation that runs under a condition keeps what the operation keeps. -/
theorem doIf_keeps {α : Type} (g : Work → α) (c : Bool) (f : Work → Work) (w : Work) (h : g (f w) = g w) :
    g (doIf c f w) = g w := by cases c <;> simp [h]

/-- A loop keeps what each of its steps keeps. -/
theorem forAll_keeps {α β : Type} (g : Work → β) (f : α → Work → Work) (h : ∀ a w, g (f a w) = g w) (l : List α) (w : Work) :
    g (forAll l f w) = g w := by
  induction l generalizing w with
  | nil => rfl
  | cons a l ih => simpa [forAll, h] using ih (f a w)

/-- The three outcomes of a command. -/
theorem perform_next (f : Work → Work) (s : State) : perform true true f s = nextOf s f := rfl
theorem perform_absent (f : Work → Work) (s : State) : perform true false f s = .fault .absentUnit := rfl
theorem perform_malformed (there : Bool) (f : Work → Work) (s : State) : perform false there f s = .refused .malformed := rfl

/-- What a command that answers a next state has done. -/
theorem perform_cases {ok there : Bool} {f : Work → Work} {s t : State} (h : perform ok there f s = .next t) :
    ok = true ∧ there = true ∧ t = commitWork s (f (workOf s)) := by
  cases ok <;> cases there <;> simp_all [perform]

@[simp] theorem commitWork_pending (s : State) (w : Work) : (commitWork s w).pending = s.pending := rfl
@[simp] theorem commitWork_blk (s : State) (w : Work) : (commitWork s w).blk = w.toBlk := rfl
@[simp] theorem commitWork_mem (s : State) (w : Work) : (commitWork s w).mem = memPutAll s.mem w.wr := rfl

@[simp] theorem workOf_fuses (s : State) : (workOf s).fuses = s.blk.fuses := rfl
@[simp] theorem workOf_dev (s : State) : (workOf s).dev = s.blk.dev := rfl
@[simp] theorem workOf_time (s : State) : (workOf s).time = s.blk.time := rfl
@[simp] theorem workOf_od (s : State) : (workOf s).od = s.blk.od := rfl
@[simp] theorem workOf_coll (s : State) : (workOf s).coll = s.blk.coll := rfl
@[simp] theorem workOf_log (s : State) : (workOf s).log = s.blk.log := rfl
@[simp] theorem workOf_engines (s : State) : (workOf s).engines = s.blk.engines := rfl
@[simp] theorem workOf_tileq (s : State) : (workOf s).tileq = s.blk.tileq := rfl
@[simp] theorem workOf_syncs (s : State) : (workOf s).syncs = s.blk.syncs := rfl
@[simp] theorem workOf_images (s : State) : (workOf s).images = s.blk.images := rfl
@[simp] theorem workOf_slices (s : State) : (workOf s).slices = s.blk.slices := rfl
@[simp] theorem workOf_ctxs (s : State) : (workOf s).ctxs = s.blk.ctxs := rfl
@[simp] theorem workOf_quads (s : State) : (workOf s).quads = s.blk.quads := rfl
@[simp] theorem workOf_free (s : State) : (workOf s).free = s.blk.free := rfl
@[simp] theorem workOf_links (s : State) : (workOf s).links = s.blk.links := rfl
@[simp] theorem workOf_chans (s : State) : (workOf s).chans = s.blk.chans := rfl
@[simp] theorem workOf_res (s : State) : (workOf s).res = s.blk.res := rfl
@[simp] theorem workOf_sched (s : State) : (workOf s).sched = s.blk.sched := rfl
@[simp] theorem workOf_pow (s : State) : (workOf s).pow = s.blk.pow := rfl
@[simp] theorem workOf_pins (s : State) : (workOf s).pins = s.blk.pins := rfl
@[simp] theorem workOf_tm (s : State) : (workOf s).tm = s.blk.tm := rfl
@[simp] theorem workOf_ingest (s : State) : (workOf s).ingest = s.blk.ingest := rfl
@[simp] theorem workOf_guard (s : State) : (workOf s).guard = s.blk.guard := rfl
@[simp] theorem workOf_casc (s : State) : (workOf s).casc = s.blk.casc := rfl
@[simp] theorem workOf_cores (s : State) : (workOf s).cores = s.blk.cores := rfl
@[simp] theorem workOf_safe (s : State) : (workOf s).safe = s.blk.safe := rfl
@[simp] theorem workOf_rst (s : State) : (workOf s).rst = s.blk.rst := rfl
@[simp] theorem workOf_tap (s : State) : (workOf s).tap = s.blk.tap := rfl
@[simp] theorem workOf_issues (s : State) : (workOf s).issues = s.blk.issues := rfl
@[simp] theorem workOf_closed (s : State) : (workOf s).closed = [] := rfl
@[simp] theorem workOf_out (s : State) : (workOf s).out = [] := rfl
@[simp] theorem workOf_mem (s : State) : (workOf s).mem = s.mem := rfl
@[simp] theorem workOf_wr (s : State) : (workOf s).wr = [] := rfl

/-! ## The collector and the log -/

/-- What sendEvent keeps, all at once. -/
theorem sendEvent_keeps (w : Work) :
    (sendEvent w).fuses = w.fuses ∧ (sendEvent w).dev = w.dev ∧ (sendEvent w).time = w.time ∧
    (sendEvent w).od = w.od ∧ (sendEvent w).coll = w.coll ∧ (sendEvent w).log = w.log ∧
    (sendEvent w).engines = w.engines ∧ (sendEvent w).tileq = w.tileq ∧ (sendEvent w).syncs = w.syncs ∧
    (sendEvent w).images = w.images ∧ (sendEvent w).slices = w.slices ∧ (sendEvent w).ctxs = w.ctxs ∧
    (sendEvent w).quads = w.quads ∧ (sendEvent w).free = w.free ∧ (sendEvent w).links = w.links ∧
    (sendEvent w).chans = w.chans ∧ (sendEvent w).res = w.res ∧ (sendEvent w).sched = w.sched ∧
    (sendEvent w).pow = w.pow ∧ (sendEvent w).pins = w.pins ∧ (sendEvent w).tm = w.tm ∧
    (sendEvent w).ingest = w.ingest ∧ (sendEvent w).guard = w.guard ∧ (sendEvent w).casc = w.casc ∧
    (sendEvent w).cores = w.cores ∧ (sendEvent w).safe = w.safe ∧ (sendEvent w).rst = w.rst ∧
    (sendEvent w).tap = w.tap ∧ (sendEvent w).mem = w.mem ∧ (sendEvent w).wr = w.wr := by
  simp only [sendEvent, doIf]; (repeat' split) <;> and_intros <;> rfl
@[simp] theorem sendEvent_issues (w : Work) : (sendEvent w).issues = w.issues := by
  simp only [sendEvent, doIf]; (repeat' split) <;> rfl
@[simp] theorem sendEvent_closed (w : Work) : (sendEvent w).closed = w.closed := by
  simp only [sendEvent, doIf]; (repeat' split) <;> rfl
@[simp] theorem sendEvent_fuses  (w : Work) : (sendEvent w).fuses = w.fuses :=
  (sendEvent_keeps w).1
@[simp] theorem sendEvent_dev  (w : Work) : (sendEvent w).dev = w.dev :=
  (sendEvent_keeps w).2.1
@[simp] theorem sendEvent_time  (w : Work) : (sendEvent w).time = w.time :=
  (sendEvent_keeps w).2.2.1
@[simp] theorem sendEvent_od  (w : Work) : (sendEvent w).od = w.od :=
  (sendEvent_keeps w).2.2.2.1
@[simp] theorem sendEvent_coll  (w : Work) : (sendEvent w).coll = w.coll :=
  (sendEvent_keeps w).2.2.2.2.1
@[simp] theorem sendEvent_log  (w : Work) : (sendEvent w).log = w.log :=
  (sendEvent_keeps w).2.2.2.2.2.1
@[simp] theorem sendEvent_engines  (w : Work) : (sendEvent w).engines = w.engines :=
  (sendEvent_keeps w).2.2.2.2.2.2.1
@[simp] theorem sendEvent_tileq  (w : Work) : (sendEvent w).tileq = w.tileq :=
  (sendEvent_keeps w).2.2.2.2.2.2.2.1
@[simp] theorem sendEvent_syncs  (w : Work) : (sendEvent w).syncs = w.syncs :=
  (sendEvent_keeps w).2.2.2.2.2.2.2.2.1
@[simp] theorem sendEvent_images  (w : Work) : (sendEvent w).images = w.images :=
  (sendEvent_keeps w).2.2.2.2.2.2.2.2.2.1
@[simp] theorem sendEvent_slices  (w : Work) : (sendEvent w).slices = w.slices :=
  (sendEvent_keeps w).2.2.2.2.2.2.2.2.2.2.1
@[simp] theorem sendEvent_ctxs  (w : Work) : (sendEvent w).ctxs = w.ctxs :=
  (sendEvent_keeps w).2.2.2.2.2.2.2.2.2.2.2.1
@[simp] theorem sendEvent_quads  (w : Work) : (sendEvent w).quads = w.quads :=
  (sendEvent_keeps w).2.2.2.2.2.2.2.2.2.2.2.2.1
@[simp] theorem sendEvent_free  (w : Work) : (sendEvent w).free = w.free :=
  (sendEvent_keeps w).2.2.2.2.2.2.2.2.2.2.2.2.2.1
@[simp] theorem sendEvent_links  (w : Work) : (sendEvent w).links = w.links :=
  (sendEvent_keeps w).2.2.2.2.2.2.2.2.2.2.2.2.2.2.1
@[simp] theorem sendEvent_chans  (w : Work) : (sendEvent w).chans = w.chans :=
  (sendEvent_keeps w).2.2.2.2.2.2.2.2.2.2.2.2.2.2.2.1
@[simp] theorem sendEvent_res  (w : Work) : (sendEvent w).res = w.res :=
  (sendEvent_keeps w).2.2.2.2.2.2.2.2.2.2.2.2.2.2.2.2.1
@[simp] theorem sendEvent_sched  (w : Work) : (sendEvent w).sched = w.sched :=
  (sendEvent_keeps w).2.2.2.2.2.2.2.2.2.2.2.2.2.2.2.2.2.1
@[simp] theorem sendEvent_pow  (w : Work) : (sendEvent w).pow = w.pow :=
  (sendEvent_keeps w).2.2.2.2.2.2.2.2.2.2.2.2.2.2.2.2.2.2.1
@[simp] theorem sendEvent_pins  (w : Work) : (sendEvent w).pins = w.pins :=
  (sendEvent_keeps w).2.2.2.2.2.2.2.2.2.2.2.2.2.2.2.2.2.2.2.1
@[simp] theorem sendEvent_tm  (w : Work) : (sendEvent w).tm = w.tm :=
  (sendEvent_keeps w).2.2.2.2.2.2.2.2.2.2.2.2.2.2.2.2.2.2.2.2.1
@[simp] theorem sendEvent_ingest  (w : Work) : (sendEvent w).ingest = w.ingest :=
  (sendEvent_keeps w).2.2.2.2.2.2.2.2.2.2.2.2.2.2.2.2.2.2.2.2.2.1
@[simp] theorem sendEvent_guard  (w : Work) : (sendEvent w).guard = w.guard :=
  (sendEvent_keeps w).2.2.2.2.2.2.2.2.2.2.2.2.2.2.2.2.2.2.2.2.2.2.1
@[simp] theorem sendEvent_casc  (w : Work) : (sendEvent w).casc = w.casc :=
  (sendEvent_keeps w).2.2.2.2.2.2.2.2.2.2.2.2.2.2.2.2.2.2.2.2.2.2.2.1
@[simp] theorem sendEvent_cores  (w : Work) : (sendEvent w).cores = w.cores :=
  (sendEvent_keeps w).2.2.2.2.2.2.2.2.2.2.2.2.2.2.2.2.2.2.2.2.2.2.2.2.1
@[simp] theorem sendEvent_safe  (w : Work) : (sendEvent w).safe = w.safe :=
  (sendEvent_keeps w).2.2.2.2.2.2.2.2.2.2.2.2.2.2.2.2.2.2.2.2.2.2.2.2.2.1
@[simp] theorem sendEvent_rst  (w : Work) : (sendEvent w).rst = w.rst :=
  (sendEvent_keeps w).2.2.2.2.2.2.2.2.2.2.2.2.2.2.2.2.2.2.2.2.2.2.2.2.2.2.1
@[simp] theorem sendEvent_tap  (w : Work) : (sendEvent w).tap = w.tap :=
  (sendEvent_keeps w).2.2.2.2.2.2.2.2.2.2.2.2.2.2.2.2.2.2.2.2.2.2.2.2.2.2.2.1
@[simp] theorem sendEvent_mem  (w : Work) : (sendEvent w).mem = w.mem :=
  (sendEvent_keeps w).2.2.2.2.2.2.2.2.2.2.2.2.2.2.2.2.2.2.2.2.2.2.2.2.2.2.2.2.1
@[simp] theorem sendEvent_wr  (w : Work) : (sendEvent w).wr = w.wr :=
  (sendEvent_keeps w).2.2.2.2.2.2.2.2.2.2.2.2.2.2.2.2.2.2.2.2.2.2.2.2.2.2.2.2.2

/-- What irqRaise keeps, all at once. -/
theorem irqRaise_keeps (i : Nat) (w : Work) :
    (irqRaise i w).fuses = w.fuses ∧ (irqRaise i w).dev = w.dev ∧ (irqRaise i w).time = w.time ∧
    (irqRaise i w).od = w.od ∧ (irqRaise i w).coll = w.coll ∧ (irqRaise i w).log = w.log ∧
    (irqRaise i w).engines = w.engines ∧ (irqRaise i w).tileq = w.tileq ∧ (irqRaise i w).syncs = w.syncs ∧
    (irqRaise i w).images = w.images ∧ (irqRaise i w).slices = w.slices ∧ (irqRaise i w).ctxs = w.ctxs ∧
    (irqRaise i w).quads = w.quads ∧ (irqRaise i w).free = w.free ∧ (irqRaise i w).chans = w.chans ∧
    (irqRaise i w).res = w.res ∧ (irqRaise i w).sched = w.sched ∧ (irqRaise i w).pow = w.pow ∧
    (irqRaise i w).pins = w.pins ∧ (irqRaise i w).tm = w.tm ∧ (irqRaise i w).ingest = w.ingest ∧
    (irqRaise i w).guard = w.guard ∧ (irqRaise i w).casc = w.casc ∧ (irqRaise i w).cores = w.cores ∧
    (irqRaise i w).safe = w.safe ∧ (irqRaise i w).rst = w.rst ∧ (irqRaise i w).tap = w.tap ∧
    (irqRaise i w).mem = w.mem ∧ (irqRaise i w).wr = w.wr ∧ (irqRaise i w).links.stages = w.links.stages ∧
    (irqRaise i w).links.orders = w.links.orders ∧ (irqRaise i w).links.usb = w.links.usb ∧
    (irqRaise i w).links.udp = w.links.udp ∧ (irqRaise i w).links.can = w.links.can ∧
    (irqRaise i w).links.ssfCount = w.links.ssfCount ∧ (irqRaise i w).links.effects = w.links.effects ∧
    (irqRaise i w).links.gcl = w.links.gcl ∧ (irqRaise i w).links.silent = w.links.silent ∧
    (irqRaise i w).links.joint = w.links.joint := by
  simp only [irqRaise, doIf]; split <;> simp
@[simp] theorem irqRaise_issues (i : Nat) (w : Work) : (irqRaise i w).issues = w.issues := by
  simp only [irqRaise, doIf]; split <;> simp
@[simp] theorem irqRaise_closed (i : Nat) (w : Work) : (irqRaise i w).closed = w.closed := by
  simp only [irqRaise, doIf]; split <;> simp
@[simp] theorem irqRaise_fuses (i : Nat) (w : Work) : (irqRaise i w).fuses = w.fuses :=
  (irqRaise_keeps i w).1
@[simp] theorem irqRaise_dev (i : Nat) (w : Work) : (irqRaise i w).dev = w.dev :=
  (irqRaise_keeps i w).2.1
@[simp] theorem irqRaise_time (i : Nat) (w : Work) : (irqRaise i w).time = w.time :=
  (irqRaise_keeps i w).2.2.1
@[simp] theorem irqRaise_od (i : Nat) (w : Work) : (irqRaise i w).od = w.od :=
  (irqRaise_keeps i w).2.2.2.1
@[simp] theorem irqRaise_coll (i : Nat) (w : Work) : (irqRaise i w).coll = w.coll :=
  (irqRaise_keeps i w).2.2.2.2.1
@[simp] theorem irqRaise_log (i : Nat) (w : Work) : (irqRaise i w).log = w.log :=
  (irqRaise_keeps i w).2.2.2.2.2.1
@[simp] theorem irqRaise_engines (i : Nat) (w : Work) : (irqRaise i w).engines = w.engines :=
  (irqRaise_keeps i w).2.2.2.2.2.2.1
@[simp] theorem irqRaise_tileq (i : Nat) (w : Work) : (irqRaise i w).tileq = w.tileq :=
  (irqRaise_keeps i w).2.2.2.2.2.2.2.1
@[simp] theorem irqRaise_syncs (i : Nat) (w : Work) : (irqRaise i w).syncs = w.syncs :=
  (irqRaise_keeps i w).2.2.2.2.2.2.2.2.1
@[simp] theorem irqRaise_images (i : Nat) (w : Work) : (irqRaise i w).images = w.images :=
  (irqRaise_keeps i w).2.2.2.2.2.2.2.2.2.1
@[simp] theorem irqRaise_slices (i : Nat) (w : Work) : (irqRaise i w).slices = w.slices :=
  (irqRaise_keeps i w).2.2.2.2.2.2.2.2.2.2.1
@[simp] theorem irqRaise_ctxs (i : Nat) (w : Work) : (irqRaise i w).ctxs = w.ctxs :=
  (irqRaise_keeps i w).2.2.2.2.2.2.2.2.2.2.2.1
@[simp] theorem irqRaise_quads (i : Nat) (w : Work) : (irqRaise i w).quads = w.quads :=
  (irqRaise_keeps i w).2.2.2.2.2.2.2.2.2.2.2.2.1
@[simp] theorem irqRaise_free (i : Nat) (w : Work) : (irqRaise i w).free = w.free :=
  (irqRaise_keeps i w).2.2.2.2.2.2.2.2.2.2.2.2.2.1
@[simp] theorem irqRaise_chans (i : Nat) (w : Work) : (irqRaise i w).chans = w.chans :=
  (irqRaise_keeps i w).2.2.2.2.2.2.2.2.2.2.2.2.2.2.1
@[simp] theorem irqRaise_res (i : Nat) (w : Work) : (irqRaise i w).res = w.res :=
  (irqRaise_keeps i w).2.2.2.2.2.2.2.2.2.2.2.2.2.2.2.1
@[simp] theorem irqRaise_sched (i : Nat) (w : Work) : (irqRaise i w).sched = w.sched :=
  (irqRaise_keeps i w).2.2.2.2.2.2.2.2.2.2.2.2.2.2.2.2.1
@[simp] theorem irqRaise_pow (i : Nat) (w : Work) : (irqRaise i w).pow = w.pow :=
  (irqRaise_keeps i w).2.2.2.2.2.2.2.2.2.2.2.2.2.2.2.2.2.1
@[simp] theorem irqRaise_pins (i : Nat) (w : Work) : (irqRaise i w).pins = w.pins :=
  (irqRaise_keeps i w).2.2.2.2.2.2.2.2.2.2.2.2.2.2.2.2.2.2.1
@[simp] theorem irqRaise_tm (i : Nat) (w : Work) : (irqRaise i w).tm = w.tm :=
  (irqRaise_keeps i w).2.2.2.2.2.2.2.2.2.2.2.2.2.2.2.2.2.2.2.1
@[simp] theorem irqRaise_ingest (i : Nat) (w : Work) : (irqRaise i w).ingest = w.ingest :=
  (irqRaise_keeps i w).2.2.2.2.2.2.2.2.2.2.2.2.2.2.2.2.2.2.2.2.1
@[simp] theorem irqRaise_guard (i : Nat) (w : Work) : (irqRaise i w).guard = w.guard :=
  (irqRaise_keeps i w).2.2.2.2.2.2.2.2.2.2.2.2.2.2.2.2.2.2.2.2.2.1
@[simp] theorem irqRaise_casc (i : Nat) (w : Work) : (irqRaise i w).casc = w.casc :=
  (irqRaise_keeps i w).2.2.2.2.2.2.2.2.2.2.2.2.2.2.2.2.2.2.2.2.2.2.1
@[simp] theorem irqRaise_cores (i : Nat) (w : Work) : (irqRaise i w).cores = w.cores :=
  (irqRaise_keeps i w).2.2.2.2.2.2.2.2.2.2.2.2.2.2.2.2.2.2.2.2.2.2.2.1
@[simp] theorem irqRaise_safe (i : Nat) (w : Work) : (irqRaise i w).safe = w.safe :=
  (irqRaise_keeps i w).2.2.2.2.2.2.2.2.2.2.2.2.2.2.2.2.2.2.2.2.2.2.2.2.1
@[simp] theorem irqRaise_rst (i : Nat) (w : Work) : (irqRaise i w).rst = w.rst :=
  (irqRaise_keeps i w).2.2.2.2.2.2.2.2.2.2.2.2.2.2.2.2.2.2.2.2.2.2.2.2.2.1
@[simp] theorem irqRaise_tap (i : Nat) (w : Work) : (irqRaise i w).tap = w.tap :=
  (irqRaise_keeps i w).2.2.2.2.2.2.2.2.2.2.2.2.2.2.2.2.2.2.2.2.2.2.2.2.2.2.1
@[simp] theorem irqRaise_mem (i : Nat) (w : Work) : (irqRaise i w).mem = w.mem :=
  (irqRaise_keeps i w).2.2.2.2.2.2.2.2.2.2.2.2.2.2.2.2.2.2.2.2.2.2.2.2.2.2.2.1
@[simp] theorem irqRaise_wr (i : Nat) (w : Work) : (irqRaise i w).wr = w.wr :=
  (irqRaise_keeps i w).2.2.2.2.2.2.2.2.2.2.2.2.2.2.2.2.2.2.2.2.2.2.2.2.2.2.2.2.1
@[simp] theorem irqRaise_links_stages (i : Nat) (w : Work) : (irqRaise i w).links.stages = w.links.stages :=
  (irqRaise_keeps i w).2.2.2.2.2.2.2.2.2.2.2.2.2.2.2.2.2.2.2.2.2.2.2.2.2.2.2.2.2.1
@[simp] theorem irqRaise_links_orders (i : Nat) (w : Work) : (irqRaise i w).links.orders = w.links.orders :=
  (irqRaise_keeps i w).2.2.2.2.2.2.2.2.2.2.2.2.2.2.2.2.2.2.2.2.2.2.2.2.2.2.2.2.2.2.1
@[simp] theorem irqRaise_links_usb (i : Nat) (w : Work) : (irqRaise i w).links.usb = w.links.usb :=
  (irqRaise_keeps i w).2.2.2.2.2.2.2.2.2.2.2.2.2.2.2.2.2.2.2.2.2.2.2.2.2.2.2.2.2.2.2.1
@[simp] theorem irqRaise_links_udp (i : Nat) (w : Work) : (irqRaise i w).links.udp = w.links.udp :=
  (irqRaise_keeps i w).2.2.2.2.2.2.2.2.2.2.2.2.2.2.2.2.2.2.2.2.2.2.2.2.2.2.2.2.2.2.2.2.1
@[simp] theorem irqRaise_links_can (i : Nat) (w : Work) : (irqRaise i w).links.can = w.links.can :=
  (irqRaise_keeps i w).2.2.2.2.2.2.2.2.2.2.2.2.2.2.2.2.2.2.2.2.2.2.2.2.2.2.2.2.2.2.2.2.2.1
@[simp] theorem irqRaise_links_ssfCount (i : Nat) (w : Work) : (irqRaise i w).links.ssfCount = w.links.ssfCount :=
  (irqRaise_keeps i w).2.2.2.2.2.2.2.2.2.2.2.2.2.2.2.2.2.2.2.2.2.2.2.2.2.2.2.2.2.2.2.2.2.2.1
@[simp] theorem irqRaise_links_effects (i : Nat) (w : Work) : (irqRaise i w).links.effects = w.links.effects :=
  (irqRaise_keeps i w).2.2.2.2.2.2.2.2.2.2.2.2.2.2.2.2.2.2.2.2.2.2.2.2.2.2.2.2.2.2.2.2.2.2.2.1
@[simp] theorem irqRaise_links_gcl (i : Nat) (w : Work) : (irqRaise i w).links.gcl = w.links.gcl :=
  (irqRaise_keeps i w).2.2.2.2.2.2.2.2.2.2.2.2.2.2.2.2.2.2.2.2.2.2.2.2.2.2.2.2.2.2.2.2.2.2.2.2.1
@[simp] theorem irqRaise_links_silent (i : Nat) (w : Work) : (irqRaise i w).links.silent = w.links.silent :=
  (irqRaise_keeps i w).2.2.2.2.2.2.2.2.2.2.2.2.2.2.2.2.2.2.2.2.2.2.2.2.2.2.2.2.2.2.2.2.2.2.2.2.2.1
@[simp] theorem irqRaise_links_joint (i : Nat) (w : Work) : (irqRaise i w).links.joint = w.links.joint :=
  (irqRaise_keeps i w).2.2.2.2.2.2.2.2.2.2.2.2.2.2.2.2.2.2.2.2.2.2.2.2.2.2.2.2.2.2.2.2.2.2.2.2.2.2

/-- What logWrite keeps, all at once. -/
theorem logWrite_keeps (level origin point : Nat) (args : List Nat) (w : Work) :
    (logWrite level origin point args w).fuses = w.fuses ∧ (logWrite level origin point args w).dev = w.dev ∧
    (logWrite level origin point args w).time = w.time ∧ (logWrite level origin point args w).coll = w.coll ∧
    (logWrite level origin point args w).engines = w.engines ∧ (logWrite level origin point args w).tileq = w.tileq ∧
    (logWrite level origin point args w).syncs = w.syncs ∧ (logWrite level origin point args w).images = w.images ∧
    (logWrite level origin point args w).slices = w.slices ∧ (logWrite level origin point args w).ctxs = w.ctxs ∧
    (logWrite level origin point args w).quads = w.quads ∧ (logWrite level origin point args w).free = w.free ∧
    (logWrite level origin point args w).links = w.links ∧ (logWrite level origin point args w).chans = w.chans ∧
    (logWrite level origin point args w).res = w.res ∧ (logWrite level origin point args w).sched = w.sched ∧
    (logWrite level origin point args w).pow = w.pow ∧ (logWrite level origin point args w).pins = w.pins ∧
    (logWrite level origin point args w).tm = w.tm ∧ (logWrite level origin point args w).ingest = w.ingest ∧
    (logWrite level origin point args w).guard = w.guard ∧ (logWrite level origin point args w).casc = w.casc ∧
    (logWrite level origin point args w).cores = w.cores ∧ (logWrite level origin point args w).safe = w.safe ∧
    (logWrite level origin point args w).rst = w.rst ∧ (logWrite level origin point args w).tap = w.tap ∧
    (logWrite level origin point args w).mem = w.mem ∧ (logWrite level origin point args w).wr = w.wr := by
  simp only [logWrite, doIf]; (repeat' split) <;> simp
@[simp] theorem logWrite_issues (level origin point : Nat) (args : List Nat) (w : Work) : (logWrite level origin point args w).issues = w.issues := by
  simp only [logWrite, doIf]; (repeat' split) <;> simp
@[simp] theorem logWrite_closed (level origin point : Nat) (args : List Nat) (w : Work) : (logWrite level origin point args w).closed = w.closed := by
  simp only [logWrite, doIf]; (repeat' split) <;> simp
@[simp] theorem logWrite_fuses (level origin point : Nat) (args : List Nat) (w : Work) : (logWrite level origin point args w).fuses = w.fuses :=
  (logWrite_keeps level origin point args w).1
@[simp] theorem logWrite_dev (level origin point : Nat) (args : List Nat) (w : Work) : (logWrite level origin point args w).dev = w.dev :=
  (logWrite_keeps level origin point args w).2.1
@[simp] theorem logWrite_time (level origin point : Nat) (args : List Nat) (w : Work) : (logWrite level origin point args w).time = w.time :=
  (logWrite_keeps level origin point args w).2.2.1
@[simp] theorem logWrite_coll (level origin point : Nat) (args : List Nat) (w : Work) : (logWrite level origin point args w).coll = w.coll :=
  (logWrite_keeps level origin point args w).2.2.2.1
@[simp] theorem logWrite_engines (level origin point : Nat) (args : List Nat) (w : Work) : (logWrite level origin point args w).engines = w.engines :=
  (logWrite_keeps level origin point args w).2.2.2.2.1
@[simp] theorem logWrite_tileq (level origin point : Nat) (args : List Nat) (w : Work) : (logWrite level origin point args w).tileq = w.tileq :=
  (logWrite_keeps level origin point args w).2.2.2.2.2.1
@[simp] theorem logWrite_syncs (level origin point : Nat) (args : List Nat) (w : Work) : (logWrite level origin point args w).syncs = w.syncs :=
  (logWrite_keeps level origin point args w).2.2.2.2.2.2.1
@[simp] theorem logWrite_images (level origin point : Nat) (args : List Nat) (w : Work) : (logWrite level origin point args w).images = w.images :=
  (logWrite_keeps level origin point args w).2.2.2.2.2.2.2.1
@[simp] theorem logWrite_slices (level origin point : Nat) (args : List Nat) (w : Work) : (logWrite level origin point args w).slices = w.slices :=
  (logWrite_keeps level origin point args w).2.2.2.2.2.2.2.2.1
@[simp] theorem logWrite_ctxs (level origin point : Nat) (args : List Nat) (w : Work) : (logWrite level origin point args w).ctxs = w.ctxs :=
  (logWrite_keeps level origin point args w).2.2.2.2.2.2.2.2.2.1
@[simp] theorem logWrite_quads (level origin point : Nat) (args : List Nat) (w : Work) : (logWrite level origin point args w).quads = w.quads :=
  (logWrite_keeps level origin point args w).2.2.2.2.2.2.2.2.2.2.1
@[simp] theorem logWrite_free (level origin point : Nat) (args : List Nat) (w : Work) : (logWrite level origin point args w).free = w.free :=
  (logWrite_keeps level origin point args w).2.2.2.2.2.2.2.2.2.2.2.1
@[simp] theorem logWrite_links (level origin point : Nat) (args : List Nat) (w : Work) : (logWrite level origin point args w).links = w.links :=
  (logWrite_keeps level origin point args w).2.2.2.2.2.2.2.2.2.2.2.2.1
@[simp] theorem logWrite_chans (level origin point : Nat) (args : List Nat) (w : Work) : (logWrite level origin point args w).chans = w.chans :=
  (logWrite_keeps level origin point args w).2.2.2.2.2.2.2.2.2.2.2.2.2.1
@[simp] theorem logWrite_res (level origin point : Nat) (args : List Nat) (w : Work) : (logWrite level origin point args w).res = w.res :=
  (logWrite_keeps level origin point args w).2.2.2.2.2.2.2.2.2.2.2.2.2.2.1
@[simp] theorem logWrite_sched (level origin point : Nat) (args : List Nat) (w : Work) : (logWrite level origin point args w).sched = w.sched :=
  (logWrite_keeps level origin point args w).2.2.2.2.2.2.2.2.2.2.2.2.2.2.2.1
@[simp] theorem logWrite_pow (level origin point : Nat) (args : List Nat) (w : Work) : (logWrite level origin point args w).pow = w.pow :=
  (logWrite_keeps level origin point args w).2.2.2.2.2.2.2.2.2.2.2.2.2.2.2.2.1
@[simp] theorem logWrite_pins (level origin point : Nat) (args : List Nat) (w : Work) : (logWrite level origin point args w).pins = w.pins :=
  (logWrite_keeps level origin point args w).2.2.2.2.2.2.2.2.2.2.2.2.2.2.2.2.2.1
@[simp] theorem logWrite_tm (level origin point : Nat) (args : List Nat) (w : Work) : (logWrite level origin point args w).tm = w.tm :=
  (logWrite_keeps level origin point args w).2.2.2.2.2.2.2.2.2.2.2.2.2.2.2.2.2.2.1
@[simp] theorem logWrite_ingest (level origin point : Nat) (args : List Nat) (w : Work) : (logWrite level origin point args w).ingest = w.ingest :=
  (logWrite_keeps level origin point args w).2.2.2.2.2.2.2.2.2.2.2.2.2.2.2.2.2.2.2.1
@[simp] theorem logWrite_guard (level origin point : Nat) (args : List Nat) (w : Work) : (logWrite level origin point args w).guard = w.guard :=
  (logWrite_keeps level origin point args w).2.2.2.2.2.2.2.2.2.2.2.2.2.2.2.2.2.2.2.2.1
@[simp] theorem logWrite_casc (level origin point : Nat) (args : List Nat) (w : Work) : (logWrite level origin point args w).casc = w.casc :=
  (logWrite_keeps level origin point args w).2.2.2.2.2.2.2.2.2.2.2.2.2.2.2.2.2.2.2.2.2.1
@[simp] theorem logWrite_cores (level origin point : Nat) (args : List Nat) (w : Work) : (logWrite level origin point args w).cores = w.cores :=
  (logWrite_keeps level origin point args w).2.2.2.2.2.2.2.2.2.2.2.2.2.2.2.2.2.2.2.2.2.2.1
@[simp] theorem logWrite_safe (level origin point : Nat) (args : List Nat) (w : Work) : (logWrite level origin point args w).safe = w.safe :=
  (logWrite_keeps level origin point args w).2.2.2.2.2.2.2.2.2.2.2.2.2.2.2.2.2.2.2.2.2.2.2.1
@[simp] theorem logWrite_rst (level origin point : Nat) (args : List Nat) (w : Work) : (logWrite level origin point args w).rst = w.rst :=
  (logWrite_keeps level origin point args w).2.2.2.2.2.2.2.2.2.2.2.2.2.2.2.2.2.2.2.2.2.2.2.2.1
@[simp] theorem logWrite_tap (level origin point : Nat) (args : List Nat) (w : Work) : (logWrite level origin point args w).tap = w.tap :=
  (logWrite_keeps level origin point args w).2.2.2.2.2.2.2.2.2.2.2.2.2.2.2.2.2.2.2.2.2.2.2.2.2.1
@[simp] theorem logWrite_mem (level origin point : Nat) (args : List Nat) (w : Work) : (logWrite level origin point args w).mem = w.mem :=
  (logWrite_keeps level origin point args w).2.2.2.2.2.2.2.2.2.2.2.2.2.2.2.2.2.2.2.2.2.2.2.2.2.2.1
@[simp] theorem logWrite_wr (level origin point : Nat) (args : List Nat) (w : Work) : (logWrite level origin point args w).wr = w.wr :=
  (logWrite_keeps level origin point args w).2.2.2.2.2.2.2.2.2.2.2.2.2.2.2.2.2.2.2.2.2.2.2.2.2.2.2

/-- What countEvent keeps, all at once. -/
theorem countEvent_keeps (source : Nat) (w : Work) :
    (countEvent source w).fuses = w.fuses ∧ (countEvent source w).dev = w.dev ∧ (countEvent source w).time = w.time ∧
    (countEvent source w).coll = w.coll ∧ (countEvent source w).log = w.log ∧
    (countEvent source w).engines = w.engines ∧ (countEvent source w).tileq = w.tileq ∧
    (countEvent source w).syncs = w.syncs ∧ (countEvent source w).images = w.images ∧
    (countEvent source w).slices = w.slices ∧ (countEvent source w).ctxs = w.ctxs ∧
    (countEvent source w).quads = w.quads ∧ (countEvent source w).out = w.out ∧ (countEvent source w).free = w.free ∧
    (countEvent source w).links = w.links ∧ (countEvent source w).chans = w.chans ∧
    (countEvent source w).res = w.res ∧ (countEvent source w).sched = w.sched ∧ (countEvent source w).pow = w.pow ∧
    (countEvent source w).pins = w.pins ∧ (countEvent source w).tm = w.tm ∧ (countEvent source w).ingest = w.ingest ∧
    (countEvent source w).guard = w.guard ∧ (countEvent source w).casc = w.casc ∧
    (countEvent source w).cores = w.cores ∧ (countEvent source w).safe = w.safe ∧ (countEvent source w).rst = w.rst ∧
    (countEvent source w).tap = w.tap ∧ (countEvent source w).mem = w.mem ∧ (countEvent source w).wr = w.wr := by
  simp [countEvent]
@[simp] theorem countEvent_issues (source : Nat) (w : Work) : (countEvent source w).issues = w.issues := by
  simp [countEvent]
@[simp] theorem countEvent_closed (source : Nat) (w : Work) : (countEvent source w).closed = w.closed := by
  simp [countEvent]
@[simp] theorem countEvent_fuses (source : Nat) (w : Work) : (countEvent source w).fuses = w.fuses :=
  (countEvent_keeps source w).1
@[simp] theorem countEvent_dev (source : Nat) (w : Work) : (countEvent source w).dev = w.dev :=
  (countEvent_keeps source w).2.1
@[simp] theorem countEvent_time (source : Nat) (w : Work) : (countEvent source w).time = w.time :=
  (countEvent_keeps source w).2.2.1
@[simp] theorem countEvent_coll (source : Nat) (w : Work) : (countEvent source w).coll = w.coll :=
  (countEvent_keeps source w).2.2.2.1
@[simp] theorem countEvent_log (source : Nat) (w : Work) : (countEvent source w).log = w.log :=
  (countEvent_keeps source w).2.2.2.2.1
@[simp] theorem countEvent_engines (source : Nat) (w : Work) : (countEvent source w).engines = w.engines :=
  (countEvent_keeps source w).2.2.2.2.2.1
@[simp] theorem countEvent_tileq (source : Nat) (w : Work) : (countEvent source w).tileq = w.tileq :=
  (countEvent_keeps source w).2.2.2.2.2.2.1
@[simp] theorem countEvent_syncs (source : Nat) (w : Work) : (countEvent source w).syncs = w.syncs :=
  (countEvent_keeps source w).2.2.2.2.2.2.2.1
@[simp] theorem countEvent_images (source : Nat) (w : Work) : (countEvent source w).images = w.images :=
  (countEvent_keeps source w).2.2.2.2.2.2.2.2.1
@[simp] theorem countEvent_slices (source : Nat) (w : Work) : (countEvent source w).slices = w.slices :=
  (countEvent_keeps source w).2.2.2.2.2.2.2.2.2.1
@[simp] theorem countEvent_ctxs (source : Nat) (w : Work) : (countEvent source w).ctxs = w.ctxs :=
  (countEvent_keeps source w).2.2.2.2.2.2.2.2.2.2.1
@[simp] theorem countEvent_quads (source : Nat) (w : Work) : (countEvent source w).quads = w.quads :=
  (countEvent_keeps source w).2.2.2.2.2.2.2.2.2.2.2.1
@[simp] theorem countEvent_out (source : Nat) (w : Work) : (countEvent source w).out = w.out :=
  (countEvent_keeps source w).2.2.2.2.2.2.2.2.2.2.2.2.1
@[simp] theorem countEvent_free (source : Nat) (w : Work) : (countEvent source w).free = w.free :=
  (countEvent_keeps source w).2.2.2.2.2.2.2.2.2.2.2.2.2.1
@[simp] theorem countEvent_links (source : Nat) (w : Work) : (countEvent source w).links = w.links :=
  (countEvent_keeps source w).2.2.2.2.2.2.2.2.2.2.2.2.2.2.1
@[simp] theorem countEvent_chans (source : Nat) (w : Work) : (countEvent source w).chans = w.chans :=
  (countEvent_keeps source w).2.2.2.2.2.2.2.2.2.2.2.2.2.2.2.1
@[simp] theorem countEvent_res (source : Nat) (w : Work) : (countEvent source w).res = w.res :=
  (countEvent_keeps source w).2.2.2.2.2.2.2.2.2.2.2.2.2.2.2.2.1
@[simp] theorem countEvent_sched (source : Nat) (w : Work) : (countEvent source w).sched = w.sched :=
  (countEvent_keeps source w).2.2.2.2.2.2.2.2.2.2.2.2.2.2.2.2.2.1
@[simp] theorem countEvent_pow (source : Nat) (w : Work) : (countEvent source w).pow = w.pow :=
  (countEvent_keeps source w).2.2.2.2.2.2.2.2.2.2.2.2.2.2.2.2.2.2.1
@[simp] theorem countEvent_pins (source : Nat) (w : Work) : (countEvent source w).pins = w.pins :=
  (countEvent_keeps source w).2.2.2.2.2.2.2.2.2.2.2.2.2.2.2.2.2.2.2.1
@[simp] theorem countEvent_tm (source : Nat) (w : Work) : (countEvent source w).tm = w.tm :=
  (countEvent_keeps source w).2.2.2.2.2.2.2.2.2.2.2.2.2.2.2.2.2.2.2.2.1
@[simp] theorem countEvent_ingest (source : Nat) (w : Work) : (countEvent source w).ingest = w.ingest :=
  (countEvent_keeps source w).2.2.2.2.2.2.2.2.2.2.2.2.2.2.2.2.2.2.2.2.2.1
@[simp] theorem countEvent_guard (source : Nat) (w : Work) : (countEvent source w).guard = w.guard :=
  (countEvent_keeps source w).2.2.2.2.2.2.2.2.2.2.2.2.2.2.2.2.2.2.2.2.2.2.1
@[simp] theorem countEvent_casc (source : Nat) (w : Work) : (countEvent source w).casc = w.casc :=
  (countEvent_keeps source w).2.2.2.2.2.2.2.2.2.2.2.2.2.2.2.2.2.2.2.2.2.2.2.1
@[simp] theorem countEvent_cores (source : Nat) (w : Work) : (countEvent source w).cores = w.cores :=
  (countEvent_keeps source w).2.2.2.2.2.2.2.2.2.2.2.2.2.2.2.2.2.2.2.2.2.2.2.2.1
@[simp] theorem countEvent_safe (source : Nat) (w : Work) : (countEvent source w).safe = w.safe :=
  (countEvent_keeps source w).2.2.2.2.2.2.2.2.2.2.2.2.2.2.2.2.2.2.2.2.2.2.2.2.2.1
@[simp] theorem countEvent_rst (source : Nat) (w : Work) : (countEvent source w).rst = w.rst :=
  (countEvent_keeps source w).2.2.2.2.2.2.2.2.2.2.2.2.2.2.2.2.2.2.2.2.2.2.2.2.2.2.1
@[simp] theorem countEvent_tap (source : Nat) (w : Work) : (countEvent source w).tap = w.tap :=
  (countEvent_keeps source w).2.2.2.2.2.2.2.2.2.2.2.2.2.2.2.2.2.2.2.2.2.2.2.2.2.2.2.1
@[simp] theorem countEvent_mem (source : Nat) (w : Work) : (countEvent source w).mem = w.mem :=
  (countEvent_keeps source w).2.2.2.2.2.2.2.2.2.2.2.2.2.2.2.2.2.2.2.2.2.2.2.2.2.2.2.2.1
@[simp] theorem countEvent_wr (source : Nat) (w : Work) : (countEvent source w).wr = w.wr :=
  (countEvent_keeps source w).2.2.2.2.2.2.2.2.2.2.2.2.2.2.2.2.2.2.2.2.2.2.2.2.2.2.2.2.2

/-- What captureFirst keeps, all at once. -/
theorem captureFirst_keeps (msg master access sev : Nat) (w : Work) :
    (captureFirst msg master access sev w).fuses = w.fuses ∧ (captureFirst msg master access sev w).dev = w.dev ∧
    (captureFirst msg master access sev w).time = w.time ∧ (captureFirst msg master access sev w).coll = w.coll ∧
    (captureFirst msg master access sev w).log = w.log ∧ (captureFirst msg master access sev w).engines = w.engines ∧
    (captureFirst msg master access sev w).tileq = w.tileq ∧ (captureFirst msg master access sev w).syncs = w.syncs ∧
    (captureFirst msg master access sev w).images = w.images ∧
    (captureFirst msg master access sev w).slices = w.slices ∧ (captureFirst msg master access sev w).ctxs = w.ctxs ∧
    (captureFirst msg master access sev w).quads = w.quads ∧ (captureFirst msg master access sev w).out = w.out ∧
    (captureFirst msg master access sev w).free = w.free ∧ (captureFirst msg master access sev w).links = w.links ∧
    (captureFirst msg master access sev w).chans = w.chans ∧ (captureFirst msg master access sev w).res = w.res ∧
    (captureFirst msg master access sev w).sched = w.sched ∧ (captureFirst msg master access sev w).pow = w.pow ∧
    (captureFirst msg master access sev w).pins = w.pins ∧ (captureFirst msg master access sev w).tm = w.tm ∧
    (captureFirst msg master access sev w).ingest = w.ingest ∧
    (captureFirst msg master access sev w).guard = w.guard ∧ (captureFirst msg master access sev w).casc = w.casc ∧
    (captureFirst msg master access sev w).cores = w.cores ∧ (captureFirst msg master access sev w).safe = w.safe ∧
    (captureFirst msg master access sev w).rst = w.rst ∧ (captureFirst msg master access sev w).tap = w.tap ∧
    (captureFirst msg master access sev w).mem = w.mem ∧ (captureFirst msg master access sev w).wr = w.wr := by
  simp only [captureFirst]; (repeat' split) <;> and_intros <;> rfl
@[simp] theorem captureFirst_issues (msg master access sev : Nat) (w : Work) : (captureFirst msg master access sev w).issues = w.issues := by
  simp only [captureFirst]; (repeat' split) <;> rfl
@[simp] theorem captureFirst_closed (msg master access sev : Nat) (w : Work) : (captureFirst msg master access sev w).closed = w.closed := by
  simp only [captureFirst]; (repeat' split) <;> rfl
@[simp] theorem captureFirst_fuses (msg master access sev : Nat) (w : Work) : (captureFirst msg master access sev w).fuses = w.fuses :=
  (captureFirst_keeps msg master access sev w).1
@[simp] theorem captureFirst_dev (msg master access sev : Nat) (w : Work) : (captureFirst msg master access sev w).dev = w.dev :=
  (captureFirst_keeps msg master access sev w).2.1
@[simp] theorem captureFirst_time (msg master access sev : Nat) (w : Work) : (captureFirst msg master access sev w).time = w.time :=
  (captureFirst_keeps msg master access sev w).2.2.1
@[simp] theorem captureFirst_coll (msg master access sev : Nat) (w : Work) : (captureFirst msg master access sev w).coll = w.coll :=
  (captureFirst_keeps msg master access sev w).2.2.2.1
@[simp] theorem captureFirst_log (msg master access sev : Nat) (w : Work) : (captureFirst msg master access sev w).log = w.log :=
  (captureFirst_keeps msg master access sev w).2.2.2.2.1
@[simp] theorem captureFirst_engines (msg master access sev : Nat) (w : Work) : (captureFirst msg master access sev w).engines = w.engines :=
  (captureFirst_keeps msg master access sev w).2.2.2.2.2.1
@[simp] theorem captureFirst_tileq (msg master access sev : Nat) (w : Work) : (captureFirst msg master access sev w).tileq = w.tileq :=
  (captureFirst_keeps msg master access sev w).2.2.2.2.2.2.1
@[simp] theorem captureFirst_syncs (msg master access sev : Nat) (w : Work) : (captureFirst msg master access sev w).syncs = w.syncs :=
  (captureFirst_keeps msg master access sev w).2.2.2.2.2.2.2.1
@[simp] theorem captureFirst_images (msg master access sev : Nat) (w : Work) : (captureFirst msg master access sev w).images = w.images :=
  (captureFirst_keeps msg master access sev w).2.2.2.2.2.2.2.2.1
@[simp] theorem captureFirst_slices (msg master access sev : Nat) (w : Work) : (captureFirst msg master access sev w).slices = w.slices :=
  (captureFirst_keeps msg master access sev w).2.2.2.2.2.2.2.2.2.1
@[simp] theorem captureFirst_ctxs (msg master access sev : Nat) (w : Work) : (captureFirst msg master access sev w).ctxs = w.ctxs :=
  (captureFirst_keeps msg master access sev w).2.2.2.2.2.2.2.2.2.2.1
@[simp] theorem captureFirst_quads (msg master access sev : Nat) (w : Work) : (captureFirst msg master access sev w).quads = w.quads :=
  (captureFirst_keeps msg master access sev w).2.2.2.2.2.2.2.2.2.2.2.1
@[simp] theorem captureFirst_out (msg master access sev : Nat) (w : Work) : (captureFirst msg master access sev w).out = w.out :=
  (captureFirst_keeps msg master access sev w).2.2.2.2.2.2.2.2.2.2.2.2.1
@[simp] theorem captureFirst_free (msg master access sev : Nat) (w : Work) : (captureFirst msg master access sev w).free = w.free :=
  (captureFirst_keeps msg master access sev w).2.2.2.2.2.2.2.2.2.2.2.2.2.1
@[simp] theorem captureFirst_links (msg master access sev : Nat) (w : Work) : (captureFirst msg master access sev w).links = w.links :=
  (captureFirst_keeps msg master access sev w).2.2.2.2.2.2.2.2.2.2.2.2.2.2.1
@[simp] theorem captureFirst_chans (msg master access sev : Nat) (w : Work) : (captureFirst msg master access sev w).chans = w.chans :=
  (captureFirst_keeps msg master access sev w).2.2.2.2.2.2.2.2.2.2.2.2.2.2.2.1
@[simp] theorem captureFirst_res (msg master access sev : Nat) (w : Work) : (captureFirst msg master access sev w).res = w.res :=
  (captureFirst_keeps msg master access sev w).2.2.2.2.2.2.2.2.2.2.2.2.2.2.2.2.1
@[simp] theorem captureFirst_sched (msg master access sev : Nat) (w : Work) : (captureFirst msg master access sev w).sched = w.sched :=
  (captureFirst_keeps msg master access sev w).2.2.2.2.2.2.2.2.2.2.2.2.2.2.2.2.2.1
@[simp] theorem captureFirst_pow (msg master access sev : Nat) (w : Work) : (captureFirst msg master access sev w).pow = w.pow :=
  (captureFirst_keeps msg master access sev w).2.2.2.2.2.2.2.2.2.2.2.2.2.2.2.2.2.2.1
@[simp] theorem captureFirst_pins (msg master access sev : Nat) (w : Work) : (captureFirst msg master access sev w).pins = w.pins :=
  (captureFirst_keeps msg master access sev w).2.2.2.2.2.2.2.2.2.2.2.2.2.2.2.2.2.2.2.1
@[simp] theorem captureFirst_tm (msg master access sev : Nat) (w : Work) : (captureFirst msg master access sev w).tm = w.tm :=
  (captureFirst_keeps msg master access sev w).2.2.2.2.2.2.2.2.2.2.2.2.2.2.2.2.2.2.2.2.1
@[simp] theorem captureFirst_ingest (msg master access sev : Nat) (w : Work) : (captureFirst msg master access sev w).ingest = w.ingest :=
  (captureFirst_keeps msg master access sev w).2.2.2.2.2.2.2.2.2.2.2.2.2.2.2.2.2.2.2.2.2.1
@[simp] theorem captureFirst_guard (msg master access sev : Nat) (w : Work) : (captureFirst msg master access sev w).guard = w.guard :=
  (captureFirst_keeps msg master access sev w).2.2.2.2.2.2.2.2.2.2.2.2.2.2.2.2.2.2.2.2.2.2.1
@[simp] theorem captureFirst_casc (msg master access sev : Nat) (w : Work) : (captureFirst msg master access sev w).casc = w.casc :=
  (captureFirst_keeps msg master access sev w).2.2.2.2.2.2.2.2.2.2.2.2.2.2.2.2.2.2.2.2.2.2.2.1
@[simp] theorem captureFirst_cores (msg master access sev : Nat) (w : Work) : (captureFirst msg master access sev w).cores = w.cores :=
  (captureFirst_keeps msg master access sev w).2.2.2.2.2.2.2.2.2.2.2.2.2.2.2.2.2.2.2.2.2.2.2.2.1
@[simp] theorem captureFirst_safe (msg master access sev : Nat) (w : Work) : (captureFirst msg master access sev w).safe = w.safe :=
  (captureFirst_keeps msg master access sev w).2.2.2.2.2.2.2.2.2.2.2.2.2.2.2.2.2.2.2.2.2.2.2.2.2.1
@[simp] theorem captureFirst_rst (msg master access sev : Nat) (w : Work) : (captureFirst msg master access sev w).rst = w.rst :=
  (captureFirst_keeps msg master access sev w).2.2.2.2.2.2.2.2.2.2.2.2.2.2.2.2.2.2.2.2.2.2.2.2.2.2.1
@[simp] theorem captureFirst_tap (msg master access sev : Nat) (w : Work) : (captureFirst msg master access sev w).tap = w.tap :=
  (captureFirst_keeps msg master access sev w).2.2.2.2.2.2.2.2.2.2.2.2.2.2.2.2.2.2.2.2.2.2.2.2.2.2.2.1
@[simp] theorem captureFirst_mem (msg master access sev : Nat) (w : Work) : (captureFirst msg master access sev w).mem = w.mem :=
  (captureFirst_keeps msg master access sev w).2.2.2.2.2.2.2.2.2.2.2.2.2.2.2.2.2.2.2.2.2.2.2.2.2.2.2.2.1
@[simp] theorem captureFirst_wr (msg master access sev : Nat) (w : Work) : (captureFirst msg master access sev w).wr = w.wr :=
  (captureFirst_keeps msg master access sev w).2.2.2.2.2.2.2.2.2.2.2.2.2.2.2.2.2.2.2.2.2.2.2.2.2.2.2.2.2

/-- What applySeverity keeps, all at once. -/
theorem applySeverity_keeps (source msg sev : Nat) (w : Work) :
    (applySeverity source msg sev w).fuses = w.fuses ∧ (applySeverity source msg sev w).time = w.time ∧
    (applySeverity source msg sev w).od = w.od ∧ (applySeverity source msg sev w).log = w.log ∧
    (applySeverity source msg sev w).engines = w.engines ∧ (applySeverity source msg sev w).tileq = w.tileq ∧
    (applySeverity source msg sev w).syncs = w.syncs ∧ (applySeverity source msg sev w).images = w.images ∧
    (applySeverity source msg sev w).slices = w.slices ∧ (applySeverity source msg sev w).ctxs = w.ctxs ∧
    (applySeverity source msg sev w).quads = w.quads ∧ (applySeverity source msg sev w).out = w.out ∧
    (applySeverity source msg sev w).free = w.free ∧ (applySeverity source msg sev w).links = w.links ∧
    (applySeverity source msg sev w).chans = w.chans ∧ (applySeverity source msg sev w).res = w.res ∧
    (applySeverity source msg sev w).sched = w.sched ∧ (applySeverity source msg sev w).pow = w.pow ∧
    (applySeverity source msg sev w).pins = w.pins ∧ (applySeverity source msg sev w).tm = w.tm ∧
    (applySeverity source msg sev w).ingest = w.ingest ∧ (applySeverity source msg sev w).guard = w.guard ∧
    (applySeverity source msg sev w).casc = w.casc ∧ (applySeverity source msg sev w).cores = w.cores ∧
    (applySeverity source msg sev w).safe = w.safe ∧ (applySeverity source msg sev w).rst = w.rst ∧
    (applySeverity source msg sev w).tap = w.tap ∧ (applySeverity source msg sev w).mem = w.mem ∧
    (applySeverity source msg sev w).wr = w.wr ∧ (applySeverity source msg sev w).dev.state = w.dev.state ∧
    (applySeverity source msg sev w).dev.prev = w.dev.prev ∧
    (applySeverity source msg sev w).dev.cause = w.dev.cause ∧
    (applySeverity source msg sev w).dev.warm = w.dev.warm ∧
    (applySeverity source msg sev w).dev.noRefclk = w.dev.noRefclk ∧
    (applySeverity source msg sev w).dev.ready = w.dev.ready ∧
    (applySeverity source msg sev w).dev.wake = w.dev.wake ∧
    (applySeverity source msg sev w).dev.nodeId = w.dev.nodeId ∧
    (applySeverity source msg sev w).dev.casc = w.dev.casc ∧
    (applySeverity source msg sev w).dev.retained = w.dev.retained ∧
    (applySeverity source msg sev w).dev.checksPassed = w.dev.checksPassed ∧
    (applySeverity source msg sev w).dev.starting = w.dev.starting ∧
    (applySeverity source msg sev w).dev.draining = w.dev.draining ∧
    (applySeverity source msg sev w).dev.steps = w.dev.steps ∧
    (applySeverity source msg sev w).dev.emergency = w.dev.emergency ∧
    (applySeverity source msg sev w).dev.quadLost = w.dev.quadLost ∧
    (applySeverity source msg sev w).dev.safetyShed = w.dev.safetyShed := by
  simp only [applySeverity]; (repeat' split) <;> and_intros <;> rfl
@[simp] theorem applySeverity_issues (source msg sev : Nat) (w : Work) : (applySeverity source msg sev w).issues = w.issues := by
  simp only [applySeverity]; (repeat' split) <;> rfl
@[simp] theorem applySeverity_closed (source msg sev : Nat) (w : Work) : (applySeverity source msg sev w).closed = w.closed := by
  simp only [applySeverity]; (repeat' split) <;> rfl
@[simp] theorem applySeverity_fuses (source msg sev : Nat) (w : Work) : (applySeverity source msg sev w).fuses = w.fuses :=
  (applySeverity_keeps source msg sev w).1
@[simp] theorem applySeverity_time (source msg sev : Nat) (w : Work) : (applySeverity source msg sev w).time = w.time :=
  (applySeverity_keeps source msg sev w).2.1
@[simp] theorem applySeverity_od (source msg sev : Nat) (w : Work) : (applySeverity source msg sev w).od = w.od :=
  (applySeverity_keeps source msg sev w).2.2.1
@[simp] theorem applySeverity_log (source msg sev : Nat) (w : Work) : (applySeverity source msg sev w).log = w.log :=
  (applySeverity_keeps source msg sev w).2.2.2.1
@[simp] theorem applySeverity_engines (source msg sev : Nat) (w : Work) : (applySeverity source msg sev w).engines = w.engines :=
  (applySeverity_keeps source msg sev w).2.2.2.2.1
@[simp] theorem applySeverity_tileq (source msg sev : Nat) (w : Work) : (applySeverity source msg sev w).tileq = w.tileq :=
  (applySeverity_keeps source msg sev w).2.2.2.2.2.1
@[simp] theorem applySeverity_syncs (source msg sev : Nat) (w : Work) : (applySeverity source msg sev w).syncs = w.syncs :=
  (applySeverity_keeps source msg sev w).2.2.2.2.2.2.1
@[simp] theorem applySeverity_images (source msg sev : Nat) (w : Work) : (applySeverity source msg sev w).images = w.images :=
  (applySeverity_keeps source msg sev w).2.2.2.2.2.2.2.1
@[simp] theorem applySeverity_slices (source msg sev : Nat) (w : Work) : (applySeverity source msg sev w).slices = w.slices :=
  (applySeverity_keeps source msg sev w).2.2.2.2.2.2.2.2.1
@[simp] theorem applySeverity_ctxs (source msg sev : Nat) (w : Work) : (applySeverity source msg sev w).ctxs = w.ctxs :=
  (applySeverity_keeps source msg sev w).2.2.2.2.2.2.2.2.2.1
@[simp] theorem applySeverity_quads (source msg sev : Nat) (w : Work) : (applySeverity source msg sev w).quads = w.quads :=
  (applySeverity_keeps source msg sev w).2.2.2.2.2.2.2.2.2.2.1
@[simp] theorem applySeverity_out (source msg sev : Nat) (w : Work) : (applySeverity source msg sev w).out = w.out :=
  (applySeverity_keeps source msg sev w).2.2.2.2.2.2.2.2.2.2.2.1
@[simp] theorem applySeverity_free (source msg sev : Nat) (w : Work) : (applySeverity source msg sev w).free = w.free :=
  (applySeverity_keeps source msg sev w).2.2.2.2.2.2.2.2.2.2.2.2.1
@[simp] theorem applySeverity_links (source msg sev : Nat) (w : Work) : (applySeverity source msg sev w).links = w.links :=
  (applySeverity_keeps source msg sev w).2.2.2.2.2.2.2.2.2.2.2.2.2.1
@[simp] theorem applySeverity_chans (source msg sev : Nat) (w : Work) : (applySeverity source msg sev w).chans = w.chans :=
  (applySeverity_keeps source msg sev w).2.2.2.2.2.2.2.2.2.2.2.2.2.2.1
@[simp] theorem applySeverity_res (source msg sev : Nat) (w : Work) : (applySeverity source msg sev w).res = w.res :=
  (applySeverity_keeps source msg sev w).2.2.2.2.2.2.2.2.2.2.2.2.2.2.2.1
@[simp] theorem applySeverity_sched (source msg sev : Nat) (w : Work) : (applySeverity source msg sev w).sched = w.sched :=
  (applySeverity_keeps source msg sev w).2.2.2.2.2.2.2.2.2.2.2.2.2.2.2.2.1
@[simp] theorem applySeverity_pow (source msg sev : Nat) (w : Work) : (applySeverity source msg sev w).pow = w.pow :=
  (applySeverity_keeps source msg sev w).2.2.2.2.2.2.2.2.2.2.2.2.2.2.2.2.2.1
@[simp] theorem applySeverity_pins (source msg sev : Nat) (w : Work) : (applySeverity source msg sev w).pins = w.pins :=
  (applySeverity_keeps source msg sev w).2.2.2.2.2.2.2.2.2.2.2.2.2.2.2.2.2.2.1
@[simp] theorem applySeverity_tm (source msg sev : Nat) (w : Work) : (applySeverity source msg sev w).tm = w.tm :=
  (applySeverity_keeps source msg sev w).2.2.2.2.2.2.2.2.2.2.2.2.2.2.2.2.2.2.2.1
@[simp] theorem applySeverity_ingest (source msg sev : Nat) (w : Work) : (applySeverity source msg sev w).ingest = w.ingest :=
  (applySeverity_keeps source msg sev w).2.2.2.2.2.2.2.2.2.2.2.2.2.2.2.2.2.2.2.2.1
@[simp] theorem applySeverity_guard (source msg sev : Nat) (w : Work) : (applySeverity source msg sev w).guard = w.guard :=
  (applySeverity_keeps source msg sev w).2.2.2.2.2.2.2.2.2.2.2.2.2.2.2.2.2.2.2.2.2.1
@[simp] theorem applySeverity_casc (source msg sev : Nat) (w : Work) : (applySeverity source msg sev w).casc = w.casc :=
  (applySeverity_keeps source msg sev w).2.2.2.2.2.2.2.2.2.2.2.2.2.2.2.2.2.2.2.2.2.2.1
@[simp] theorem applySeverity_cores (source msg sev : Nat) (w : Work) : (applySeverity source msg sev w).cores = w.cores :=
  (applySeverity_keeps source msg sev w).2.2.2.2.2.2.2.2.2.2.2.2.2.2.2.2.2.2.2.2.2.2.2.1
@[simp] theorem applySeverity_safe (source msg sev : Nat) (w : Work) : (applySeverity source msg sev w).safe = w.safe :=
  (applySeverity_keeps source msg sev w).2.2.2.2.2.2.2.2.2.2.2.2.2.2.2.2.2.2.2.2.2.2.2.2.1
@[simp] theorem applySeverity_rst (source msg sev : Nat) (w : Work) : (applySeverity source msg sev w).rst = w.rst :=
  (applySeverity_keeps source msg sev w).2.2.2.2.2.2.2.2.2.2.2.2.2.2.2.2.2.2.2.2.2.2.2.2.2.1
@[simp] theorem applySeverity_tap (source msg sev : Nat) (w : Work) : (applySeverity source msg sev w).tap = w.tap :=
  (applySeverity_keeps source msg sev w).2.2.2.2.2.2.2.2.2.2.2.2.2.2.2.2.2.2.2.2.2.2.2.2.2.2.1
@[simp] theorem applySeverity_mem (source msg sev : Nat) (w : Work) : (applySeverity source msg sev w).mem = w.mem :=
  (applySeverity_keeps source msg sev w).2.2.2.2.2.2.2.2.2.2.2.2.2.2.2.2.2.2.2.2.2.2.2.2.2.2.2.1
@[simp] theorem applySeverity_wr (source msg sev : Nat) (w : Work) : (applySeverity source msg sev w).wr = w.wr :=
  (applySeverity_keeps source msg sev w).2.2.2.2.2.2.2.2.2.2.2.2.2.2.2.2.2.2.2.2.2.2.2.2.2.2.2.2.1
@[simp] theorem applySeverity_dev_state (source msg sev : Nat) (w : Work) : (applySeverity source msg sev w).dev.state = w.dev.state :=
  (applySeverity_keeps source msg sev w).2.2.2.2.2.2.2.2.2.2.2.2.2.2.2.2.2.2.2.2.2.2.2.2.2.2.2.2.2.1
@[simp] theorem applySeverity_dev_prev (source msg sev : Nat) (w : Work) : (applySeverity source msg sev w).dev.prev = w.dev.prev :=
  (applySeverity_keeps source msg sev w).2.2.2.2.2.2.2.2.2.2.2.2.2.2.2.2.2.2.2.2.2.2.2.2.2.2.2.2.2.2.1
@[simp] theorem applySeverity_dev_cause (source msg sev : Nat) (w : Work) : (applySeverity source msg sev w).dev.cause = w.dev.cause :=
  (applySeverity_keeps source msg sev w).2.2.2.2.2.2.2.2.2.2.2.2.2.2.2.2.2.2.2.2.2.2.2.2.2.2.2.2.2.2.2.1
@[simp] theorem applySeverity_dev_warm (source msg sev : Nat) (w : Work) : (applySeverity source msg sev w).dev.warm = w.dev.warm :=
  (applySeverity_keeps source msg sev w).2.2.2.2.2.2.2.2.2.2.2.2.2.2.2.2.2.2.2.2.2.2.2.2.2.2.2.2.2.2.2.2.1
@[simp] theorem applySeverity_dev_noRefclk (source msg sev : Nat) (w : Work) : (applySeverity source msg sev w).dev.noRefclk = w.dev.noRefclk :=
  (applySeverity_keeps source msg sev w).2.2.2.2.2.2.2.2.2.2.2.2.2.2.2.2.2.2.2.2.2.2.2.2.2.2.2.2.2.2.2.2.2.1
@[simp] theorem applySeverity_dev_ready (source msg sev : Nat) (w : Work) : (applySeverity source msg sev w).dev.ready = w.dev.ready :=
  (applySeverity_keeps source msg sev w).2.2.2.2.2.2.2.2.2.2.2.2.2.2.2.2.2.2.2.2.2.2.2.2.2.2.2.2.2.2.2.2.2.2.1
@[simp] theorem applySeverity_dev_wake (source msg sev : Nat) (w : Work) : (applySeverity source msg sev w).dev.wake = w.dev.wake :=
  (applySeverity_keeps source msg sev w).2.2.2.2.2.2.2.2.2.2.2.2.2.2.2.2.2.2.2.2.2.2.2.2.2.2.2.2.2.2.2.2.2.2.2.1
@[simp] theorem applySeverity_dev_nodeId (source msg sev : Nat) (w : Work) : (applySeverity source msg sev w).dev.nodeId = w.dev.nodeId :=
  (applySeverity_keeps source msg sev w).2.2.2.2.2.2.2.2.2.2.2.2.2.2.2.2.2.2.2.2.2.2.2.2.2.2.2.2.2.2.2.2.2.2.2.2.1
@[simp] theorem applySeverity_dev_casc (source msg sev : Nat) (w : Work) : (applySeverity source msg sev w).dev.casc = w.dev.casc :=
  (applySeverity_keeps source msg sev w).2.2.2.2.2.2.2.2.2.2.2.2.2.2.2.2.2.2.2.2.2.2.2.2.2.2.2.2.2.2.2.2.2.2.2.2.2.1
@[simp] theorem applySeverity_dev_retained (source msg sev : Nat) (w : Work) : (applySeverity source msg sev w).dev.retained = w.dev.retained :=
  (applySeverity_keeps source msg sev w).2.2.2.2.2.2.2.2.2.2.2.2.2.2.2.2.2.2.2.2.2.2.2.2.2.2.2.2.2.2.2.2.2.2.2.2.2.2.1
@[simp] theorem applySeverity_dev_checksPassed (source msg sev : Nat) (w : Work) : (applySeverity source msg sev w).dev.checksPassed = w.dev.checksPassed :=
  (applySeverity_keeps source msg sev w).2.2.2.2.2.2.2.2.2.2.2.2.2.2.2.2.2.2.2.2.2.2.2.2.2.2.2.2.2.2.2.2.2.2.2.2.2.2.2.1
@[simp] theorem applySeverity_dev_starting (source msg sev : Nat) (w : Work) : (applySeverity source msg sev w).dev.starting = w.dev.starting :=
  (applySeverity_keeps source msg sev w).2.2.2.2.2.2.2.2.2.2.2.2.2.2.2.2.2.2.2.2.2.2.2.2.2.2.2.2.2.2.2.2.2.2.2.2.2.2.2.2.1
@[simp] theorem applySeverity_dev_draining (source msg sev : Nat) (w : Work) : (applySeverity source msg sev w).dev.draining = w.dev.draining :=
  (applySeverity_keeps source msg sev w).2.2.2.2.2.2.2.2.2.2.2.2.2.2.2.2.2.2.2.2.2.2.2.2.2.2.2.2.2.2.2.2.2.2.2.2.2.2.2.2.2.1
@[simp] theorem applySeverity_dev_steps (source msg sev : Nat) (w : Work) : (applySeverity source msg sev w).dev.steps = w.dev.steps :=
  (applySeverity_keeps source msg sev w).2.2.2.2.2.2.2.2.2.2.2.2.2.2.2.2.2.2.2.2.2.2.2.2.2.2.2.2.2.2.2.2.2.2.2.2.2.2.2.2.2.2.1
@[simp] theorem applySeverity_dev_emergency (source msg sev : Nat) (w : Work) : (applySeverity source msg sev w).dev.emergency = w.dev.emergency :=
  (applySeverity_keeps source msg sev w).2.2.2.2.2.2.2.2.2.2.2.2.2.2.2.2.2.2.2.2.2.2.2.2.2.2.2.2.2.2.2.2.2.2.2.2.2.2.2.2.2.2.2.1
@[simp] theorem applySeverity_dev_quadLost (source msg sev : Nat) (w : Work) : (applySeverity source msg sev w).dev.quadLost = w.dev.quadLost :=
  (applySeverity_keeps source msg sev w).2.2.2.2.2.2.2.2.2.2.2.2.2.2.2.2.2.2.2.2.2.2.2.2.2.2.2.2.2.2.2.2.2.2.2.2.2.2.2.2.2.2.2.2.1
@[simp] theorem applySeverity_dev_safetyShed (source msg sev : Nat) (w : Work) : (applySeverity source msg sev w).dev.safetyShed = w.dev.safetyShed :=
  (applySeverity_keeps source msg sev w).2.2.2.2.2.2.2.2.2.2.2.2.2.2.2.2.2.2.2.2.2.2.2.2.2.2.2.2.2.2.2.2.2.2.2.2.2.2.2.2.2.2.2.2.2

/-- What collectOne keeps, all at once. -/
theorem collectOne_keeps (msg master access : Nat) (w : Work) :
    (collectOne msg master access w).fuses = w.fuses ∧ (collectOne msg master access w).time = w.time ∧
    (collectOne msg master access w).engines = w.engines ∧ (collectOne msg master access w).tileq = w.tileq ∧
    (collectOne msg master access w).syncs = w.syncs ∧ (collectOne msg master access w).images = w.images ∧
    (collectOne msg master access w).slices = w.slices ∧ (collectOne msg master access w).ctxs = w.ctxs ∧
    (collectOne msg master access w).quads = w.quads ∧ (collectOne msg master access w).free = w.free ∧
    (collectOne msg master access w).chans = w.chans ∧ (collectOne msg master access w).res = w.res ∧
    (collectOne msg master access w).sched = w.sched ∧ (collectOne msg master access w).pow = w.pow ∧
    (collectOne msg master access w).pins = w.pins ∧ (collectOne msg master access w).tm = w.tm ∧
    (collectOne msg master access w).ingest = w.ingest ∧ (collectOne msg master access w).guard = w.guard ∧
    (collectOne msg master access w).casc = w.casc ∧ (collectOne msg master access w).cores = w.cores ∧
    (collectOne msg master access w).safe = w.safe ∧ (collectOne msg master access w).rst = w.rst ∧
    (collectOne msg master access w).tap = w.tap ∧ (collectOne msg master access w).mem = w.mem ∧
    (collectOne msg master access w).wr = w.wr ∧ (collectOne msg master access w).dev.state = w.dev.state ∧
    (collectOne msg master access w).dev.prev = w.dev.prev ∧
    (collectOne msg master access w).dev.cause = w.dev.cause ∧
    (collectOne msg master access w).dev.warm = w.dev.warm ∧
    (collectOne msg master access w).dev.noRefclk = w.dev.noRefclk ∧
    (collectOne msg master access w).dev.ready = w.dev.ready ∧
    (collectOne msg master access w).dev.wake = w.dev.wake ∧
    (collectOne msg master access w).dev.nodeId = w.dev.nodeId ∧
    (collectOne msg master access w).dev.casc = w.dev.casc ∧
    (collectOne msg master access w).dev.retained = w.dev.retained ∧
    (collectOne msg master access w).dev.checksPassed = w.dev.checksPassed ∧
    (collectOne msg master access w).dev.starting = w.dev.starting ∧
    (collectOne msg master access w).dev.draining = w.dev.draining ∧
    (collectOne msg master access w).dev.steps = w.dev.steps ∧
    (collectOne msg master access w).dev.emergency = w.dev.emergency ∧
    (collectOne msg master access w).dev.quadLost = w.dev.quadLost ∧
    (collectOne msg master access w).dev.safetyShed = w.dev.safetyShed ∧
    (collectOne msg master access w).links.stages = w.links.stages ∧
    (collectOne msg master access w).links.orders = w.links.orders ∧
    (collectOne msg master access w).links.usb = w.links.usb ∧
    (collectOne msg master access w).links.udp = w.links.udp ∧
    (collectOne msg master access w).links.can = w.links.can ∧
    (collectOne msg master access w).links.ssfCount = w.links.ssfCount ∧
    (collectOne msg master access w).links.effects = w.links.effects ∧
    (collectOne msg master access w).links.gcl = w.links.gcl ∧
    (collectOne msg master access w).links.silent = w.links.silent ∧
    (collectOne msg master access w).links.joint = w.links.joint := by
  simp only [collectOne, doIf]; (repeat' split) <;> simp
@[simp] theorem collectOne_issues (msg master access : Nat) (w : Work) : (collectOne msg master access w).issues = w.issues := by
  simp only [collectOne, doIf]; (repeat' split) <;> simp
@[simp] theorem collectOne_closed (msg master access : Nat) (w : Work) : (collectOne msg master access w).closed = w.closed := by
  simp only [collectOne, doIf]; (repeat' split) <;> simp
@[simp] theorem collectOne_fuses (msg master access : Nat) (w : Work) : (collectOne msg master access w).fuses = w.fuses :=
  (collectOne_keeps msg master access w).1
@[simp] theorem collectOne_time (msg master access : Nat) (w : Work) : (collectOne msg master access w).time = w.time :=
  (collectOne_keeps msg master access w).2.1
@[simp] theorem collectOne_engines (msg master access : Nat) (w : Work) : (collectOne msg master access w).engines = w.engines :=
  (collectOne_keeps msg master access w).2.2.1
@[simp] theorem collectOne_tileq (msg master access : Nat) (w : Work) : (collectOne msg master access w).tileq = w.tileq :=
  (collectOne_keeps msg master access w).2.2.2.1
@[simp] theorem collectOne_syncs (msg master access : Nat) (w : Work) : (collectOne msg master access w).syncs = w.syncs :=
  (collectOne_keeps msg master access w).2.2.2.2.1
@[simp] theorem collectOne_images (msg master access : Nat) (w : Work) : (collectOne msg master access w).images = w.images :=
  (collectOne_keeps msg master access w).2.2.2.2.2.1
@[simp] theorem collectOne_slices (msg master access : Nat) (w : Work) : (collectOne msg master access w).slices = w.slices :=
  (collectOne_keeps msg master access w).2.2.2.2.2.2.1
@[simp] theorem collectOne_ctxs (msg master access : Nat) (w : Work) : (collectOne msg master access w).ctxs = w.ctxs :=
  (collectOne_keeps msg master access w).2.2.2.2.2.2.2.1
@[simp] theorem collectOne_quads (msg master access : Nat) (w : Work) : (collectOne msg master access w).quads = w.quads :=
  (collectOne_keeps msg master access w).2.2.2.2.2.2.2.2.1
@[simp] theorem collectOne_free (msg master access : Nat) (w : Work) : (collectOne msg master access w).free = w.free :=
  (collectOne_keeps msg master access w).2.2.2.2.2.2.2.2.2.1
@[simp] theorem collectOne_chans (msg master access : Nat) (w : Work) : (collectOne msg master access w).chans = w.chans :=
  (collectOne_keeps msg master access w).2.2.2.2.2.2.2.2.2.2.1
@[simp] theorem collectOne_res (msg master access : Nat) (w : Work) : (collectOne msg master access w).res = w.res :=
  (collectOne_keeps msg master access w).2.2.2.2.2.2.2.2.2.2.2.1
@[simp] theorem collectOne_sched (msg master access : Nat) (w : Work) : (collectOne msg master access w).sched = w.sched :=
  (collectOne_keeps msg master access w).2.2.2.2.2.2.2.2.2.2.2.2.1
@[simp] theorem collectOne_pow (msg master access : Nat) (w : Work) : (collectOne msg master access w).pow = w.pow :=
  (collectOne_keeps msg master access w).2.2.2.2.2.2.2.2.2.2.2.2.2.1
@[simp] theorem collectOne_pins (msg master access : Nat) (w : Work) : (collectOne msg master access w).pins = w.pins :=
  (collectOne_keeps msg master access w).2.2.2.2.2.2.2.2.2.2.2.2.2.2.1
@[simp] theorem collectOne_tm (msg master access : Nat) (w : Work) : (collectOne msg master access w).tm = w.tm :=
  (collectOne_keeps msg master access w).2.2.2.2.2.2.2.2.2.2.2.2.2.2.2.1
@[simp] theorem collectOne_ingest (msg master access : Nat) (w : Work) : (collectOne msg master access w).ingest = w.ingest :=
  (collectOne_keeps msg master access w).2.2.2.2.2.2.2.2.2.2.2.2.2.2.2.2.1
@[simp] theorem collectOne_guard (msg master access : Nat) (w : Work) : (collectOne msg master access w).guard = w.guard :=
  (collectOne_keeps msg master access w).2.2.2.2.2.2.2.2.2.2.2.2.2.2.2.2.2.1
@[simp] theorem collectOne_casc (msg master access : Nat) (w : Work) : (collectOne msg master access w).casc = w.casc :=
  (collectOne_keeps msg master access w).2.2.2.2.2.2.2.2.2.2.2.2.2.2.2.2.2.2.1
@[simp] theorem collectOne_cores (msg master access : Nat) (w : Work) : (collectOne msg master access w).cores = w.cores :=
  (collectOne_keeps msg master access w).2.2.2.2.2.2.2.2.2.2.2.2.2.2.2.2.2.2.2.1
@[simp] theorem collectOne_safe (msg master access : Nat) (w : Work) : (collectOne msg master access w).safe = w.safe :=
  (collectOne_keeps msg master access w).2.2.2.2.2.2.2.2.2.2.2.2.2.2.2.2.2.2.2.2.1
@[simp] theorem collectOne_rst (msg master access : Nat) (w : Work) : (collectOne msg master access w).rst = w.rst :=
  (collectOne_keeps msg master access w).2.2.2.2.2.2.2.2.2.2.2.2.2.2.2.2.2.2.2.2.2.1
@[simp] theorem collectOne_tap (msg master access : Nat) (w : Work) : (collectOne msg master access w).tap = w.tap :=
  (collectOne_keeps msg master access w).2.2.2.2.2.2.2.2.2.2.2.2.2.2.2.2.2.2.2.2.2.2.1
@[simp] theorem collectOne_mem (msg master access : Nat) (w : Work) : (collectOne msg master access w).mem = w.mem :=
  (collectOne_keeps msg master access w).2.2.2.2.2.2.2.2.2.2.2.2.2.2.2.2.2.2.2.2.2.2.2.1
@[simp] theorem collectOne_wr (msg master access : Nat) (w : Work) : (collectOne msg master access w).wr = w.wr :=
  (collectOne_keeps msg master access w).2.2.2.2.2.2.2.2.2.2.2.2.2.2.2.2.2.2.2.2.2.2.2.2.1
@[simp] theorem collectOne_dev_state (msg master access : Nat) (w : Work) : (collectOne msg master access w).dev.state = w.dev.state :=
  (collectOne_keeps msg master access w).2.2.2.2.2.2.2.2.2.2.2.2.2.2.2.2.2.2.2.2.2.2.2.2.2.1
@[simp] theorem collectOne_dev_prev (msg master access : Nat) (w : Work) : (collectOne msg master access w).dev.prev = w.dev.prev :=
  (collectOne_keeps msg master access w).2.2.2.2.2.2.2.2.2.2.2.2.2.2.2.2.2.2.2.2.2.2.2.2.2.2.1
@[simp] theorem collectOne_dev_cause (msg master access : Nat) (w : Work) : (collectOne msg master access w).dev.cause = w.dev.cause :=
  (collectOne_keeps msg master access w).2.2.2.2.2.2.2.2.2.2.2.2.2.2.2.2.2.2.2.2.2.2.2.2.2.2.2.1
@[simp] theorem collectOne_dev_warm (msg master access : Nat) (w : Work) : (collectOne msg master access w).dev.warm = w.dev.warm :=
  (collectOne_keeps msg master access w).2.2.2.2.2.2.2.2.2.2.2.2.2.2.2.2.2.2.2.2.2.2.2.2.2.2.2.2.1
@[simp] theorem collectOne_dev_noRefclk (msg master access : Nat) (w : Work) : (collectOne msg master access w).dev.noRefclk = w.dev.noRefclk :=
  (collectOne_keeps msg master access w).2.2.2.2.2.2.2.2.2.2.2.2.2.2.2.2.2.2.2.2.2.2.2.2.2.2.2.2.2.1
@[simp] theorem collectOne_dev_ready (msg master access : Nat) (w : Work) : (collectOne msg master access w).dev.ready = w.dev.ready :=
  (collectOne_keeps msg master access w).2.2.2.2.2.2.2.2.2.2.2.2.2.2.2.2.2.2.2.2.2.2.2.2.2.2.2.2.2.2.1
@[simp] theorem collectOne_dev_wake (msg master access : Nat) (w : Work) : (collectOne msg master access w).dev.wake = w.dev.wake :=
  (collectOne_keeps msg master access w).2.2.2.2.2.2.2.2.2.2.2.2.2.2.2.2.2.2.2.2.2.2.2.2.2.2.2.2.2.2.2.1
@[simp] theorem collectOne_dev_nodeId (msg master access : Nat) (w : Work) : (collectOne msg master access w).dev.nodeId = w.dev.nodeId :=
  (collectOne_keeps msg master access w).2.2.2.2.2.2.2.2.2.2.2.2.2.2.2.2.2.2.2.2.2.2.2.2.2.2.2.2.2.2.2.2.1
@[simp] theorem collectOne_dev_casc (msg master access : Nat) (w : Work) : (collectOne msg master access w).dev.casc = w.dev.casc :=
  (collectOne_keeps msg master access w).2.2.2.2.2.2.2.2.2.2.2.2.2.2.2.2.2.2.2.2.2.2.2.2.2.2.2.2.2.2.2.2.2.1
@[simp] theorem collectOne_dev_retained (msg master access : Nat) (w : Work) : (collectOne msg master access w).dev.retained = w.dev.retained :=
  (collectOne_keeps msg master access w).2.2.2.2.2.2.2.2.2.2.2.2.2.2.2.2.2.2.2.2.2.2.2.2.2.2.2.2.2.2.2.2.2.2.1
@[simp] theorem collectOne_dev_checksPassed (msg master access : Nat) (w : Work) : (collectOne msg master access w).dev.checksPassed = w.dev.checksPassed :=
  (collectOne_keeps msg master access w).2.2.2.2.2.2.2.2.2.2.2.2.2.2.2.2.2.2.2.2.2.2.2.2.2.2.2.2.2.2.2.2.2.2.2.1
@[simp] theorem collectOne_dev_starting (msg master access : Nat) (w : Work) : (collectOne msg master access w).dev.starting = w.dev.starting :=
  (collectOne_keeps msg master access w).2.2.2.2.2.2.2.2.2.2.2.2.2.2.2.2.2.2.2.2.2.2.2.2.2.2.2.2.2.2.2.2.2.2.2.2.1
@[simp] theorem collectOne_dev_draining (msg master access : Nat) (w : Work) : (collectOne msg master access w).dev.draining = w.dev.draining :=
  (collectOne_keeps msg master access w).2.2.2.2.2.2.2.2.2.2.2.2.2.2.2.2.2.2.2.2.2.2.2.2.2.2.2.2.2.2.2.2.2.2.2.2.2.1
@[simp] theorem collectOne_dev_steps (msg master access : Nat) (w : Work) : (collectOne msg master access w).dev.steps = w.dev.steps :=
  (collectOne_keeps msg master access w).2.2.2.2.2.2.2.2.2.2.2.2.2.2.2.2.2.2.2.2.2.2.2.2.2.2.2.2.2.2.2.2.2.2.2.2.2.2.1
@[simp] theorem collectOne_dev_emergency (msg master access : Nat) (w : Work) : (collectOne msg master access w).dev.emergency = w.dev.emergency :=
  (collectOne_keeps msg master access w).2.2.2.2.2.2.2.2.2.2.2.2.2.2.2.2.2.2.2.2.2.2.2.2.2.2.2.2.2.2.2.2.2.2.2.2.2.2.2.1
@[simp] theorem collectOne_dev_quadLost (msg master access : Nat) (w : Work) : (collectOne msg master access w).dev.quadLost = w.dev.quadLost :=
  (collectOne_keeps msg master access w).2.2.2.2.2.2.2.2.2.2.2.2.2.2.2.2.2.2.2.2.2.2.2.2.2.2.2.2.2.2.2.2.2.2.2.2.2.2.2.2.1
@[simp] theorem collectOne_dev_safetyShed (msg master access : Nat) (w : Work) : (collectOne msg master access w).dev.safetyShed = w.dev.safetyShed :=
  (collectOne_keeps msg master access w).2.2.2.2.2.2.2.2.2.2.2.2.2.2.2.2.2.2.2.2.2.2.2.2.2.2.2.2.2.2.2.2.2.2.2.2.2.2.2.2.2.1
@[simp] theorem collectOne_links_stages (msg master access : Nat) (w : Work) : (collectOne msg master access w).links.stages = w.links.stages :=
  (collectOne_keeps msg master access w).2.2.2.2.2.2.2.2.2.2.2.2.2.2.2.2.2.2.2.2.2.2.2.2.2.2.2.2.2.2.2.2.2.2.2.2.2.2.2.2.2.2.1
@[simp] theorem collectOne_links_orders (msg master access : Nat) (w : Work) : (collectOne msg master access w).links.orders = w.links.orders :=
  (collectOne_keeps msg master access w).2.2.2.2.2.2.2.2.2.2.2.2.2.2.2.2.2.2.2.2.2.2.2.2.2.2.2.2.2.2.2.2.2.2.2.2.2.2.2.2.2.2.2.1
@[simp] theorem collectOne_links_usb (msg master access : Nat) (w : Work) : (collectOne msg master access w).links.usb = w.links.usb :=
  (collectOne_keeps msg master access w).2.2.2.2.2.2.2.2.2.2.2.2.2.2.2.2.2.2.2.2.2.2.2.2.2.2.2.2.2.2.2.2.2.2.2.2.2.2.2.2.2.2.2.2.1
@[simp] theorem collectOne_links_udp (msg master access : Nat) (w : Work) : (collectOne msg master access w).links.udp = w.links.udp :=
  (collectOne_keeps msg master access w).2.2.2.2.2.2.2.2.2.2.2.2.2.2.2.2.2.2.2.2.2.2.2.2.2.2.2.2.2.2.2.2.2.2.2.2.2.2.2.2.2.2.2.2.2.1
@[simp] theorem collectOne_links_can (msg master access : Nat) (w : Work) : (collectOne msg master access w).links.can = w.links.can :=
  (collectOne_keeps msg master access w).2.2.2.2.2.2.2.2.2.2.2.2.2.2.2.2.2.2.2.2.2.2.2.2.2.2.2.2.2.2.2.2.2.2.2.2.2.2.2.2.2.2.2.2.2.2.1
@[simp] theorem collectOne_links_ssfCount (msg master access : Nat) (w : Work) : (collectOne msg master access w).links.ssfCount = w.links.ssfCount :=
  (collectOne_keeps msg master access w).2.2.2.2.2.2.2.2.2.2.2.2.2.2.2.2.2.2.2.2.2.2.2.2.2.2.2.2.2.2.2.2.2.2.2.2.2.2.2.2.2.2.2.2.2.2.2.1
@[simp] theorem collectOne_links_effects (msg master access : Nat) (w : Work) : (collectOne msg master access w).links.effects = w.links.effects :=
  (collectOne_keeps msg master access w).2.2.2.2.2.2.2.2.2.2.2.2.2.2.2.2.2.2.2.2.2.2.2.2.2.2.2.2.2.2.2.2.2.2.2.2.2.2.2.2.2.2.2.2.2.2.2.2.1
@[simp] theorem collectOne_links_gcl (msg master access : Nat) (w : Work) : (collectOne msg master access w).links.gcl = w.links.gcl :=
  (collectOne_keeps msg master access w).2.2.2.2.2.2.2.2.2.2.2.2.2.2.2.2.2.2.2.2.2.2.2.2.2.2.2.2.2.2.2.2.2.2.2.2.2.2.2.2.2.2.2.2.2.2.2.2.2.1
@[simp] theorem collectOne_links_silent (msg master access : Nat) (w : Work) : (collectOne msg master access w).links.silent = w.links.silent :=
  (collectOne_keeps msg master access w).2.2.2.2.2.2.2.2.2.2.2.2.2.2.2.2.2.2.2.2.2.2.2.2.2.2.2.2.2.2.2.2.2.2.2.2.2.2.2.2.2.2.2.2.2.2.2.2.2.2.1
@[simp] theorem collectOne_links_joint (msg master access : Nat) (w : Work) : (collectOne msg master access w).links.joint = w.links.joint :=
  (collectOne_keeps msg master access w).2.2.2.2.2.2.2.2.2.2.2.2.2.2.2.2.2.2.2.2.2.2.2.2.2.2.2.2.2.2.2.2.2.2.2.2.2.2.2.2.2.2.2.2.2.2.2.2.2.2.2

/-- What limitStep keeps, all at once. -/
theorem limitStep_keeps (w : Work) :
    (limitStep w).fuses = w.fuses ∧ (limitStep w).time = w.time ∧ (limitStep w).engines = w.engines ∧
    (limitStep w).tileq = w.tileq ∧ (limitStep w).syncs = w.syncs ∧ (limitStep w).images = w.images ∧
    (limitStep w).slices = w.slices ∧ (limitStep w).ctxs = w.ctxs ∧ (limitStep w).quads = w.quads ∧
    (limitStep w).free = w.free ∧ (limitStep w).chans = w.chans ∧ (limitStep w).res = w.res ∧
    (limitStep w).sched = w.sched ∧ (limitStep w).pow = w.pow ∧ (limitStep w).pins = w.pins ∧
    (limitStep w).tm = w.tm ∧ (limitStep w).ingest = w.ingest ∧ (limitStep w).guard = w.guard ∧
    (limitStep w).casc = w.casc ∧ (limitStep w).cores = w.cores ∧ (limitStep w).safe = w.safe ∧
    (limitStep w).rst = w.rst ∧ (limitStep w).tap = w.tap ∧ (limitStep w).mem = w.mem ∧ (limitStep w).wr = w.wr ∧
    (limitStep w).dev.state = w.dev.state ∧ (limitStep w).dev.prev = w.dev.prev ∧
    (limitStep w).dev.cause = w.dev.cause ∧ (limitStep w).dev.warm = w.dev.warm ∧
    (limitStep w).dev.noRefclk = w.dev.noRefclk ∧ (limitStep w).dev.ready = w.dev.ready ∧
    (limitStep w).dev.wake = w.dev.wake ∧ (limitStep w).dev.nodeId = w.dev.nodeId ∧
    (limitStep w).dev.casc = w.dev.casc ∧ (limitStep w).dev.retained = w.dev.retained ∧
    (limitStep w).dev.checksPassed = w.dev.checksPassed ∧ (limitStep w).dev.starting = w.dev.starting ∧
    (limitStep w).dev.draining = w.dev.draining ∧ (limitStep w).dev.steps = w.dev.steps ∧
    (limitStep w).dev.emergency = w.dev.emergency ∧ (limitStep w).dev.quadLost = w.dev.quadLost ∧
    (limitStep w).dev.safetyShed = w.dev.safetyShed ∧ (limitStep w).links.stages = w.links.stages ∧
    (limitStep w).links.orders = w.links.orders ∧ (limitStep w).links.usb = w.links.usb ∧
    (limitStep w).links.udp = w.links.udp ∧ (limitStep w).links.can = w.links.can ∧
    (limitStep w).links.ssfCount = w.links.ssfCount ∧ (limitStep w).links.effects = w.links.effects ∧
    (limitStep w).links.gcl = w.links.gcl ∧ (limitStep w).links.silent = w.links.silent ∧
    (limitStep w).links.joint = w.links.joint := by
  simp only [limitStep]; (repeat' split) <;> simp
@[simp] theorem limitStep_issues (w : Work) : (limitStep w).issues = w.issues := by
  simp only [limitStep]; (repeat' split) <;> simp
@[simp] theorem limitStep_closed (w : Work) : (limitStep w).closed = w.closed := by
  simp only [limitStep]; (repeat' split) <;> simp
@[simp] theorem limitStep_fuses  (w : Work) : (limitStep w).fuses = w.fuses :=
  (limitStep_keeps w).1
@[simp] theorem limitStep_time  (w : Work) : (limitStep w).time = w.time :=
  (limitStep_keeps w).2.1
@[simp] theorem limitStep_engines  (w : Work) : (limitStep w).engines = w.engines :=
  (limitStep_keeps w).2.2.1
@[simp] theorem limitStep_tileq  (w : Work) : (limitStep w).tileq = w.tileq :=
  (limitStep_keeps w).2.2.2.1
@[simp] theorem limitStep_syncs  (w : Work) : (limitStep w).syncs = w.syncs :=
  (limitStep_keeps w).2.2.2.2.1
@[simp] theorem limitStep_images  (w : Work) : (limitStep w).images = w.images :=
  (limitStep_keeps w).2.2.2.2.2.1
@[simp] theorem limitStep_slices  (w : Work) : (limitStep w).slices = w.slices :=
  (limitStep_keeps w).2.2.2.2.2.2.1
@[simp] theorem limitStep_ctxs  (w : Work) : (limitStep w).ctxs = w.ctxs :=
  (limitStep_keeps w).2.2.2.2.2.2.2.1
@[simp] theorem limitStep_quads  (w : Work) : (limitStep w).quads = w.quads :=
  (limitStep_keeps w).2.2.2.2.2.2.2.2.1
@[simp] theorem limitStep_free  (w : Work) : (limitStep w).free = w.free :=
  (limitStep_keeps w).2.2.2.2.2.2.2.2.2.1
@[simp] theorem limitStep_chans  (w : Work) : (limitStep w).chans = w.chans :=
  (limitStep_keeps w).2.2.2.2.2.2.2.2.2.2.1
@[simp] theorem limitStep_res  (w : Work) : (limitStep w).res = w.res :=
  (limitStep_keeps w).2.2.2.2.2.2.2.2.2.2.2.1
@[simp] theorem limitStep_sched  (w : Work) : (limitStep w).sched = w.sched :=
  (limitStep_keeps w).2.2.2.2.2.2.2.2.2.2.2.2.1
@[simp] theorem limitStep_pow  (w : Work) : (limitStep w).pow = w.pow :=
  (limitStep_keeps w).2.2.2.2.2.2.2.2.2.2.2.2.2.1
@[simp] theorem limitStep_pins  (w : Work) : (limitStep w).pins = w.pins :=
  (limitStep_keeps w).2.2.2.2.2.2.2.2.2.2.2.2.2.2.1
@[simp] theorem limitStep_tm  (w : Work) : (limitStep w).tm = w.tm :=
  (limitStep_keeps w).2.2.2.2.2.2.2.2.2.2.2.2.2.2.2.1
@[simp] theorem limitStep_ingest  (w : Work) : (limitStep w).ingest = w.ingest :=
  (limitStep_keeps w).2.2.2.2.2.2.2.2.2.2.2.2.2.2.2.2.1
@[simp] theorem limitStep_guard  (w : Work) : (limitStep w).guard = w.guard :=
  (limitStep_keeps w).2.2.2.2.2.2.2.2.2.2.2.2.2.2.2.2.2.1
@[simp] theorem limitStep_casc  (w : Work) : (limitStep w).casc = w.casc :=
  (limitStep_keeps w).2.2.2.2.2.2.2.2.2.2.2.2.2.2.2.2.2.2.1
@[simp] theorem limitStep_cores  (w : Work) : (limitStep w).cores = w.cores :=
  (limitStep_keeps w).2.2.2.2.2.2.2.2.2.2.2.2.2.2.2.2.2.2.2.1
@[simp] theorem limitStep_safe  (w : Work) : (limitStep w).safe = w.safe :=
  (limitStep_keeps w).2.2.2.2.2.2.2.2.2.2.2.2.2.2.2.2.2.2.2.2.1
@[simp] theorem limitStep_rst  (w : Work) : (limitStep w).rst = w.rst :=
  (limitStep_keeps w).2.2.2.2.2.2.2.2.2.2.2.2.2.2.2.2.2.2.2.2.2.1
@[simp] theorem limitStep_tap  (w : Work) : (limitStep w).tap = w.tap :=
  (limitStep_keeps w).2.2.2.2.2.2.2.2.2.2.2.2.2.2.2.2.2.2.2.2.2.2.1
@[simp] theorem limitStep_mem  (w : Work) : (limitStep w).mem = w.mem :=
  (limitStep_keeps w).2.2.2.2.2.2.2.2.2.2.2.2.2.2.2.2.2.2.2.2.2.2.2.1
@[simp] theorem limitStep_wr  (w : Work) : (limitStep w).wr = w.wr :=
  (limitStep_keeps w).2.2.2.2.2.2.2.2.2.2.2.2.2.2.2.2.2.2.2.2.2.2.2.2.1
@[simp] theorem limitStep_dev_state  (w : Work) : (limitStep w).dev.state = w.dev.state :=
  (limitStep_keeps w).2.2.2.2.2.2.2.2.2.2.2.2.2.2.2.2.2.2.2.2.2.2.2.2.2.1
@[simp] theorem limitStep_dev_prev  (w : Work) : (limitStep w).dev.prev = w.dev.prev :=
  (limitStep_keeps w).2.2.2.2.2.2.2.2.2.2.2.2.2.2.2.2.2.2.2.2.2.2.2.2.2.2.1
@[simp] theorem limitStep_dev_cause  (w : Work) : (limitStep w).dev.cause = w.dev.cause :=
  (limitStep_keeps w).2.2.2.2.2.2.2.2.2.2.2.2.2.2.2.2.2.2.2.2.2.2.2.2.2.2.2.1
@[simp] theorem limitStep_dev_warm  (w : Work) : (limitStep w).dev.warm = w.dev.warm :=
  (limitStep_keeps w).2.2.2.2.2.2.2.2.2.2.2.2.2.2.2.2.2.2.2.2.2.2.2.2.2.2.2.2.1
@[simp] theorem limitStep_dev_noRefclk  (w : Work) : (limitStep w).dev.noRefclk = w.dev.noRefclk :=
  (limitStep_keeps w).2.2.2.2.2.2.2.2.2.2.2.2.2.2.2.2.2.2.2.2.2.2.2.2.2.2.2.2.2.1
@[simp] theorem limitStep_dev_ready  (w : Work) : (limitStep w).dev.ready = w.dev.ready :=
  (limitStep_keeps w).2.2.2.2.2.2.2.2.2.2.2.2.2.2.2.2.2.2.2.2.2.2.2.2.2.2.2.2.2.2.1
@[simp] theorem limitStep_dev_wake  (w : Work) : (limitStep w).dev.wake = w.dev.wake :=
  (limitStep_keeps w).2.2.2.2.2.2.2.2.2.2.2.2.2.2.2.2.2.2.2.2.2.2.2.2.2.2.2.2.2.2.2.1
@[simp] theorem limitStep_dev_nodeId  (w : Work) : (limitStep w).dev.nodeId = w.dev.nodeId :=
  (limitStep_keeps w).2.2.2.2.2.2.2.2.2.2.2.2.2.2.2.2.2.2.2.2.2.2.2.2.2.2.2.2.2.2.2.2.1
@[simp] theorem limitStep_dev_casc  (w : Work) : (limitStep w).dev.casc = w.dev.casc :=
  (limitStep_keeps w).2.2.2.2.2.2.2.2.2.2.2.2.2.2.2.2.2.2.2.2.2.2.2.2.2.2.2.2.2.2.2.2.2.1
@[simp] theorem limitStep_dev_retained  (w : Work) : (limitStep w).dev.retained = w.dev.retained :=
  (limitStep_keeps w).2.2.2.2.2.2.2.2.2.2.2.2.2.2.2.2.2.2.2.2.2.2.2.2.2.2.2.2.2.2.2.2.2.2.1
@[simp] theorem limitStep_dev_checksPassed  (w : Work) : (limitStep w).dev.checksPassed = w.dev.checksPassed :=
  (limitStep_keeps w).2.2.2.2.2.2.2.2.2.2.2.2.2.2.2.2.2.2.2.2.2.2.2.2.2.2.2.2.2.2.2.2.2.2.2.1
@[simp] theorem limitStep_dev_starting  (w : Work) : (limitStep w).dev.starting = w.dev.starting :=
  (limitStep_keeps w).2.2.2.2.2.2.2.2.2.2.2.2.2.2.2.2.2.2.2.2.2.2.2.2.2.2.2.2.2.2.2.2.2.2.2.2.1
@[simp] theorem limitStep_dev_draining  (w : Work) : (limitStep w).dev.draining = w.dev.draining :=
  (limitStep_keeps w).2.2.2.2.2.2.2.2.2.2.2.2.2.2.2.2.2.2.2.2.2.2.2.2.2.2.2.2.2.2.2.2.2.2.2.2.2.1
@[simp] theorem limitStep_dev_steps  (w : Work) : (limitStep w).dev.steps = w.dev.steps :=
  (limitStep_keeps w).2.2.2.2.2.2.2.2.2.2.2.2.2.2.2.2.2.2.2.2.2.2.2.2.2.2.2.2.2.2.2.2.2.2.2.2.2.2.1
@[simp] theorem limitStep_dev_emergency  (w : Work) : (limitStep w).dev.emergency = w.dev.emergency :=
  (limitStep_keeps w).2.2.2.2.2.2.2.2.2.2.2.2.2.2.2.2.2.2.2.2.2.2.2.2.2.2.2.2.2.2.2.2.2.2.2.2.2.2.2.1
@[simp] theorem limitStep_dev_quadLost  (w : Work) : (limitStep w).dev.quadLost = w.dev.quadLost :=
  (limitStep_keeps w).2.2.2.2.2.2.2.2.2.2.2.2.2.2.2.2.2.2.2.2.2.2.2.2.2.2.2.2.2.2.2.2.2.2.2.2.2.2.2.2.1
@[simp] theorem limitStep_dev_safetyShed  (w : Work) : (limitStep w).dev.safetyShed = w.dev.safetyShed :=
  (limitStep_keeps w).2.2.2.2.2.2.2.2.2.2.2.2.2.2.2.2.2.2.2.2.2.2.2.2.2.2.2.2.2.2.2.2.2.2.2.2.2.2.2.2.2.1
@[simp] theorem limitStep_links_stages  (w : Work) : (limitStep w).links.stages = w.links.stages :=
  (limitStep_keeps w).2.2.2.2.2.2.2.2.2.2.2.2.2.2.2.2.2.2.2.2.2.2.2.2.2.2.2.2.2.2.2.2.2.2.2.2.2.2.2.2.2.2.1
@[simp] theorem limitStep_links_orders  (w : Work) : (limitStep w).links.orders = w.links.orders :=
  (limitStep_keeps w).2.2.2.2.2.2.2.2.2.2.2.2.2.2.2.2.2.2.2.2.2.2.2.2.2.2.2.2.2.2.2.2.2.2.2.2.2.2.2.2.2.2.2.1
@[simp] theorem limitStep_links_usb  (w : Work) : (limitStep w).links.usb = w.links.usb :=
  (limitStep_keeps w).2.2.2.2.2.2.2.2.2.2.2.2.2.2.2.2.2.2.2.2.2.2.2.2.2.2.2.2.2.2.2.2.2.2.2.2.2.2.2.2.2.2.2.2.1
@[simp] theorem limitStep_links_udp  (w : Work) : (limitStep w).links.udp = w.links.udp :=
  (limitStep_keeps w).2.2.2.2.2.2.2.2.2.2.2.2.2.2.2.2.2.2.2.2.2.2.2.2.2.2.2.2.2.2.2.2.2.2.2.2.2.2.2.2.2.2.2.2.2.1
@[simp] theorem limitStep_links_can  (w : Work) : (limitStep w).links.can = w.links.can :=
  (limitStep_keeps w).2.2.2.2.2.2.2.2.2.2.2.2.2.2.2.2.2.2.2.2.2.2.2.2.2.2.2.2.2.2.2.2.2.2.2.2.2.2.2.2.2.2.2.2.2.2.1
@[simp] theorem limitStep_links_ssfCount  (w : Work) : (limitStep w).links.ssfCount = w.links.ssfCount :=
  (limitStep_keeps w).2.2.2.2.2.2.2.2.2.2.2.2.2.2.2.2.2.2.2.2.2.2.2.2.2.2.2.2.2.2.2.2.2.2.2.2.2.2.2.2.2.2.2.2.2.2.2.1
@[simp] theorem limitStep_links_effects  (w : Work) : (limitStep w).links.effects = w.links.effects :=
  (limitStep_keeps w).2.2.2.2.2.2.2.2.2.2.2.2.2.2.2.2.2.2.2.2.2.2.2.2.2.2.2.2.2.2.2.2.2.2.2.2.2.2.2.2.2.2.2.2.2.2.2.2.1
@[simp] theorem limitStep_links_gcl  (w : Work) : (limitStep w).links.gcl = w.links.gcl :=
  (limitStep_keeps w).2.2.2.2.2.2.2.2.2.2.2.2.2.2.2.2.2.2.2.2.2.2.2.2.2.2.2.2.2.2.2.2.2.2.2.2.2.2.2.2.2.2.2.2.2.2.2.2.2.1
@[simp] theorem limitStep_links_silent  (w : Work) : (limitStep w).links.silent = w.links.silent :=
  (limitStep_keeps w).2.2.2.2.2.2.2.2.2.2.2.2.2.2.2.2.2.2.2.2.2.2.2.2.2.2.2.2.2.2.2.2.2.2.2.2.2.2.2.2.2.2.2.2.2.2.2.2.2.2.1
@[simp] theorem limitStep_links_joint  (w : Work) : (limitStep w).links.joint = w.links.joint :=
  (limitStep_keeps w).2.2.2.2.2.2.2.2.2.2.2.2.2.2.2.2.2.2.2.2.2.2.2.2.2.2.2.2.2.2.2.2.2.2.2.2.2.2.2.2.2.2.2.2.2.2.2.2.2.2.2

/-- What collect keeps, all at once. -/
theorem collect_keeps (msg master access : Nat) (w : Work) :
    (collect msg master access w).fuses = w.fuses ∧ (collect msg master access w).time = w.time ∧
    (collect msg master access w).engines = w.engines ∧ (collect msg master access w).tileq = w.tileq ∧
    (collect msg master access w).syncs = w.syncs ∧ (collect msg master access w).images = w.images ∧
    (collect msg master access w).slices = w.slices ∧ (collect msg master access w).ctxs = w.ctxs ∧
    (collect msg master access w).quads = w.quads ∧ (collect msg master access w).free = w.free ∧
    (collect msg master access w).chans = w.chans ∧ (collect msg master access w).res = w.res ∧
    (collect msg master access w).sched = w.sched ∧ (collect msg master access w).pow = w.pow ∧
    (collect msg master access w).pins = w.pins ∧ (collect msg master access w).tm = w.tm ∧
    (collect msg master access w).ingest = w.ingest ∧ (collect msg master access w).guard = w.guard ∧
    (collect msg master access w).casc = w.casc ∧ (collect msg master access w).cores = w.cores ∧
    (collect msg master access w).safe = w.safe ∧ (collect msg master access w).rst = w.rst ∧
    (collect msg master access w).tap = w.tap ∧ (collect msg master access w).mem = w.mem ∧
    (collect msg master access w).wr = w.wr ∧ (collect msg master access w).dev.state = w.dev.state ∧
    (collect msg master access w).dev.prev = w.dev.prev ∧ (collect msg master access w).dev.cause = w.dev.cause ∧
    (collect msg master access w).dev.warm = w.dev.warm ∧
    (collect msg master access w).dev.noRefclk = w.dev.noRefclk ∧
    (collect msg master access w).dev.ready = w.dev.ready ∧ (collect msg master access w).dev.wake = w.dev.wake ∧
    (collect msg master access w).dev.nodeId = w.dev.nodeId ∧ (collect msg master access w).dev.casc = w.dev.casc ∧
    (collect msg master access w).dev.retained = w.dev.retained ∧
    (collect msg master access w).dev.checksPassed = w.dev.checksPassed ∧
    (collect msg master access w).dev.starting = w.dev.starting ∧
    (collect msg master access w).dev.draining = w.dev.draining ∧
    (collect msg master access w).dev.steps = w.dev.steps ∧
    (collect msg master access w).dev.emergency = w.dev.emergency ∧
    (collect msg master access w).dev.quadLost = w.dev.quadLost ∧
    (collect msg master access w).dev.safetyShed = w.dev.safetyShed ∧
    (collect msg master access w).links.stages = w.links.stages ∧
    (collect msg master access w).links.orders = w.links.orders ∧
    (collect msg master access w).links.usb = w.links.usb ∧ (collect msg master access w).links.udp = w.links.udp ∧
    (collect msg master access w).links.can = w.links.can ∧
    (collect msg master access w).links.ssfCount = w.links.ssfCount ∧
    (collect msg master access w).links.effects = w.links.effects ∧
    (collect msg master access w).links.gcl = w.links.gcl ∧
    (collect msg master access w).links.silent = w.links.silent ∧
    (collect msg master access w).links.joint = w.links.joint := by
  simp only [collect, doIf]; split <;> simp
@[simp] theorem collect_issues (msg master access : Nat) (w : Work) : (collect msg master access w).issues = w.issues := by
  simp only [collect, doIf]; split <;> simp
@[simp] theorem collect_closed (msg master access : Nat) (w : Work) : (collect msg master access w).closed = w.closed := by
  simp only [collect, doIf]; split <;> simp
@[simp] theorem collect_fuses (msg master access : Nat) (w : Work) : (collect msg master access w).fuses = w.fuses :=
  (collect_keeps msg master access w).1
@[simp] theorem collect_time (msg master access : Nat) (w : Work) : (collect msg master access w).time = w.time :=
  (collect_keeps msg master access w).2.1
@[simp] theorem collect_engines (msg master access : Nat) (w : Work) : (collect msg master access w).engines = w.engines :=
  (collect_keeps msg master access w).2.2.1
@[simp] theorem collect_tileq (msg master access : Nat) (w : Work) : (collect msg master access w).tileq = w.tileq :=
  (collect_keeps msg master access w).2.2.2.1
@[simp] theorem collect_syncs (msg master access : Nat) (w : Work) : (collect msg master access w).syncs = w.syncs :=
  (collect_keeps msg master access w).2.2.2.2.1
@[simp] theorem collect_images (msg master access : Nat) (w : Work) : (collect msg master access w).images = w.images :=
  (collect_keeps msg master access w).2.2.2.2.2.1
@[simp] theorem collect_slices (msg master access : Nat) (w : Work) : (collect msg master access w).slices = w.slices :=
  (collect_keeps msg master access w).2.2.2.2.2.2.1
@[simp] theorem collect_ctxs (msg master access : Nat) (w : Work) : (collect msg master access w).ctxs = w.ctxs :=
  (collect_keeps msg master access w).2.2.2.2.2.2.2.1
@[simp] theorem collect_quads (msg master access : Nat) (w : Work) : (collect msg master access w).quads = w.quads :=
  (collect_keeps msg master access w).2.2.2.2.2.2.2.2.1
@[simp] theorem collect_free (msg master access : Nat) (w : Work) : (collect msg master access w).free = w.free :=
  (collect_keeps msg master access w).2.2.2.2.2.2.2.2.2.1
@[simp] theorem collect_chans (msg master access : Nat) (w : Work) : (collect msg master access w).chans = w.chans :=
  (collect_keeps msg master access w).2.2.2.2.2.2.2.2.2.2.1
@[simp] theorem collect_res (msg master access : Nat) (w : Work) : (collect msg master access w).res = w.res :=
  (collect_keeps msg master access w).2.2.2.2.2.2.2.2.2.2.2.1
@[simp] theorem collect_sched (msg master access : Nat) (w : Work) : (collect msg master access w).sched = w.sched :=
  (collect_keeps msg master access w).2.2.2.2.2.2.2.2.2.2.2.2.1
@[simp] theorem collect_pow (msg master access : Nat) (w : Work) : (collect msg master access w).pow = w.pow :=
  (collect_keeps msg master access w).2.2.2.2.2.2.2.2.2.2.2.2.2.1
@[simp] theorem collect_pins (msg master access : Nat) (w : Work) : (collect msg master access w).pins = w.pins :=
  (collect_keeps msg master access w).2.2.2.2.2.2.2.2.2.2.2.2.2.2.1
@[simp] theorem collect_tm (msg master access : Nat) (w : Work) : (collect msg master access w).tm = w.tm :=
  (collect_keeps msg master access w).2.2.2.2.2.2.2.2.2.2.2.2.2.2.2.1
@[simp] theorem collect_ingest (msg master access : Nat) (w : Work) : (collect msg master access w).ingest = w.ingest :=
  (collect_keeps msg master access w).2.2.2.2.2.2.2.2.2.2.2.2.2.2.2.2.1
@[simp] theorem collect_guard (msg master access : Nat) (w : Work) : (collect msg master access w).guard = w.guard :=
  (collect_keeps msg master access w).2.2.2.2.2.2.2.2.2.2.2.2.2.2.2.2.2.1
@[simp] theorem collect_casc (msg master access : Nat) (w : Work) : (collect msg master access w).casc = w.casc :=
  (collect_keeps msg master access w).2.2.2.2.2.2.2.2.2.2.2.2.2.2.2.2.2.2.1
@[simp] theorem collect_cores (msg master access : Nat) (w : Work) : (collect msg master access w).cores = w.cores :=
  (collect_keeps msg master access w).2.2.2.2.2.2.2.2.2.2.2.2.2.2.2.2.2.2.2.1
@[simp] theorem collect_safe (msg master access : Nat) (w : Work) : (collect msg master access w).safe = w.safe :=
  (collect_keeps msg master access w).2.2.2.2.2.2.2.2.2.2.2.2.2.2.2.2.2.2.2.2.1
@[simp] theorem collect_rst (msg master access : Nat) (w : Work) : (collect msg master access w).rst = w.rst :=
  (collect_keeps msg master access w).2.2.2.2.2.2.2.2.2.2.2.2.2.2.2.2.2.2.2.2.2.1
@[simp] theorem collect_tap (msg master access : Nat) (w : Work) : (collect msg master access w).tap = w.tap :=
  (collect_keeps msg master access w).2.2.2.2.2.2.2.2.2.2.2.2.2.2.2.2.2.2.2.2.2.2.1
@[simp] theorem collect_mem (msg master access : Nat) (w : Work) : (collect msg master access w).mem = w.mem :=
  (collect_keeps msg master access w).2.2.2.2.2.2.2.2.2.2.2.2.2.2.2.2.2.2.2.2.2.2.2.1
@[simp] theorem collect_wr (msg master access : Nat) (w : Work) : (collect msg master access w).wr = w.wr :=
  (collect_keeps msg master access w).2.2.2.2.2.2.2.2.2.2.2.2.2.2.2.2.2.2.2.2.2.2.2.2.1
@[simp] theorem collect_dev_state (msg master access : Nat) (w : Work) : (collect msg master access w).dev.state = w.dev.state :=
  (collect_keeps msg master access w).2.2.2.2.2.2.2.2.2.2.2.2.2.2.2.2.2.2.2.2.2.2.2.2.2.1
@[simp] theorem collect_dev_prev (msg master access : Nat) (w : Work) : (collect msg master access w).dev.prev = w.dev.prev :=
  (collect_keeps msg master access w).2.2.2.2.2.2.2.2.2.2.2.2.2.2.2.2.2.2.2.2.2.2.2.2.2.2.1
@[simp] theorem collect_dev_cause (msg master access : Nat) (w : Work) : (collect msg master access w).dev.cause = w.dev.cause :=
  (collect_keeps msg master access w).2.2.2.2.2.2.2.2.2.2.2.2.2.2.2.2.2.2.2.2.2.2.2.2.2.2.2.1
@[simp] theorem collect_dev_warm (msg master access : Nat) (w : Work) : (collect msg master access w).dev.warm = w.dev.warm :=
  (collect_keeps msg master access w).2.2.2.2.2.2.2.2.2.2.2.2.2.2.2.2.2.2.2.2.2.2.2.2.2.2.2.2.1
@[simp] theorem collect_dev_noRefclk (msg master access : Nat) (w : Work) : (collect msg master access w).dev.noRefclk = w.dev.noRefclk :=
  (collect_keeps msg master access w).2.2.2.2.2.2.2.2.2.2.2.2.2.2.2.2.2.2.2.2.2.2.2.2.2.2.2.2.2.1
@[simp] theorem collect_dev_ready (msg master access : Nat) (w : Work) : (collect msg master access w).dev.ready = w.dev.ready :=
  (collect_keeps msg master access w).2.2.2.2.2.2.2.2.2.2.2.2.2.2.2.2.2.2.2.2.2.2.2.2.2.2.2.2.2.2.1
@[simp] theorem collect_dev_wake (msg master access : Nat) (w : Work) : (collect msg master access w).dev.wake = w.dev.wake :=
  (collect_keeps msg master access w).2.2.2.2.2.2.2.2.2.2.2.2.2.2.2.2.2.2.2.2.2.2.2.2.2.2.2.2.2.2.2.1
@[simp] theorem collect_dev_nodeId (msg master access : Nat) (w : Work) : (collect msg master access w).dev.nodeId = w.dev.nodeId :=
  (collect_keeps msg master access w).2.2.2.2.2.2.2.2.2.2.2.2.2.2.2.2.2.2.2.2.2.2.2.2.2.2.2.2.2.2.2.2.1
@[simp] theorem collect_dev_casc (msg master access : Nat) (w : Work) : (collect msg master access w).dev.casc = w.dev.casc :=
  (collect_keeps msg master access w).2.2.2.2.2.2.2.2.2.2.2.2.2.2.2.2.2.2.2.2.2.2.2.2.2.2.2.2.2.2.2.2.2.1
@[simp] theorem collect_dev_retained (msg master access : Nat) (w : Work) : (collect msg master access w).dev.retained = w.dev.retained :=
  (collect_keeps msg master access w).2.2.2.2.2.2.2.2.2.2.2.2.2.2.2.2.2.2.2.2.2.2.2.2.2.2.2.2.2.2.2.2.2.2.1
@[simp] theorem collect_dev_checksPassed (msg master access : Nat) (w : Work) : (collect msg master access w).dev.checksPassed = w.dev.checksPassed :=
  (collect_keeps msg master access w).2.2.2.2.2.2.2.2.2.2.2.2.2.2.2.2.2.2.2.2.2.2.2.2.2.2.2.2.2.2.2.2.2.2.2.1
@[simp] theorem collect_dev_starting (msg master access : Nat) (w : Work) : (collect msg master access w).dev.starting = w.dev.starting :=
  (collect_keeps msg master access w).2.2.2.2.2.2.2.2.2.2.2.2.2.2.2.2.2.2.2.2.2.2.2.2.2.2.2.2.2.2.2.2.2.2.2.2.1
@[simp] theorem collect_dev_draining (msg master access : Nat) (w : Work) : (collect msg master access w).dev.draining = w.dev.draining :=
  (collect_keeps msg master access w).2.2.2.2.2.2.2.2.2.2.2.2.2.2.2.2.2.2.2.2.2.2.2.2.2.2.2.2.2.2.2.2.2.2.2.2.2.1
@[simp] theorem collect_dev_steps (msg master access : Nat) (w : Work) : (collect msg master access w).dev.steps = w.dev.steps :=
  (collect_keeps msg master access w).2.2.2.2.2.2.2.2.2.2.2.2.2.2.2.2.2.2.2.2.2.2.2.2.2.2.2.2.2.2.2.2.2.2.2.2.2.2.1
@[simp] theorem collect_dev_emergency (msg master access : Nat) (w : Work) : (collect msg master access w).dev.emergency = w.dev.emergency :=
  (collect_keeps msg master access w).2.2.2.2.2.2.2.2.2.2.2.2.2.2.2.2.2.2.2.2.2.2.2.2.2.2.2.2.2.2.2.2.2.2.2.2.2.2.2.1
@[simp] theorem collect_dev_quadLost (msg master access : Nat) (w : Work) : (collect msg master access w).dev.quadLost = w.dev.quadLost :=
  (collect_keeps msg master access w).2.2.2.2.2.2.2.2.2.2.2.2.2.2.2.2.2.2.2.2.2.2.2.2.2.2.2.2.2.2.2.2.2.2.2.2.2.2.2.2.1
@[simp] theorem collect_dev_safetyShed (msg master access : Nat) (w : Work) : (collect msg master access w).dev.safetyShed = w.dev.safetyShed :=
  (collect_keeps msg master access w).2.2.2.2.2.2.2.2.2.2.2.2.2.2.2.2.2.2.2.2.2.2.2.2.2.2.2.2.2.2.2.2.2.2.2.2.2.2.2.2.2.1
@[simp] theorem collect_links_stages (msg master access : Nat) (w : Work) : (collect msg master access w).links.stages = w.links.stages :=
  (collect_keeps msg master access w).2.2.2.2.2.2.2.2.2.2.2.2.2.2.2.2.2.2.2.2.2.2.2.2.2.2.2.2.2.2.2.2.2.2.2.2.2.2.2.2.2.2.1
@[simp] theorem collect_links_orders (msg master access : Nat) (w : Work) : (collect msg master access w).links.orders = w.links.orders :=
  (collect_keeps msg master access w).2.2.2.2.2.2.2.2.2.2.2.2.2.2.2.2.2.2.2.2.2.2.2.2.2.2.2.2.2.2.2.2.2.2.2.2.2.2.2.2.2.2.2.1
@[simp] theorem collect_links_usb (msg master access : Nat) (w : Work) : (collect msg master access w).links.usb = w.links.usb :=
  (collect_keeps msg master access w).2.2.2.2.2.2.2.2.2.2.2.2.2.2.2.2.2.2.2.2.2.2.2.2.2.2.2.2.2.2.2.2.2.2.2.2.2.2.2.2.2.2.2.2.1
@[simp] theorem collect_links_udp (msg master access : Nat) (w : Work) : (collect msg master access w).links.udp = w.links.udp :=
  (collect_keeps msg master access w).2.2.2.2.2.2.2.2.2.2.2.2.2.2.2.2.2.2.2.2.2.2.2.2.2.2.2.2.2.2.2.2.2.2.2.2.2.2.2.2.2.2.2.2.2.1
@[simp] theorem collect_links_can (msg master access : Nat) (w : Work) : (collect msg master access w).links.can = w.links.can :=
  (collect_keeps msg master access w).2.2.2.2.2.2.2.2.2.2.2.2.2.2.2.2.2.2.2.2.2.2.2.2.2.2.2.2.2.2.2.2.2.2.2.2.2.2.2.2.2.2.2.2.2.2.1
@[simp] theorem collect_links_ssfCount (msg master access : Nat) (w : Work) : (collect msg master access w).links.ssfCount = w.links.ssfCount :=
  (collect_keeps msg master access w).2.2.2.2.2.2.2.2.2.2.2.2.2.2.2.2.2.2.2.2.2.2.2.2.2.2.2.2.2.2.2.2.2.2.2.2.2.2.2.2.2.2.2.2.2.2.2.1
@[simp] theorem collect_links_effects (msg master access : Nat) (w : Work) : (collect msg master access w).links.effects = w.links.effects :=
  (collect_keeps msg master access w).2.2.2.2.2.2.2.2.2.2.2.2.2.2.2.2.2.2.2.2.2.2.2.2.2.2.2.2.2.2.2.2.2.2.2.2.2.2.2.2.2.2.2.2.2.2.2.2.1
@[simp] theorem collect_links_gcl (msg master access : Nat) (w : Work) : (collect msg master access w).links.gcl = w.links.gcl :=
  (collect_keeps msg master access w).2.2.2.2.2.2.2.2.2.2.2.2.2.2.2.2.2.2.2.2.2.2.2.2.2.2.2.2.2.2.2.2.2.2.2.2.2.2.2.2.2.2.2.2.2.2.2.2.2.1
@[simp] theorem collect_links_silent (msg master access : Nat) (w : Work) : (collect msg master access w).links.silent = w.links.silent :=
  (collect_keeps msg master access w).2.2.2.2.2.2.2.2.2.2.2.2.2.2.2.2.2.2.2.2.2.2.2.2.2.2.2.2.2.2.2.2.2.2.2.2.2.2.2.2.2.2.2.2.2.2.2.2.2.2.1
@[simp] theorem collect_links_joint (msg master access : Nat) (w : Work) : (collect msg master access w).links.joint = w.links.joint :=
  (collect_keeps msg master access w).2.2.2.2.2.2.2.2.2.2.2.2.2.2.2.2.2.2.2.2.2.2.2.2.2.2.2.2.2.2.2.2.2.2.2.2.2.2.2.2.2.2.2.2.2.2.2.2.2.2.2

/-- What raiseBy keeps, all at once. -/
theorem raiseBy_keeps (master access source unit detail : Nat) (w : Work) :
    (raiseBy master access source unit detail w).fuses = w.fuses ∧
    (raiseBy master access source unit detail w).time = w.time ∧
    (raiseBy master access source unit detail w).engines = w.engines ∧
    (raiseBy master access source unit detail w).tileq = w.tileq ∧
    (raiseBy master access source unit detail w).syncs = w.syncs ∧
    (raiseBy master access source unit detail w).images = w.images ∧
    (raiseBy master access source unit detail w).slices = w.slices ∧
    (raiseBy master access source unit detail w).ctxs = w.ctxs ∧
    (raiseBy master access source unit detail w).quads = w.quads ∧
    (raiseBy master access source unit detail w).free = w.free ∧
    (raiseBy master access source unit detail w).chans = w.chans ∧
    (raiseBy master access source unit detail w).res = w.res ∧
    (raiseBy master access source unit detail w).sched = w.sched ∧
    (raiseBy master access source unit detail w).pow = w.pow ∧
    (raiseBy master access source unit detail w).pins = w.pins ∧
    (raiseBy master access source unit detail w).tm = w.tm ∧
    (raiseBy master access source unit detail w).ingest = w.ingest ∧
    (raiseBy master access source unit detail w).guard = w.guard ∧
    (raiseBy master access source unit detail w).casc = w.casc ∧
    (raiseBy master access source unit detail w).cores = w.cores ∧
    (raiseBy master access source unit detail w).safe = w.safe ∧
    (raiseBy master access source unit detail w).rst = w.rst ∧
    (raiseBy master access source unit detail w).tap = w.tap ∧
    (raiseBy master access source unit detail w).mem = w.mem ∧
    (raiseBy master access source unit detail w).wr = w.wr ∧
    (raiseBy master access source unit detail w).dev.state = w.dev.state ∧
    (raiseBy master access source unit detail w).dev.prev = w.dev.prev ∧
    (raiseBy master access source unit detail w).dev.cause = w.dev.cause ∧
    (raiseBy master access source unit detail w).dev.warm = w.dev.warm ∧
    (raiseBy master access source unit detail w).dev.noRefclk = w.dev.noRefclk ∧
    (raiseBy master access source unit detail w).dev.ready = w.dev.ready ∧
    (raiseBy master access source unit detail w).dev.wake = w.dev.wake ∧
    (raiseBy master access source unit detail w).dev.nodeId = w.dev.nodeId ∧
    (raiseBy master access source unit detail w).dev.casc = w.dev.casc ∧
    (raiseBy master access source unit detail w).dev.retained = w.dev.retained ∧
    (raiseBy master access source unit detail w).dev.checksPassed = w.dev.checksPassed ∧
    (raiseBy master access source unit detail w).dev.starting = w.dev.starting ∧
    (raiseBy master access source unit detail w).dev.draining = w.dev.draining ∧
    (raiseBy master access source unit detail w).dev.steps = w.dev.steps ∧
    (raiseBy master access source unit detail w).dev.emergency = w.dev.emergency ∧
    (raiseBy master access source unit detail w).dev.quadLost = w.dev.quadLost ∧
    (raiseBy master access source unit detail w).dev.safetyShed = w.dev.safetyShed ∧
    (raiseBy master access source unit detail w).links.stages = w.links.stages ∧
    (raiseBy master access source unit detail w).links.orders = w.links.orders ∧
    (raiseBy master access source unit detail w).links.usb = w.links.usb ∧
    (raiseBy master access source unit detail w).links.udp = w.links.udp ∧
    (raiseBy master access source unit detail w).links.can = w.links.can ∧
    (raiseBy master access source unit detail w).links.ssfCount = w.links.ssfCount ∧
    (raiseBy master access source unit detail w).links.effects = w.links.effects ∧
    (raiseBy master access source unit detail w).links.gcl = w.links.gcl ∧
    (raiseBy master access source unit detail w).links.silent = w.links.silent ∧
    (raiseBy master access source unit detail w).links.joint = w.links.joint := by
  simp [raiseBy]
@[simp] theorem raiseBy_issues (master access source unit detail : Nat) (w : Work) : (raiseBy master access source unit detail w).issues = w.issues := by
  simp [raiseBy]
@[simp] theorem raiseBy_closed (master access source unit detail : Nat) (w : Work) : (raiseBy master access source unit detail w).closed = w.closed := by
  simp [raiseBy]
@[simp] theorem raiseBy_fuses (master access source unit detail : Nat) (w : Work) : (raiseBy master access source unit detail w).fuses = w.fuses :=
  (raiseBy_keeps master access source unit detail w).1
@[simp] theorem raiseBy_time (master access source unit detail : Nat) (w : Work) : (raiseBy master access source unit detail w).time = w.time :=
  (raiseBy_keeps master access source unit detail w).2.1
@[simp] theorem raiseBy_engines (master access source unit detail : Nat) (w : Work) : (raiseBy master access source unit detail w).engines = w.engines :=
  (raiseBy_keeps master access source unit detail w).2.2.1
@[simp] theorem raiseBy_tileq (master access source unit detail : Nat) (w : Work) : (raiseBy master access source unit detail w).tileq = w.tileq :=
  (raiseBy_keeps master access source unit detail w).2.2.2.1
@[simp] theorem raiseBy_syncs (master access source unit detail : Nat) (w : Work) : (raiseBy master access source unit detail w).syncs = w.syncs :=
  (raiseBy_keeps master access source unit detail w).2.2.2.2.1
@[simp] theorem raiseBy_images (master access source unit detail : Nat) (w : Work) : (raiseBy master access source unit detail w).images = w.images :=
  (raiseBy_keeps master access source unit detail w).2.2.2.2.2.1
@[simp] theorem raiseBy_slices (master access source unit detail : Nat) (w : Work) : (raiseBy master access source unit detail w).slices = w.slices :=
  (raiseBy_keeps master access source unit detail w).2.2.2.2.2.2.1
@[simp] theorem raiseBy_ctxs (master access source unit detail : Nat) (w : Work) : (raiseBy master access source unit detail w).ctxs = w.ctxs :=
  (raiseBy_keeps master access source unit detail w).2.2.2.2.2.2.2.1
@[simp] theorem raiseBy_quads (master access source unit detail : Nat) (w : Work) : (raiseBy master access source unit detail w).quads = w.quads :=
  (raiseBy_keeps master access source unit detail w).2.2.2.2.2.2.2.2.1
@[simp] theorem raiseBy_free (master access source unit detail : Nat) (w : Work) : (raiseBy master access source unit detail w).free = w.free :=
  (raiseBy_keeps master access source unit detail w).2.2.2.2.2.2.2.2.2.1
@[simp] theorem raiseBy_chans (master access source unit detail : Nat) (w : Work) : (raiseBy master access source unit detail w).chans = w.chans :=
  (raiseBy_keeps master access source unit detail w).2.2.2.2.2.2.2.2.2.2.1
@[simp] theorem raiseBy_res (master access source unit detail : Nat) (w : Work) : (raiseBy master access source unit detail w).res = w.res :=
  (raiseBy_keeps master access source unit detail w).2.2.2.2.2.2.2.2.2.2.2.1
@[simp] theorem raiseBy_sched (master access source unit detail : Nat) (w : Work) : (raiseBy master access source unit detail w).sched = w.sched :=
  (raiseBy_keeps master access source unit detail w).2.2.2.2.2.2.2.2.2.2.2.2.1
@[simp] theorem raiseBy_pow (master access source unit detail : Nat) (w : Work) : (raiseBy master access source unit detail w).pow = w.pow :=
  (raiseBy_keeps master access source unit detail w).2.2.2.2.2.2.2.2.2.2.2.2.2.1
@[simp] theorem raiseBy_pins (master access source unit detail : Nat) (w : Work) : (raiseBy master access source unit detail w).pins = w.pins :=
  (raiseBy_keeps master access source unit detail w).2.2.2.2.2.2.2.2.2.2.2.2.2.2.1
@[simp] theorem raiseBy_tm (master access source unit detail : Nat) (w : Work) : (raiseBy master access source unit detail w).tm = w.tm :=
  (raiseBy_keeps master access source unit detail w).2.2.2.2.2.2.2.2.2.2.2.2.2.2.2.1
@[simp] theorem raiseBy_ingest (master access source unit detail : Nat) (w : Work) : (raiseBy master access source unit detail w).ingest = w.ingest :=
  (raiseBy_keeps master access source unit detail w).2.2.2.2.2.2.2.2.2.2.2.2.2.2.2.2.1
@[simp] theorem raiseBy_guard (master access source unit detail : Nat) (w : Work) : (raiseBy master access source unit detail w).guard = w.guard :=
  (raiseBy_keeps master access source unit detail w).2.2.2.2.2.2.2.2.2.2.2.2.2.2.2.2.2.1
@[simp] theorem raiseBy_casc (master access source unit detail : Nat) (w : Work) : (raiseBy master access source unit detail w).casc = w.casc :=
  (raiseBy_keeps master access source unit detail w).2.2.2.2.2.2.2.2.2.2.2.2.2.2.2.2.2.2.1
@[simp] theorem raiseBy_cores (master access source unit detail : Nat) (w : Work) : (raiseBy master access source unit detail w).cores = w.cores :=
  (raiseBy_keeps master access source unit detail w).2.2.2.2.2.2.2.2.2.2.2.2.2.2.2.2.2.2.2.1
@[simp] theorem raiseBy_safe (master access source unit detail : Nat) (w : Work) : (raiseBy master access source unit detail w).safe = w.safe :=
  (raiseBy_keeps master access source unit detail w).2.2.2.2.2.2.2.2.2.2.2.2.2.2.2.2.2.2.2.2.1
@[simp] theorem raiseBy_rst (master access source unit detail : Nat) (w : Work) : (raiseBy master access source unit detail w).rst = w.rst :=
  (raiseBy_keeps master access source unit detail w).2.2.2.2.2.2.2.2.2.2.2.2.2.2.2.2.2.2.2.2.2.1
@[simp] theorem raiseBy_tap (master access source unit detail : Nat) (w : Work) : (raiseBy master access source unit detail w).tap = w.tap :=
  (raiseBy_keeps master access source unit detail w).2.2.2.2.2.2.2.2.2.2.2.2.2.2.2.2.2.2.2.2.2.2.1
@[simp] theorem raiseBy_mem (master access source unit detail : Nat) (w : Work) : (raiseBy master access source unit detail w).mem = w.mem :=
  (raiseBy_keeps master access source unit detail w).2.2.2.2.2.2.2.2.2.2.2.2.2.2.2.2.2.2.2.2.2.2.2.1
@[simp] theorem raiseBy_wr (master access source unit detail : Nat) (w : Work) : (raiseBy master access source unit detail w).wr = w.wr :=
  (raiseBy_keeps master access source unit detail w).2.2.2.2.2.2.2.2.2.2.2.2.2.2.2.2.2.2.2.2.2.2.2.2.1
@[simp] theorem raiseBy_dev_state (master access source unit detail : Nat) (w : Work) : (raiseBy master access source unit detail w).dev.state = w.dev.state :=
  (raiseBy_keeps master access source unit detail w).2.2.2.2.2.2.2.2.2.2.2.2.2.2.2.2.2.2.2.2.2.2.2.2.2.1
@[simp] theorem raiseBy_dev_prev (master access source unit detail : Nat) (w : Work) : (raiseBy master access source unit detail w).dev.prev = w.dev.prev :=
  (raiseBy_keeps master access source unit detail w).2.2.2.2.2.2.2.2.2.2.2.2.2.2.2.2.2.2.2.2.2.2.2.2.2.2.1
@[simp] theorem raiseBy_dev_cause (master access source unit detail : Nat) (w : Work) : (raiseBy master access source unit detail w).dev.cause = w.dev.cause :=
  (raiseBy_keeps master access source unit detail w).2.2.2.2.2.2.2.2.2.2.2.2.2.2.2.2.2.2.2.2.2.2.2.2.2.2.2.1
@[simp] theorem raiseBy_dev_warm (master access source unit detail : Nat) (w : Work) : (raiseBy master access source unit detail w).dev.warm = w.dev.warm :=
  (raiseBy_keeps master access source unit detail w).2.2.2.2.2.2.2.2.2.2.2.2.2.2.2.2.2.2.2.2.2.2.2.2.2.2.2.2.1
@[simp] theorem raiseBy_dev_noRefclk (master access source unit detail : Nat) (w : Work) : (raiseBy master access source unit detail w).dev.noRefclk = w.dev.noRefclk :=
  (raiseBy_keeps master access source unit detail w).2.2.2.2.2.2.2.2.2.2.2.2.2.2.2.2.2.2.2.2.2.2.2.2.2.2.2.2.2.1
@[simp] theorem raiseBy_dev_ready (master access source unit detail : Nat) (w : Work) : (raiseBy master access source unit detail w).dev.ready = w.dev.ready :=
  (raiseBy_keeps master access source unit detail w).2.2.2.2.2.2.2.2.2.2.2.2.2.2.2.2.2.2.2.2.2.2.2.2.2.2.2.2.2.2.1
@[simp] theorem raiseBy_dev_wake (master access source unit detail : Nat) (w : Work) : (raiseBy master access source unit detail w).dev.wake = w.dev.wake :=
  (raiseBy_keeps master access source unit detail w).2.2.2.2.2.2.2.2.2.2.2.2.2.2.2.2.2.2.2.2.2.2.2.2.2.2.2.2.2.2.2.1
@[simp] theorem raiseBy_dev_nodeId (master access source unit detail : Nat) (w : Work) : (raiseBy master access source unit detail w).dev.nodeId = w.dev.nodeId :=
  (raiseBy_keeps master access source unit detail w).2.2.2.2.2.2.2.2.2.2.2.2.2.2.2.2.2.2.2.2.2.2.2.2.2.2.2.2.2.2.2.2.1
@[simp] theorem raiseBy_dev_casc (master access source unit detail : Nat) (w : Work) : (raiseBy master access source unit detail w).dev.casc = w.dev.casc :=
  (raiseBy_keeps master access source unit detail w).2.2.2.2.2.2.2.2.2.2.2.2.2.2.2.2.2.2.2.2.2.2.2.2.2.2.2.2.2.2.2.2.2.1
@[simp] theorem raiseBy_dev_retained (master access source unit detail : Nat) (w : Work) : (raiseBy master access source unit detail w).dev.retained = w.dev.retained :=
  (raiseBy_keeps master access source unit detail w).2.2.2.2.2.2.2.2.2.2.2.2.2.2.2.2.2.2.2.2.2.2.2.2.2.2.2.2.2.2.2.2.2.2.1
@[simp] theorem raiseBy_dev_checksPassed (master access source unit detail : Nat) (w : Work) : (raiseBy master access source unit detail w).dev.checksPassed = w.dev.checksPassed :=
  (raiseBy_keeps master access source unit detail w).2.2.2.2.2.2.2.2.2.2.2.2.2.2.2.2.2.2.2.2.2.2.2.2.2.2.2.2.2.2.2.2.2.2.2.1
@[simp] theorem raiseBy_dev_starting (master access source unit detail : Nat) (w : Work) : (raiseBy master access source unit detail w).dev.starting = w.dev.starting :=
  (raiseBy_keeps master access source unit detail w).2.2.2.2.2.2.2.2.2.2.2.2.2.2.2.2.2.2.2.2.2.2.2.2.2.2.2.2.2.2.2.2.2.2.2.2.1
@[simp] theorem raiseBy_dev_draining (master access source unit detail : Nat) (w : Work) : (raiseBy master access source unit detail w).dev.draining = w.dev.draining :=
  (raiseBy_keeps master access source unit detail w).2.2.2.2.2.2.2.2.2.2.2.2.2.2.2.2.2.2.2.2.2.2.2.2.2.2.2.2.2.2.2.2.2.2.2.2.2.1
@[simp] theorem raiseBy_dev_steps (master access source unit detail : Nat) (w : Work) : (raiseBy master access source unit detail w).dev.steps = w.dev.steps :=
  (raiseBy_keeps master access source unit detail w).2.2.2.2.2.2.2.2.2.2.2.2.2.2.2.2.2.2.2.2.2.2.2.2.2.2.2.2.2.2.2.2.2.2.2.2.2.2.1
@[simp] theorem raiseBy_dev_emergency (master access source unit detail : Nat) (w : Work) : (raiseBy master access source unit detail w).dev.emergency = w.dev.emergency :=
  (raiseBy_keeps master access source unit detail w).2.2.2.2.2.2.2.2.2.2.2.2.2.2.2.2.2.2.2.2.2.2.2.2.2.2.2.2.2.2.2.2.2.2.2.2.2.2.2.1
@[simp] theorem raiseBy_dev_quadLost (master access source unit detail : Nat) (w : Work) : (raiseBy master access source unit detail w).dev.quadLost = w.dev.quadLost :=
  (raiseBy_keeps master access source unit detail w).2.2.2.2.2.2.2.2.2.2.2.2.2.2.2.2.2.2.2.2.2.2.2.2.2.2.2.2.2.2.2.2.2.2.2.2.2.2.2.2.1
@[simp] theorem raiseBy_dev_safetyShed (master access source unit detail : Nat) (w : Work) : (raiseBy master access source unit detail w).dev.safetyShed = w.dev.safetyShed :=
  (raiseBy_keeps master access source unit detail w).2.2.2.2.2.2.2.2.2.2.2.2.2.2.2.2.2.2.2.2.2.2.2.2.2.2.2.2.2.2.2.2.2.2.2.2.2.2.2.2.2.1
@[simp] theorem raiseBy_links_stages (master access source unit detail : Nat) (w : Work) : (raiseBy master access source unit detail w).links.stages = w.links.stages :=
  (raiseBy_keeps master access source unit detail w).2.2.2.2.2.2.2.2.2.2.2.2.2.2.2.2.2.2.2.2.2.2.2.2.2.2.2.2.2.2.2.2.2.2.2.2.2.2.2.2.2.2.1
@[simp] theorem raiseBy_links_orders (master access source unit detail : Nat) (w : Work) : (raiseBy master access source unit detail w).links.orders = w.links.orders :=
  (raiseBy_keeps master access source unit detail w).2.2.2.2.2.2.2.2.2.2.2.2.2.2.2.2.2.2.2.2.2.2.2.2.2.2.2.2.2.2.2.2.2.2.2.2.2.2.2.2.2.2.2.1
@[simp] theorem raiseBy_links_usb (master access source unit detail : Nat) (w : Work) : (raiseBy master access source unit detail w).links.usb = w.links.usb :=
  (raiseBy_keeps master access source unit detail w).2.2.2.2.2.2.2.2.2.2.2.2.2.2.2.2.2.2.2.2.2.2.2.2.2.2.2.2.2.2.2.2.2.2.2.2.2.2.2.2.2.2.2.2.1
@[simp] theorem raiseBy_links_udp (master access source unit detail : Nat) (w : Work) : (raiseBy master access source unit detail w).links.udp = w.links.udp :=
  (raiseBy_keeps master access source unit detail w).2.2.2.2.2.2.2.2.2.2.2.2.2.2.2.2.2.2.2.2.2.2.2.2.2.2.2.2.2.2.2.2.2.2.2.2.2.2.2.2.2.2.2.2.2.1
@[simp] theorem raiseBy_links_can (master access source unit detail : Nat) (w : Work) : (raiseBy master access source unit detail w).links.can = w.links.can :=
  (raiseBy_keeps master access source unit detail w).2.2.2.2.2.2.2.2.2.2.2.2.2.2.2.2.2.2.2.2.2.2.2.2.2.2.2.2.2.2.2.2.2.2.2.2.2.2.2.2.2.2.2.2.2.2.1
@[simp] theorem raiseBy_links_ssfCount (master access source unit detail : Nat) (w : Work) : (raiseBy master access source unit detail w).links.ssfCount = w.links.ssfCount :=
  (raiseBy_keeps master access source unit detail w).2.2.2.2.2.2.2.2.2.2.2.2.2.2.2.2.2.2.2.2.2.2.2.2.2.2.2.2.2.2.2.2.2.2.2.2.2.2.2.2.2.2.2.2.2.2.2.1
@[simp] theorem raiseBy_links_effects (master access source unit detail : Nat) (w : Work) : (raiseBy master access source unit detail w).links.effects = w.links.effects :=
  (raiseBy_keeps master access source unit detail w).2.2.2.2.2.2.2.2.2.2.2.2.2.2.2.2.2.2.2.2.2.2.2.2.2.2.2.2.2.2.2.2.2.2.2.2.2.2.2.2.2.2.2.2.2.2.2.2.1
@[simp] theorem raiseBy_links_gcl (master access source unit detail : Nat) (w : Work) : (raiseBy master access source unit detail w).links.gcl = w.links.gcl :=
  (raiseBy_keeps master access source unit detail w).2.2.2.2.2.2.2.2.2.2.2.2.2.2.2.2.2.2.2.2.2.2.2.2.2.2.2.2.2.2.2.2.2.2.2.2.2.2.2.2.2.2.2.2.2.2.2.2.2.1
@[simp] theorem raiseBy_links_silent (master access source unit detail : Nat) (w : Work) : (raiseBy master access source unit detail w).links.silent = w.links.silent :=
  (raiseBy_keeps master access source unit detail w).2.2.2.2.2.2.2.2.2.2.2.2.2.2.2.2.2.2.2.2.2.2.2.2.2.2.2.2.2.2.2.2.2.2.2.2.2.2.2.2.2.2.2.2.2.2.2.2.2.2.1
@[simp] theorem raiseBy_links_joint (master access source unit detail : Nat) (w : Work) : (raiseBy master access source unit detail w).links.joint = w.links.joint :=
  (raiseBy_keeps master access source unit detail w).2.2.2.2.2.2.2.2.2.2.2.2.2.2.2.2.2.2.2.2.2.2.2.2.2.2.2.2.2.2.2.2.2.2.2.2.2.2.2.2.2.2.2.2.2.2.2.2.2.2.2

/-- What raise keeps, all at once. -/
theorem raise_keeps (source unit detail : Nat) (w : Work) :
    (raise source unit detail w).fuses = w.fuses ∧ (raise source unit detail w).time = w.time ∧
    (raise source unit detail w).engines = w.engines ∧ (raise source unit detail w).tileq = w.tileq ∧
    (raise source unit detail w).syncs = w.syncs ∧ (raise source unit detail w).images = w.images ∧
    (raise source unit detail w).slices = w.slices ∧ (raise source unit detail w).ctxs = w.ctxs ∧
    (raise source unit detail w).quads = w.quads ∧ (raise source unit detail w).free = w.free ∧
    (raise source unit detail w).chans = w.chans ∧ (raise source unit detail w).res = w.res ∧
    (raise source unit detail w).sched = w.sched ∧ (raise source unit detail w).pow = w.pow ∧
    (raise source unit detail w).pins = w.pins ∧ (raise source unit detail w).tm = w.tm ∧
    (raise source unit detail w).ingest = w.ingest ∧ (raise source unit detail w).guard = w.guard ∧
    (raise source unit detail w).casc = w.casc ∧ (raise source unit detail w).cores = w.cores ∧
    (raise source unit detail w).safe = w.safe ∧ (raise source unit detail w).rst = w.rst ∧
    (raise source unit detail w).tap = w.tap ∧ (raise source unit detail w).mem = w.mem ∧
    (raise source unit detail w).wr = w.wr ∧ (raise source unit detail w).dev.state = w.dev.state ∧
    (raise source unit detail w).dev.prev = w.dev.prev ∧ (raise source unit detail w).dev.cause = w.dev.cause ∧
    (raise source unit detail w).dev.warm = w.dev.warm ∧ (raise source unit detail w).dev.noRefclk = w.dev.noRefclk ∧
    (raise source unit detail w).dev.ready = w.dev.ready ∧ (raise source unit detail w).dev.wake = w.dev.wake ∧
    (raise source unit detail w).dev.nodeId = w.dev.nodeId ∧ (raise source unit detail w).dev.casc = w.dev.casc ∧
    (raise source unit detail w).dev.retained = w.dev.retained ∧
    (raise source unit detail w).dev.checksPassed = w.dev.checksPassed ∧
    (raise source unit detail w).dev.starting = w.dev.starting ∧
    (raise source unit detail w).dev.draining = w.dev.draining ∧ (raise source unit detail w).dev.steps = w.dev.steps ∧
    (raise source unit detail w).dev.emergency = w.dev.emergency ∧
    (raise source unit detail w).dev.quadLost = w.dev.quadLost ∧
    (raise source unit detail w).dev.safetyShed = w.dev.safetyShed ∧
    (raise source unit detail w).links.stages = w.links.stages ∧
    (raise source unit detail w).links.orders = w.links.orders ∧
    (raise source unit detail w).links.usb = w.links.usb ∧ (raise source unit detail w).links.udp = w.links.udp ∧
    (raise source unit detail w).links.can = w.links.can ∧
    (raise source unit detail w).links.ssfCount = w.links.ssfCount ∧
    (raise source unit detail w).links.effects = w.links.effects ∧
    (raise source unit detail w).links.gcl = w.links.gcl ∧
    (raise source unit detail w).links.silent = w.links.silent ∧
    (raise source unit detail w).links.joint = w.links.joint := by
  simp [raise]
@[simp] theorem raise_issues (source unit detail : Nat) (w : Work) : (raise source unit detail w).issues = w.issues := by
  simp [raise]
@[simp] theorem raise_closed (source unit detail : Nat) (w : Work) : (raise source unit detail w).closed = w.closed := by
  simp [raise]
@[simp] theorem raise_fuses (source unit detail : Nat) (w : Work) : (raise source unit detail w).fuses = w.fuses :=
  (raise_keeps source unit detail w).1
@[simp] theorem raise_time (source unit detail : Nat) (w : Work) : (raise source unit detail w).time = w.time :=
  (raise_keeps source unit detail w).2.1
@[simp] theorem raise_engines (source unit detail : Nat) (w : Work) : (raise source unit detail w).engines = w.engines :=
  (raise_keeps source unit detail w).2.2.1
@[simp] theorem raise_tileq (source unit detail : Nat) (w : Work) : (raise source unit detail w).tileq = w.tileq :=
  (raise_keeps source unit detail w).2.2.2.1
@[simp] theorem raise_syncs (source unit detail : Nat) (w : Work) : (raise source unit detail w).syncs = w.syncs :=
  (raise_keeps source unit detail w).2.2.2.2.1
@[simp] theorem raise_images (source unit detail : Nat) (w : Work) : (raise source unit detail w).images = w.images :=
  (raise_keeps source unit detail w).2.2.2.2.2.1
@[simp] theorem raise_slices (source unit detail : Nat) (w : Work) : (raise source unit detail w).slices = w.slices :=
  (raise_keeps source unit detail w).2.2.2.2.2.2.1
@[simp] theorem raise_ctxs (source unit detail : Nat) (w : Work) : (raise source unit detail w).ctxs = w.ctxs :=
  (raise_keeps source unit detail w).2.2.2.2.2.2.2.1
@[simp] theorem raise_quads (source unit detail : Nat) (w : Work) : (raise source unit detail w).quads = w.quads :=
  (raise_keeps source unit detail w).2.2.2.2.2.2.2.2.1
@[simp] theorem raise_free (source unit detail : Nat) (w : Work) : (raise source unit detail w).free = w.free :=
  (raise_keeps source unit detail w).2.2.2.2.2.2.2.2.2.1
@[simp] theorem raise_chans (source unit detail : Nat) (w : Work) : (raise source unit detail w).chans = w.chans :=
  (raise_keeps source unit detail w).2.2.2.2.2.2.2.2.2.2.1
@[simp] theorem raise_res (source unit detail : Nat) (w : Work) : (raise source unit detail w).res = w.res :=
  (raise_keeps source unit detail w).2.2.2.2.2.2.2.2.2.2.2.1
@[simp] theorem raise_sched (source unit detail : Nat) (w : Work) : (raise source unit detail w).sched = w.sched :=
  (raise_keeps source unit detail w).2.2.2.2.2.2.2.2.2.2.2.2.1
@[simp] theorem raise_pow (source unit detail : Nat) (w : Work) : (raise source unit detail w).pow = w.pow :=
  (raise_keeps source unit detail w).2.2.2.2.2.2.2.2.2.2.2.2.2.1
@[simp] theorem raise_pins (source unit detail : Nat) (w : Work) : (raise source unit detail w).pins = w.pins :=
  (raise_keeps source unit detail w).2.2.2.2.2.2.2.2.2.2.2.2.2.2.1
@[simp] theorem raise_tm (source unit detail : Nat) (w : Work) : (raise source unit detail w).tm = w.tm :=
  (raise_keeps source unit detail w).2.2.2.2.2.2.2.2.2.2.2.2.2.2.2.1
@[simp] theorem raise_ingest (source unit detail : Nat) (w : Work) : (raise source unit detail w).ingest = w.ingest :=
  (raise_keeps source unit detail w).2.2.2.2.2.2.2.2.2.2.2.2.2.2.2.2.1
@[simp] theorem raise_guard (source unit detail : Nat) (w : Work) : (raise source unit detail w).guard = w.guard :=
  (raise_keeps source unit detail w).2.2.2.2.2.2.2.2.2.2.2.2.2.2.2.2.2.1
@[simp] theorem raise_casc (source unit detail : Nat) (w : Work) : (raise source unit detail w).casc = w.casc :=
  (raise_keeps source unit detail w).2.2.2.2.2.2.2.2.2.2.2.2.2.2.2.2.2.2.1
@[simp] theorem raise_cores (source unit detail : Nat) (w : Work) : (raise source unit detail w).cores = w.cores :=
  (raise_keeps source unit detail w).2.2.2.2.2.2.2.2.2.2.2.2.2.2.2.2.2.2.2.1
@[simp] theorem raise_safe (source unit detail : Nat) (w : Work) : (raise source unit detail w).safe = w.safe :=
  (raise_keeps source unit detail w).2.2.2.2.2.2.2.2.2.2.2.2.2.2.2.2.2.2.2.2.1
@[simp] theorem raise_rst (source unit detail : Nat) (w : Work) : (raise source unit detail w).rst = w.rst :=
  (raise_keeps source unit detail w).2.2.2.2.2.2.2.2.2.2.2.2.2.2.2.2.2.2.2.2.2.1
@[simp] theorem raise_tap (source unit detail : Nat) (w : Work) : (raise source unit detail w).tap = w.tap :=
  (raise_keeps source unit detail w).2.2.2.2.2.2.2.2.2.2.2.2.2.2.2.2.2.2.2.2.2.2.1
@[simp] theorem raise_mem (source unit detail : Nat) (w : Work) : (raise source unit detail w).mem = w.mem :=
  (raise_keeps source unit detail w).2.2.2.2.2.2.2.2.2.2.2.2.2.2.2.2.2.2.2.2.2.2.2.1
@[simp] theorem raise_wr (source unit detail : Nat) (w : Work) : (raise source unit detail w).wr = w.wr :=
  (raise_keeps source unit detail w).2.2.2.2.2.2.2.2.2.2.2.2.2.2.2.2.2.2.2.2.2.2.2.2.1
@[simp] theorem raise_dev_state (source unit detail : Nat) (w : Work) : (raise source unit detail w).dev.state = w.dev.state :=
  (raise_keeps source unit detail w).2.2.2.2.2.2.2.2.2.2.2.2.2.2.2.2.2.2.2.2.2.2.2.2.2.1
@[simp] theorem raise_dev_prev (source unit detail : Nat) (w : Work) : (raise source unit detail w).dev.prev = w.dev.prev :=
  (raise_keeps source unit detail w).2.2.2.2.2.2.2.2.2.2.2.2.2.2.2.2.2.2.2.2.2.2.2.2.2.2.1
@[simp] theorem raise_dev_cause (source unit detail : Nat) (w : Work) : (raise source unit detail w).dev.cause = w.dev.cause :=
  (raise_keeps source unit detail w).2.2.2.2.2.2.2.2.2.2.2.2.2.2.2.2.2.2.2.2.2.2.2.2.2.2.2.1
@[simp] theorem raise_dev_warm (source unit detail : Nat) (w : Work) : (raise source unit detail w).dev.warm = w.dev.warm :=
  (raise_keeps source unit detail w).2.2.2.2.2.2.2.2.2.2.2.2.2.2.2.2.2.2.2.2.2.2.2.2.2.2.2.2.1
@[simp] theorem raise_dev_noRefclk (source unit detail : Nat) (w : Work) : (raise source unit detail w).dev.noRefclk = w.dev.noRefclk :=
  (raise_keeps source unit detail w).2.2.2.2.2.2.2.2.2.2.2.2.2.2.2.2.2.2.2.2.2.2.2.2.2.2.2.2.2.1
@[simp] theorem raise_dev_ready (source unit detail : Nat) (w : Work) : (raise source unit detail w).dev.ready = w.dev.ready :=
  (raise_keeps source unit detail w).2.2.2.2.2.2.2.2.2.2.2.2.2.2.2.2.2.2.2.2.2.2.2.2.2.2.2.2.2.2.1
@[simp] theorem raise_dev_wake (source unit detail : Nat) (w : Work) : (raise source unit detail w).dev.wake = w.dev.wake :=
  (raise_keeps source unit detail w).2.2.2.2.2.2.2.2.2.2.2.2.2.2.2.2.2.2.2.2.2.2.2.2.2.2.2.2.2.2.2.1
@[simp] theorem raise_dev_nodeId (source unit detail : Nat) (w : Work) : (raise source unit detail w).dev.nodeId = w.dev.nodeId :=
  (raise_keeps source unit detail w).2.2.2.2.2.2.2.2.2.2.2.2.2.2.2.2.2.2.2.2.2.2.2.2.2.2.2.2.2.2.2.2.1
@[simp] theorem raise_dev_casc (source unit detail : Nat) (w : Work) : (raise source unit detail w).dev.casc = w.dev.casc :=
  (raise_keeps source unit detail w).2.2.2.2.2.2.2.2.2.2.2.2.2.2.2.2.2.2.2.2.2.2.2.2.2.2.2.2.2.2.2.2.2.1
@[simp] theorem raise_dev_retained (source unit detail : Nat) (w : Work) : (raise source unit detail w).dev.retained = w.dev.retained :=
  (raise_keeps source unit detail w).2.2.2.2.2.2.2.2.2.2.2.2.2.2.2.2.2.2.2.2.2.2.2.2.2.2.2.2.2.2.2.2.2.2.1
@[simp] theorem raise_dev_checksPassed (source unit detail : Nat) (w : Work) : (raise source unit detail w).dev.checksPassed = w.dev.checksPassed :=
  (raise_keeps source unit detail w).2.2.2.2.2.2.2.2.2.2.2.2.2.2.2.2.2.2.2.2.2.2.2.2.2.2.2.2.2.2.2.2.2.2.2.1
@[simp] theorem raise_dev_starting (source unit detail : Nat) (w : Work) : (raise source unit detail w).dev.starting = w.dev.starting :=
  (raise_keeps source unit detail w).2.2.2.2.2.2.2.2.2.2.2.2.2.2.2.2.2.2.2.2.2.2.2.2.2.2.2.2.2.2.2.2.2.2.2.2.1
@[simp] theorem raise_dev_draining (source unit detail : Nat) (w : Work) : (raise source unit detail w).dev.draining = w.dev.draining :=
  (raise_keeps source unit detail w).2.2.2.2.2.2.2.2.2.2.2.2.2.2.2.2.2.2.2.2.2.2.2.2.2.2.2.2.2.2.2.2.2.2.2.2.2.1
@[simp] theorem raise_dev_steps (source unit detail : Nat) (w : Work) : (raise source unit detail w).dev.steps = w.dev.steps :=
  (raise_keeps source unit detail w).2.2.2.2.2.2.2.2.2.2.2.2.2.2.2.2.2.2.2.2.2.2.2.2.2.2.2.2.2.2.2.2.2.2.2.2.2.2.1
@[simp] theorem raise_dev_emergency (source unit detail : Nat) (w : Work) : (raise source unit detail w).dev.emergency = w.dev.emergency :=
  (raise_keeps source unit detail w).2.2.2.2.2.2.2.2.2.2.2.2.2.2.2.2.2.2.2.2.2.2.2.2.2.2.2.2.2.2.2.2.2.2.2.2.2.2.2.1
@[simp] theorem raise_dev_quadLost (source unit detail : Nat) (w : Work) : (raise source unit detail w).dev.quadLost = w.dev.quadLost :=
  (raise_keeps source unit detail w).2.2.2.2.2.2.2.2.2.2.2.2.2.2.2.2.2.2.2.2.2.2.2.2.2.2.2.2.2.2.2.2.2.2.2.2.2.2.2.2.1
@[simp] theorem raise_dev_safetyShed (source unit detail : Nat) (w : Work) : (raise source unit detail w).dev.safetyShed = w.dev.safetyShed :=
  (raise_keeps source unit detail w).2.2.2.2.2.2.2.2.2.2.2.2.2.2.2.2.2.2.2.2.2.2.2.2.2.2.2.2.2.2.2.2.2.2.2.2.2.2.2.2.2.1
@[simp] theorem raise_links_stages (source unit detail : Nat) (w : Work) : (raise source unit detail w).links.stages = w.links.stages :=
  (raise_keeps source unit detail w).2.2.2.2.2.2.2.2.2.2.2.2.2.2.2.2.2.2.2.2.2.2.2.2.2.2.2.2.2.2.2.2.2.2.2.2.2.2.2.2.2.2.1
@[simp] theorem raise_links_orders (source unit detail : Nat) (w : Work) : (raise source unit detail w).links.orders = w.links.orders :=
  (raise_keeps source unit detail w).2.2.2.2.2.2.2.2.2.2.2.2.2.2.2.2.2.2.2.2.2.2.2.2.2.2.2.2.2.2.2.2.2.2.2.2.2.2.2.2.2.2.2.1
@[simp] theorem raise_links_usb (source unit detail : Nat) (w : Work) : (raise source unit detail w).links.usb = w.links.usb :=
  (raise_keeps source unit detail w).2.2.2.2.2.2.2.2.2.2.2.2.2.2.2.2.2.2.2.2.2.2.2.2.2.2.2.2.2.2.2.2.2.2.2.2.2.2.2.2.2.2.2.2.1
@[simp] theorem raise_links_udp (source unit detail : Nat) (w : Work) : (raise source unit detail w).links.udp = w.links.udp :=
  (raise_keeps source unit detail w).2.2.2.2.2.2.2.2.2.2.2.2.2.2.2.2.2.2.2.2.2.2.2.2.2.2.2.2.2.2.2.2.2.2.2.2.2.2.2.2.2.2.2.2.2.1
@[simp] theorem raise_links_can (source unit detail : Nat) (w : Work) : (raise source unit detail w).links.can = w.links.can :=
  (raise_keeps source unit detail w).2.2.2.2.2.2.2.2.2.2.2.2.2.2.2.2.2.2.2.2.2.2.2.2.2.2.2.2.2.2.2.2.2.2.2.2.2.2.2.2.2.2.2.2.2.2.1
@[simp] theorem raise_links_ssfCount (source unit detail : Nat) (w : Work) : (raise source unit detail w).links.ssfCount = w.links.ssfCount :=
  (raise_keeps source unit detail w).2.2.2.2.2.2.2.2.2.2.2.2.2.2.2.2.2.2.2.2.2.2.2.2.2.2.2.2.2.2.2.2.2.2.2.2.2.2.2.2.2.2.2.2.2.2.2.1
@[simp] theorem raise_links_effects (source unit detail : Nat) (w : Work) : (raise source unit detail w).links.effects = w.links.effects :=
  (raise_keeps source unit detail w).2.2.2.2.2.2.2.2.2.2.2.2.2.2.2.2.2.2.2.2.2.2.2.2.2.2.2.2.2.2.2.2.2.2.2.2.2.2.2.2.2.2.2.2.2.2.2.2.1
@[simp] theorem raise_links_gcl (source unit detail : Nat) (w : Work) : (raise source unit detail w).links.gcl = w.links.gcl :=
  (raise_keeps source unit detail w).2.2.2.2.2.2.2.2.2.2.2.2.2.2.2.2.2.2.2.2.2.2.2.2.2.2.2.2.2.2.2.2.2.2.2.2.2.2.2.2.2.2.2.2.2.2.2.2.2.1
@[simp] theorem raise_links_silent (source unit detail : Nat) (w : Work) : (raise source unit detail w).links.silent = w.links.silent :=
  (raise_keeps source unit detail w).2.2.2.2.2.2.2.2.2.2.2.2.2.2.2.2.2.2.2.2.2.2.2.2.2.2.2.2.2.2.2.2.2.2.2.2.2.2.2.2.2.2.2.2.2.2.2.2.2.2.1
@[simp] theorem raise_links_joint (source unit detail : Nat) (w : Work) : (raise source unit detail w).links.joint = w.links.joint :=
  (raise_keeps source unit detail w).2.2.2.2.2.2.2.2.2.2.2.2.2.2.2.2.2.2.2.2.2.2.2.2.2.2.2.2.2.2.2.2.2.2.2.2.2.2.2.2.2.2.2.2.2.2.2.2.2.2.2

/-- What deviceCommit keeps, all at once. -/
theorem deviceCommit_keeps (w : Work) :
    (deviceCommit w).fuses = w.fuses ∧ (deviceCommit w).dev = w.dev ∧ (deviceCommit w).time = w.time ∧
    (deviceCommit w).coll = w.coll ∧ (deviceCommit w).engines = w.engines ∧ (deviceCommit w).tileq = w.tileq ∧
    (deviceCommit w).syncs = w.syncs ∧ (deviceCommit w).images = w.images ∧ (deviceCommit w).slices = w.slices ∧
    (deviceCommit w).ctxs = w.ctxs ∧ (deviceCommit w).quads = w.quads ∧ (deviceCommit w).links = w.links ∧
    (deviceCommit w).chans = w.chans ∧ (deviceCommit w).res = w.res ∧ (deviceCommit w).sched = w.sched ∧
    (deviceCommit w).pow = w.pow ∧ (deviceCommit w).pins = w.pins ∧ (deviceCommit w).tm = w.tm ∧
    (deviceCommit w).ingest = w.ingest ∧ (deviceCommit w).guard = w.guard ∧ (deviceCommit w).casc = w.casc ∧
    (deviceCommit w).cores = w.cores ∧ (deviceCommit w).safe = w.safe ∧ (deviceCommit w).rst = w.rst ∧
    (deviceCommit w).tap = w.tap ∧ (deviceCommit w).mem = w.mem ∧ (deviceCommit w).wr = w.wr := by
  simp [deviceCommit]
@[simp] theorem deviceCommit_issues (w : Work) : (deviceCommit w).issues = w.issues := by
  simp [deviceCommit]
@[simp] theorem deviceCommit_closed (w : Work) : (deviceCommit w).closed = w.closed := by
  simp [deviceCommit]
@[simp] theorem deviceCommit_fuses  (w : Work) : (deviceCommit w).fuses = w.fuses :=
  (deviceCommit_keeps w).1
@[simp] theorem deviceCommit_dev  (w : Work) : (deviceCommit w).dev = w.dev :=
  (deviceCommit_keeps w).2.1
@[simp] theorem deviceCommit_time  (w : Work) : (deviceCommit w).time = w.time :=
  (deviceCommit_keeps w).2.2.1
@[simp] theorem deviceCommit_coll  (w : Work) : (deviceCommit w).coll = w.coll :=
  (deviceCommit_keeps w).2.2.2.1
@[simp] theorem deviceCommit_engines  (w : Work) : (deviceCommit w).engines = w.engines :=
  (deviceCommit_keeps w).2.2.2.2.1
@[simp] theorem deviceCommit_tileq  (w : Work) : (deviceCommit w).tileq = w.tileq :=
  (deviceCommit_keeps w).2.2.2.2.2.1
@[simp] theorem deviceCommit_syncs  (w : Work) : (deviceCommit w).syncs = w.syncs :=
  (deviceCommit_keeps w).2.2.2.2.2.2.1
@[simp] theorem deviceCommit_images  (w : Work) : (deviceCommit w).images = w.images :=
  (deviceCommit_keeps w).2.2.2.2.2.2.2.1
@[simp] theorem deviceCommit_slices  (w : Work) : (deviceCommit w).slices = w.slices :=
  (deviceCommit_keeps w).2.2.2.2.2.2.2.2.1
@[simp] theorem deviceCommit_ctxs  (w : Work) : (deviceCommit w).ctxs = w.ctxs :=
  (deviceCommit_keeps w).2.2.2.2.2.2.2.2.2.1
@[simp] theorem deviceCommit_quads  (w : Work) : (deviceCommit w).quads = w.quads :=
  (deviceCommit_keeps w).2.2.2.2.2.2.2.2.2.2.1
@[simp] theorem deviceCommit_links  (w : Work) : (deviceCommit w).links = w.links :=
  (deviceCommit_keeps w).2.2.2.2.2.2.2.2.2.2.2.1
@[simp] theorem deviceCommit_chans  (w : Work) : (deviceCommit w).chans = w.chans :=
  (deviceCommit_keeps w).2.2.2.2.2.2.2.2.2.2.2.2.1
@[simp] theorem deviceCommit_res  (w : Work) : (deviceCommit w).res = w.res :=
  (deviceCommit_keeps w).2.2.2.2.2.2.2.2.2.2.2.2.2.1
@[simp] theorem deviceCommit_sched  (w : Work) : (deviceCommit w).sched = w.sched :=
  (deviceCommit_keeps w).2.2.2.2.2.2.2.2.2.2.2.2.2.2.1
@[simp] theorem deviceCommit_pow  (w : Work) : (deviceCommit w).pow = w.pow :=
  (deviceCommit_keeps w).2.2.2.2.2.2.2.2.2.2.2.2.2.2.2.1
@[simp] theorem deviceCommit_pins  (w : Work) : (deviceCommit w).pins = w.pins :=
  (deviceCommit_keeps w).2.2.2.2.2.2.2.2.2.2.2.2.2.2.2.2.1
@[simp] theorem deviceCommit_tm  (w : Work) : (deviceCommit w).tm = w.tm :=
  (deviceCommit_keeps w).2.2.2.2.2.2.2.2.2.2.2.2.2.2.2.2.2.1
@[simp] theorem deviceCommit_ingest  (w : Work) : (deviceCommit w).ingest = w.ingest :=
  (deviceCommit_keeps w).2.2.2.2.2.2.2.2.2.2.2.2.2.2.2.2.2.2.1
@[simp] theorem deviceCommit_guard  (w : Work) : (deviceCommit w).guard = w.guard :=
  (deviceCommit_keeps w).2.2.2.2.2.2.2.2.2.2.2.2.2.2.2.2.2.2.2.1
@[simp] theorem deviceCommit_casc  (w : Work) : (deviceCommit w).casc = w.casc :=
  (deviceCommit_keeps w).2.2.2.2.2.2.2.2.2.2.2.2.2.2.2.2.2.2.2.2.1
@[simp] theorem deviceCommit_cores  (w : Work) : (deviceCommit w).cores = w.cores :=
  (deviceCommit_keeps w).2.2.2.2.2.2.2.2.2.2.2.2.2.2.2.2.2.2.2.2.2.1
@[simp] theorem deviceCommit_safe  (w : Work) : (deviceCommit w).safe = w.safe :=
  (deviceCommit_keeps w).2.2.2.2.2.2.2.2.2.2.2.2.2.2.2.2.2.2.2.2.2.2.1
@[simp] theorem deviceCommit_rst  (w : Work) : (deviceCommit w).rst = w.rst :=
  (deviceCommit_keeps w).2.2.2.2.2.2.2.2.2.2.2.2.2.2.2.2.2.2.2.2.2.2.2.1
@[simp] theorem deviceCommit_tap  (w : Work) : (deviceCommit w).tap = w.tap :=
  (deviceCommit_keeps w).2.2.2.2.2.2.2.2.2.2.2.2.2.2.2.2.2.2.2.2.2.2.2.2.1
@[simp] theorem deviceCommit_mem  (w : Work) : (deviceCommit w).mem = w.mem :=
  (deviceCommit_keeps w).2.2.2.2.2.2.2.2.2.2.2.2.2.2.2.2.2.2.2.2.2.2.2.2.2.1
@[simp] theorem deviceCommit_wr  (w : Work) : (deviceCommit w).wr = w.wr :=
  (deviceCommit_keeps w).2.2.2.2.2.2.2.2.2.2.2.2.2.2.2.2.2.2.2.2.2.2.2.2.2.2

end Sys2Proof.Laws
end

