-- ==== Sys2Proof/Laws/Objects.lean ====
section
/-! SUPPORT. The object dictionary: a sub-index reads back what was put, every other one reads as before. -/

namespace Sys2Proof.Laws

open Sys2Proof.Machine

theorem tabFind_tabErase {α : Type} (t : Tab α) (k x : Nat) :
    tabFind (tabErase t k) x = if x = k then none else tabFind t x := by
  induction t with
  | nil => simp [tabErase, tabFind]
  | cons p t ih =>
    obtain ⟨j, v⟩ := p
    simp only [tabErase, List.filter_cons] at ih ⊢
    by_cases hj : j = k
    · subst hj
      simp only [bne_self_eq_false, Bool.false_eq_true, if_false, ih, tabFind]
      by_cases hx : x = j
      · simp [hx]
      · simp [hx, Ne.symm hx]
    · have hb : (j != k) = true := by simp [hj]
      simp only [hb, if_true, tabFind, ih]
      by_cases hx : j = x
      · have : ¬ x = k := fun h => hj (hx.trans h)
        simp [hx, this]
      · simp [hx]

theorem tabFind_tabInsert {α : Type} (t : Tab α) (k : Nat) (v : α) (x : Nat) :
    tabFind (tabInsert t k v) x = if x = k then some v else tabFind t x := by
  induction t with
  | nil =>
    by_cases hx : x = k
    · simp [tabInsert, tabFind, hx]
    · simp [tabInsert, tabFind, hx, Ne.symm hx]
  | cons p t ih =>
    obtain ⟨j, u⟩ := p
    by_cases hx : x = k
    · subst hx
      simp only [tabInsert]
      split
      · simp [tabFind]
      · split
        · simp [tabFind]
        · next h => simp [tabFind, h, ih]
    · simp only [tabInsert, if_neg hx]
      split
      · simp [tabFind, Ne.symm hx]
      · split
        · next h => subst h; simp [tabFind, Ne.symm hx]
        · simp only [tabFind, ih, if_neg hx]

/-- The entries after a put. -/
theorem tabFind_odPut (i j v x : Nat) (w : Work) :
    tabFind (odPut i j v w).od x =
      if x = odKey i j then
        (if v % 2 ^ (8 * odBytes i j) = objDefault w.fuses w.dev.nodeId i j then none else some (v % 2 ^ (8 * odBytes i j)))
      else tabFind w.od x := by
  simp only [odPut]
  by_cases h : v % 2 ^ (8 * odBytes i j) = objDefault w.fuses w.dev.nodeId i j
  · simp only [if_pos h, tabFind_tabErase]
  · simp only [if_neg h, tabFind_tabInsert]

/-- A sub-index that was put reads as the value, cut to its type. -/
@[simp] theorem odGet_odPut_self (i j v : Nat) (w : Work) : odGet (odPut i j v w).toBlk i j = v % 2 ^ (8 * odBytes i j) := by
  unfold odGet
  rw [tabFind_odPut]
  by_cases h : v % 2 ^ (8 * odBytes i j) = objDefault w.fuses w.dev.nodeId i j
  · simp [h]
  · simp [h]

/-- Every other sub-index reads as before. -/
theorem odGet_odPut_ne (i j v x y : Nat) (w : Work) (h : odKey x y ≠ odKey i j) :
    odGet (odPut i j v w).toBlk x y = odGet w.toBlk x y := by
  unfold odGet
  rw [tabFind_odPut, if_neg h]
  rfl

/-- A counter saturates at its type. -/
@[simp] theorem odGet_odAdd_self (i j k : Nat) (w : Work) :
    odGet (odAdd i j k w).toBlk i j = satAdd (8 * odBytes i j) (odGet w.toBlk i j) k := by
  have h : satAdd (8 * odBytes i j) (odGet w.toBlk i j) k < 2 ^ (8 * odBytes i j) := by
    have := Nat.two_pow_pos (8 * odBytes i j)
    unfold satAdd; omega
  simp [odAdd, Nat.mod_eq_of_lt h]

theorem odGet_odAdd_ne (i j k x y : Nat) (w : Work) (h : odKey x y ≠ odKey i j) :
    odGet (odAdd i j k w).toBlk x y = odGet w.toBlk x y := odGet_odPut_ne i j _ x y w h

/-- Objects read alike in blocks that agree on fuses, node-ID and entries. -/
theorem odGet_congr {b c : Blk} (h1 : b.od = c.od) (h2 : b.fuses = c.fuses) (h3 : b.dev.nodeId = c.dev.nodeId) (i j : Nat) :
    odGet b i j = odGet c i j := by
  simp [odGet, h1, h2, h3]

end Sys2Proof.Laws
end

