-- ==== Sys2Proof/Tests/Slice0.lean ====
section
/-! SUPPORT. Tests on small states: the smoke of Instr.wf, the numbers of the spec's own examples, and for every statement
with hypotheses a state and operands that meet them, clause by clause. -/

namespace Sys2Proof.Tests

open Sys2Proof.Machine

set_option Elab.async false

/-- The block at reset with `f` applied. -/
def st (f : Blk → Blk) : State := { State.reset with blk := f State.reset.blk }

/-- The block at reset in a device state, with the objects of `l`: index, sub-index, value. -/
def at_ (d : DevState) (l : List (Nat × Nat × Nat)) : State :=
  st (fun b => { b with dev.state := d, od := l.foldl (fun t x => tabInsert t (odKey x.1 x.2.1) x.2.2) [] })

/-- A further change of a state's block. -/
def andThen (s : State) (f : Blk → Blk) : State := { s with blk := f s.blk }

/-- A context's sub-indices stand in the table of the contexts. -/
theorem ctx_row (n sub : Nat) (hn : n < 1024) :
    objRow (0x4000 + n) sub = obj4000.find? (fun r => decide (0x4000 + n < r.1 + r.2.1) && decide (r.2.2.1 ≤ sub) &&
      decide (sub < r.2.2.1 + r.2.2.2.1)) := by
  have hs : objTables = objTables.take 54 ++ (0x4000, 1024, obj4000) :: objTables.drop 55 := rfl
  have hp : ∀ t ∈ objTables.take 54, t.1 + t.2.1 ≤ 0x4000 := by decide +kernel
  have hf : objTables.find? (fun t => decide (t.1 ≤ 0x4000 + n) && decide (0x4000 + n < t.1 + t.2.1)) =
      some (0x4000, 1024, obj4000) := by
    rw [hs, List.find?_append, List.find?_eq_none.2, List.find?_cons_of_pos]
    · simp
    · simp only [Bool.and_eq_true, decide_eq_true_eq]
      omega
    · intro t ht
      have := hp t ht
      simp
      omega
  unfold objRow
  rw [hf]

/-- No context is admitted by default. -/
theorem ctx_default (f : Fuses) (node n : Nat) (hn : n < 1024) : objDefault f node (0x4000 + n) 0x0B = 0 := by
  have hr : objRow (0x4000 + n) 0x0B = some (0x4000, 1024, 0x0B, 1, 1, 0, 0, 0, false) := by
    rw [ctx_row n 0x0B hn]
    have h : decide (0x4000 + n < 17408) = true := by simp only [decide_eq_true_eq]; omega
    simp [obj4000, h]
  unfold objDefault
  rw [hr]
  simp only [fixedDecl]
  split
  · rfl
  · rw [if_neg (by omega)]
    rfl

theorem status_default (b : Blk) (n : Nat) (hn : n < 1024) (h : tabFind b.od (odKey (0x4000 + n) 0x0B) = none) :
    ctxGet b n 0x0B = 0 := by
  unfold ctxGet odGet
  rw [h]
  exact ctx_default _ _ _ hn

theorem find_none (t : Tab Nat) (x : Nat) (h : ∀ p ∈ t, p.1 ≠ x) : tabFind t x = none := by
  induction t with
  | nil => rfl
  | cons p t ih =>
    simp only [tabFind, if_neg (h p (by simp))]
    exact ih (fun q hq => h q (by simp [hq]))

/-- With one context's status in the dictionary, that context alone is admitted. -/
theorem admitted_one (b : Blk) (k : Nat) (h : ∀ p ∈ b.od, p.1 = odKey (0x4000 + k) 0x0B ∨ p.1 % 256 ≠ 0x0B)
    (hk : k < 1024) (hf : ctxExists b.fuses k = true) (hv : ctxGet b k 0x0B = 2) :
    admitted b = (List.range 1024).filter (fun n => n == k) := by
  unfold admitted
  apply List.filter_congr
  intro n hn
  rw [List.mem_range] at hn
  by_cases hnk : n = k
  · subst hnk
    simp [hv, hf]
  · have : ctxGet b n 0x0B = 0 := by
      refine status_default b n hn (find_none _ _ (fun p hp => ?_))
      rcases h p hp with h | h <;> unfold odKey at * <;> omega
    simp [this, hnk]

/-- With none, none is. -/
theorem admitted_none (b : Blk) (h : ∀ p ∈ b.od, p.1 % 256 ≠ 0x0B) : admitted b = [] := by
  unfold admitted
  rw [List.filter_eq_nil_iff]
  intro n hn
  rw [List.mem_range] at hn
  have : ctxGet b n 0x0B = 0 :=
    status_default b n hn (find_none _ _ (fun p hp => by have := h p hp; unfold odKey; omega))
  simp [this]

/-- A quad carries the placement of the one context admitted, and of none where none is. -/
theorem placedOn_one (b : Blk) (k q : Nat) (h : ∀ p ∈ b.od, p.1 = odKey (0x4000 + k) 0x0B ∨ p.1 % 256 ≠ 0x0B)
    (hc : b.ctxs = []) (hf : ctxExists b.fuses k = true) (hv : ctxGet b k 0x0B = 2) (h0 : k ≠ 0)
    (hq : (activeQuads b k).testBit q = true) :
    placedOn b q = (List.range 1024).filter (fun n => n == k) := by
  unfold placedOn
  apply List.filter_congr
  intro n hn
  rw [List.mem_range] at hn
  have hd : (ctxRun b n).decided = none := by unfold ctxRun; rw [hc]; rfl
  by_cases hnk : n = k
  · subst hnk
    simp [hv, hf, hd, h0, hq]
  · have : ctxGet b n 0x0B = 0 := by
      refine status_default b n hn (find_none _ _ (fun p hp => ?_))
      rcases h p hp with h | h <;> unfold odKey at * <;> omega
    simp [this, hnk, hd]

theorem placedOn_none (b : Blk) (q : Nat) (h : ∀ p ∈ b.od, p.1 % 256 ≠ 0x0B) (hc : b.ctxs = []) : placedOn b q = [] := by
  unfold placedOn
  rw [List.filter_eq_nil_iff]
  intro n hn
  rw [List.mem_range] at hn
  have hd : (ctxRun b n).decided = none := by unfold ctxRun; rw [hc]; rfl
  have : ctxGet b n 0x0B = 0 :=
    status_default b n hn (find_none _ _ (fun p hp => by have := h p hp; unfold odKey; omega))
  simp [this, hd]

/-! ## Resets, start and device states -/

theorem witness_ResetPinCommands :
    (Instr.wf (.porstNRelease 1 0) = true ∧ (st id).blk.dev.state = .porst) ∧
    (∃ s : State, s.blk.dev.state = .lull ∧ s.blk.dev.ready = true ∧ s.blk.dev.wake = true ∧ s.blk.dev.warm = false) ∧
    (∃ s : State, s.blk.dev.state ≠ .safe ∧ s.blk.dev.state ≠ .porst ∧ s.blk.dev.warm = false ∧
      s.blk.dev.escalate = none) ∧
    (∃ s : State, s.blk.dev.state = .lull ∧ s.blk.dev.warm = false ∧ s.blk.dev.escalate = some 3) ∧
    ∃ s : State, s.blk.dev.warm = true :=
  ⟨by decide +kernel, ⟨andThen (at_ .lull []) (fun b => { b with dev.ready := true, dev.wake := true }), by decide +kernel⟩,
   ⟨at_ .run [], by decide +kernel⟩, ⟨andThen (at_ .lull []) (fun b => { b with dev.escalate := some 3 }), by decide +kernel⟩,
   ⟨andThen (at_ .boot []) (fun b => { b with dev.warm := true }), by decide +kernel⟩⟩

/-- BOOT with a retained image of no bytes, whose recorded digest is d. -/
def retainedBoot (d : List Byte) : State :=
  andThen (at_ .boot []) (fun b => { b with dev.retained := true, cores.active := some { bytes := [], slot := 0 },
                                            cores.recorded := d })

theorem retainedBoot_recorded (d : List Byte) :
    (retainedBoot d).blk.dev.state = .boot ∧ (retainedBoot d).blk.dev.warm = false ∧ (retainedBoot d).blk.dev.retained = true ∧
      (retainedBoot d).blk.dev.starting = false ∧ (retainedBoot d).blk.cores.active = some { bytes := [], slot := 0 } ∧
      d = (retainedBoot d).blk.cores.recorded := ⟨rfl, rfl, rfl, rfl, rfl, rfl⟩

theorem witness_StartCommands :
    (∃ (s : State) (img : FwImage), s.blk.dev.state = .boot ∧ s.blk.dev.warm = false ∧ s.blk.dev.retained = true ∧
      s.blk.dev.starting = false ∧ s.blk.cores.active = some img ∧ fwDigest img.bytes = s.blk.cores.recorded) ∧
    (∃ s : State, s.blk.dev.state = .boot ∧ s.blk.dev.warm = false ∧ s.blk.pow.unlocked.contains 4 = false) ∧
    (∃ s : State, usbPresent (start s) = true) ∧
    (∃ s : State, s.blk.cores.crypto = [.verify 0 1 []] ∧ s.blk.dev.starting = false) ∧
    (∃ s : State, s.blk.dev.state = .boot ∧ s.blk.dev.starting = true ∧ s.blk.dev.warm = false ∧
      ∀ k < 6, pairState (start s) k = 1) ∧
    ∃ s : State, odGet (start s) 0x2300 5 = 1 ∧ s.blk.dev.state = .config ∧ odGet (start s) 0x2510 1 = 1 :=
  ⟨⟨retainedBoot (fwDigest []), { bytes := [], slot := 0 }, retainedBoot_recorded _⟩,
   ⟨andThen (at_ .boot []) (fun b => { b with pow.unlocked := [] }), by decide +kernel⟩,
   ⟨at_ .config [], by decide +kernel⟩, ⟨andThen (at_ .config []) (fun b => { b with cores.crypto := [.verify 0 1 []] }), by decide +kernel⟩,
   ⟨andThen (at_ .boot ((List.range 6).map (fun k => (0x2510 + k, 1, 1)))) (fun b => { b with dev.starting := true }),
    by decide +kernel⟩,
   ⟨at_ .config [(0x2300, 5, 1), (0x2510, 1, 1)], by decide +kernel⟩⟩

/-- A device state with one committed effect. -/
def asked (d : DevState) (e : Effect) (l : List (Nat × Nat × Nat)) : State :=
  andThen (at_ d l) (fun b => { b with links.effects := [e] })

theorem witness_StateRequests :
    (∃ s : State, odGet (start s) 0x2700 4 ≠ 2 ∧ .request 2 ∈ s.blk.links.effects ∧ s.blk.dev.state = .run) ∧
    (∃ s : State, odGet (start s) 0x2700 4 ≠ 2 ∧ .request 2 ∈ s.blk.links.effects ∧ s.blk.dev.state = .adapt) ∧
    (∃ s : State, odGet (start s) 0x2700 4 ≠ 2 ∧ .request 3 ∈ s.blk.links.effects ∧ s.blk.dev.state = .config ∧
      s.blk.dev.checksPassed = true ∧ ctxGet (start s) 0 0x0B = 2) ∧
    (∃ s : State, odGet (start s) 0x2700 4 ≠ 2 ∧ .request 4 ∈ s.blk.links.effects ∧ s.blk.dev.state = .config ∧
      stationary (start s) = true) ∧
    (∃ s : State, odGet (start s) 0x2700 4 ≠ 2 ∧ .request 7 ∈ s.blk.links.effects ∧ s.blk.dev.state = .config) ∧
    (∃ s : State, odGet (start s) 0x2700 4 ≠ 2 ∧ drained (start s) = true) ∧
    (∃ s : State, odGet (start s) 0x2700 4 = 2) ∧ ∃ s : State, s.blk.dev.state = .adapt ∧ stationary (start s) = false :=
  ⟨⟨asked .run (.request 2) [], by decide +kernel⟩, ⟨asked .adapt (.request 2) [], by decide +kernel⟩,
   ⟨andThen (asked .config (.request 3) [(0x4000, 0x0B, 2)]) (fun b => { b with dev.checksPassed := true }), by decide +kernel⟩,
   ⟨andThen (asked .config (.request 4) [(0x2003, 1, 1), (0x214F, 2, 1), (0x214F, 8, 1)])
      (fun b => { b with pins.inputs := [(15, { Input.idle with reported := true })] }), by decide +kernel⟩,
   ⟨asked .config (.request 7) [], by decide +kernel⟩,
   ⟨andThen (at_ .run []) (fun b => { b with dev.draining := true }), by decide +kernel⟩,
   ⟨at_ .config [(0x2700, 4, 2)], by decide +kernel⟩, ⟨at_ .adapt [], by decide +kernel⟩⟩

theorem witness_SquallAndEscalation :
    (∃ s : State, s.blk.dev.state = .run ∧ s.blk.dev.emergency ≠ 0) ∧
    (∃ s : State, s.blk.dev.state = .squall ∧ s.blk.dev.emergency = 0) ∧
    (∃ s : State, s.blk.dev.escalate = some 0x1FF ∧ s.blk.dev.state ≠ .lull ∧ s.blk.dev.state ≠ .porst ∧ s.blk.dev.state ≠ .safe) ∧
    ∃ (s : State) (n : Nat) (m : List Byte), s.blk.dev.state = .adapt ∧ s.blk.dev.steps.contains n = true ∧ n < 1024 ∧ m.length ≤ 2 ^ 31 ∧
      pairRuns (start s) 5 = true ∧ ((sliceOf (start s) n).live && (sliceOf (start s) n).doneAt.isNone) = false ∧
      leAt m 1 1 = 3 ∧ leAt m 2 2 = n ∧ m.length = 16 + 16 * leAt m 8 4 + (weightSegs m).foldl (fun a x => a + x.2.2.1) 0 ∧
      (weightSegs m).all (weightSegOk (start s) n (activePlace (start s) n)) = true ∧ s.blk.res.nextWeight ≤ 65535 :=
  ⟨⟨andThen (at_ .run []) (fun b => { b with dev.emergency := 16 }), by decide +kernel⟩, ⟨at_ .squall [], by decide +kernel⟩,
   ⟨andThen (at_ .boot []) (fun b => { b with dev.escalate := some 0x1FF }), by decide +kernel⟩,
   ⟨andThen (at_ .adapt [(0x2515, 1, 1)]) (fun b => { b with dev.steps := [1023] }), 1023,
    [1, 3, 0xFF, 3] ++ List.replicate 12 0, by decide +kernel⟩⟩

theorem witness_BeatBoundaryOrder : ∃ (s : State) (met : BeatMet), s.blk.dev.state ≠ .porst ∧ s.blk.dev.noRefclk = false ∧
    Instr.wf (.beatBoundary met) = true :=
  ⟨at_ .lull [], { pins := true, payloads := [(63, 16777215)], maps := [(31, 2 ^ 42 - 1)] }, by decide +kernel⟩

/-! ## Admission, slices and the quads' clocks -/

/-- RUN at beat 1,024 with context n admitted on quad 63 at a period of 64 beats. -/
def placed (n : Nat) (more : List (Nat × Nat × Nat)) : State :=
  andThen (at_ .run ([(0x4000 + n, 0x0B, 2), (0x4000 + n, 3, 64), (0x4000 + n, 0x0E, 0), (0x4000 + n, 0x10, 2 ^ 63)] ++ more))
    (fun b => { b with time.beat := 1024, time.ns := 2048000 })

theorem witness_SliceCommands :
    mapsWf [(31, 2 ^ 42 - 1)] = true ∧
    (∃ s : State, ctxExists s.blk.fuses 959 = true ∧ releaseDue (start s) 959 = true ∧
      releaseHeld (periodReset 959 (workOf s)).toBlk 959 = false ∧ (sliceOf (start s) 959).live = false ∧
      releaseSkipped (periodReset 959 (workOf s)).toBlk 959 = false) ∧
    (∃ s : State, (sliceOf (start s) 1023).live = true ∧
      ((sliceOf (start s) 1023).doneAt.isSome || (sliceOf (start s) 1023).stopped.isSome) = true ∧
      (tmPending (start s) 1023 && (sliceOf (start s) 1023).stopped.isNone) = false) ∧
    ∃ s : State, (sliceOf (start s) 7).live = true ∧ (sliceOf (start s) 7).doneAt = none ∧ (sliceOf (start s) 7).stopped = none ∧
      (sliceOf (start s) 7).missed = false ∧ (sliceOf (start s) 7).withheld = false ∧
      (sliceOf (start s) 7).rel + ctxGet (start s) 7 5 ≤ s.blk.time.beat :=
  ⟨by decide +kernel, ⟨placed 959 [], by decide +kernel⟩,
   ⟨andThen (at_ .run []) (fun b => { b with slices := [(1023, { Slice.idle with live := true, doneAt := some 5 })] }), by decide +kernel⟩,
   ⟨andThen (placed 7 [(0x4007, 5, 1024)]) (fun b => { b with slices := [(7, { Slice.idle with live := true })] }), by decide +kernel⟩⟩

theorem witness_AdmissionCommands :
    (∃ s : State, ctxExists s.blk.fuses 1023 = true ∧ s.blk.links.effects.find? (isAdmit 1023) = some (.admission 1023 4) ∧
      ctxGet (start s) 1023 0x0B = 0) ∧
    (∃ s : State, .withdraw 5 ∈ s.blk.links.effects ∧ ctxGet (start s) 5 0x0B = 2) ∧
    (∃ s : State, .withdraw 5 ∈ s.blk.links.effects ∧ ctxGet (start s) 5 0x0B = 5) ∧
    (∃ s : State, Instr.wf (.admissionDecision 8 [(1023, 2, 7)] true) = true ∧ Instr.wf (.admissionDecision 2500 [] false) = true ∧
      formed (start s) = false ∧ oldestGroup (start s) = some 4 ∧ pairRuns (start s) 2 = true) ∧
    (∃ s : State, (s.blk.ctxs.filter (fun p => match p.2.decided with | some d => decide (d.1 ≤ s.blk.time.beat) | none => false)) ≠ []) ∧
    (∃ s : State, (ctxRun (start s) 5).withdrawAt = some 1024 ∧ 1024 ≤ s.blk.time.beat) ∧
    ∃ s : State, s.blk.sched.recompute.isSome = true ∧ s.blk.sched.commitAt = none ∧ pairRuns (start s) 2 = true ∧
      resetting (start s) = false :=
  ⟨⟨asked .config (.admission 1023 4) [], by decide +kernel⟩, ⟨asked .run (.withdraw 5) [(0x4005, 0x0B, 2)], by decide +kernel⟩,
   ⟨asked .run (.withdraw 5) [(0x4005, 0x0B, 5)], by decide +kernel⟩,
   ⟨andThen (at_ .config [(0x2512, 1, 1), (0x43FF, 0x0B, 1)])
      (fun b => { b with ctxs := [(1023, { CtxRun.idle with pendingAt := some 4 })] }), by decide +kernel⟩,
   ⟨andThen (at_ .run []) (fun b => { b with ctxs := [(5, { CtxRun.idle with decided := some (0, default, default, default) })] }), by decide +kernel⟩,
   ⟨andThen (placed 5 []) (fun b => { b with ctxs := [(5, { CtxRun.idle with withdrawAt := some 1024 })] }), by decide +kernel⟩,
   ⟨andThen (at_ .run [(0x2512, 1, 1)]) (fun b => { b with sched.recompute := some default }), by decide +kernel⟩⟩

/-- Quad 63 gated ahead of context 5's release, a quad without a placement, one whose step is due. -/
def gatedQuad : State := andThen (placed 5 [(0x4005, 6, 400000)]) (fun b => { b with quads := [(63, { QuadRun.idle with gated := true })] })
def farQuad : State := placed 5 [(0x4005, 6, 1000)]
def freeQuad : State := at_ .run []
def steppedQuad : State := at_ .run [(0x503F, 0x91, 2000), (0x503F, 0x92, 825), (0x503F, 0x9D, 1)]

theorem nextRelease_none (b : Blk) (q : Nat) (h : placedOn b q = []) : nextRelease b q = none := by
  unfold nextRelease
  rw [h]
  rfl
theorem placedOn_gated : placedOn (atTime 2048000 (workOf gatedQuad)).toBlk 63 = [5] := by
  rw [placedOn_one _ 5 63 (by decide +kernel) rfl (by decide +kernel) (by decide +kernel) (by decide) (by decide +kernel)]
  decide +kernel
theorem placedOn_far : placedOn (atTime 2048000 (workOf farQuad)).toBlk 63 = [5] := by
  rw [placedOn_one _ 5 63 (by decide +kernel) rfl (by decide +kernel) (by decide +kernel) (by decide) (by decide +kernel)]
  decide +kernel
theorem placedOn_free : placedOn (atTime 0 (workOf freeQuad)).toBlk 63 = [] := placedOn_none _ _ (by decide +kernel) rfl
theorem steppedQuad_want : wantClock (start steppedQuad) 63 = (quadRun (start steppedQuad) 63).cap := by
  have h : quadProtected (start steppedQuad) 63 = false := by
    unfold quadProtected
    rw [admitted_none _ (by decide +kernel)]
    rfl
  have ha : actionCount (start steppedQuad) 2 = 0 := by decide +kernel
  simp only [wantClock, h, ha, Bool.false_eq_true, if_false]
  decide +kernel

theorem witness_QuadClockCommands :
    (63 < quadCount gatedQuad.blk.fuses ∧ nextRelease (atTime 2048000 (workOf gatedQuad)).toBlk 63 = some (1088, 400000) ∧
      2000 * 1088 ≤ moment 2048000 (workOf gatedQuad) + 400000 ∧ (quadRun (start gatedQuad) 63).gated = true ∧
      quadRemoved (start gatedQuad) 63 = false ∧ resetting (start gatedQuad) = false ∧ activeState (start gatedQuad) = true) ∧
    (63 < quadCount freeQuad.blk.fuses ∧ nextRelease (atTime 0 (workOf freeQuad)).toBlk 63 = none ∧
      quadBusy (atTime 0 (workOf freeQuad)).toBlk 63 = false ∧ stealing (atTime 0 (workOf freeQuad)).toBlk 63 = false ∧
      quadGet (start freeQuad) 63 0xA0 = 0 ∧ resetting (start freeQuad) = false ∧ servedState (start freeQuad) = true) ∧
    activeState (start (at_ .config [])) = false ∧ servedState (start (at_ .config [])) = true ∧
    (nextRelease (atTime 2048000 (workOf farQuad)).toBlk 63 = some (1088, 1000) ∧
      moment 2048000 (workOf farQuad) + (placedOn (atTime 2048000 (workOf farQuad)).toBlk 63).foldl
        (fun m n => max m (ctxGet (atTime 2048000 (workOf farQuad)).toBlk n 6)) 0 + 40 < 2000 * 1088) ∧
    (quadGet (start steppedQuad) 63 0xA0 ≠ 2 ∧ quadGet (start steppedQuad) 63 0x9D ≠ 0 ∧ steppedQuad.blk.time.ns = 2000 * steppedQuad.blk.time.beat ∧
      (quadRun (start steppedQuad) 63).stepAt ≠ some steppedQuad.blk.time.beat ∧ clockWaits (start steppedQuad) 63 = false ∧
      setPoint (start steppedQuad) 63 (max (wantClock (start steppedQuad) 63) (clockOf (start steppedQuad) 63)) (offsetSteps (start steppedQuad) 63) ≤
        quadGet (start steppedQuad) 63 0x92 ∧ clockOf (start steppedQuad) 63 ≠ wantClock (start steppedQuad) 63 ∧ droopHolds (start steppedQuad) 63 = false) ∧
    (∃ s : State, 65535 ≤ (quadRun (start s) 0).credit) ∧ (∃ s : State, (quadRun (start s) 0).spent = true) ∧
    (∃ s : State, (quadRun (start s) 0).credit < 65535 ∧ (quadRun (start s) 0).spent = false) ∧
    ∃ s : State, (quadRun (start s) 0).droop = true := by
  refine ⟨⟨by decide, ?_, by decide +kernel⟩, ⟨by decide, nextRelease_none _ _ placedOn_free, by decide +kernel⟩,
    by decide +kernel, by decide +kernel, ⟨?_, ?_⟩, ?_,
    ⟨andThen (at_ .run []) (fun b => { b with quads := [(0, { QuadRun.idle with credit := 65535 })] }), by decide⟩,
    ⟨andThen (at_ .run []) (fun b => { b with quads := [(0, { QuadRun.idle with spent := true })] }), by decide⟩,
    ⟨andThen (at_ .run []) (fun b => { b with quads := [(0, { QuadRun.idle with spent := false, credit := 0 })] }), by decide⟩,
    ⟨andThen (at_ .run []) (fun b => { b with quads := [(0, { QuadRun.idle with droop := true })] }), by decide⟩⟩
  · unfold nextRelease
    rw [placedOn_gated]
    decide +kernel
  · unfold nextRelease
    rw [placedOn_far]
    decide +kernel
  · rw [placedOn_far]
    decide +kernel
  · simp only [clockWaits, steppedQuad_want]
    decide +kernel

/-! ## Instructions of the engines -/

/-- A word from its fields: lowest bit and value of each. -/
def fields (l : List (Nat × Nat)) : Nat := l.foldl (fun a x => a + x.2 * 2 ^ x.1) 0

/-- An instruction of opcode `op`. -/
def instr (op : Nat) (l : List (Nat × Nat)) : Nat := fields ((26, op) :: l)

/-- RUN with a slice of context 5 on engine 255: the slot, the descriptor (and a stage after it) at 32 in its store, the instruction at 0. -/
def onEngine (i d : Nat) (f : Slot → Slot) (more : List (Nat × Nat × Nat)) (g : Blk → Blk) : State :=
  let s := andThen (placed 5 ([(0x4005, 2, 1), (0x4005, 0x11, 4096), (0x4005, 0x12, 4096)] ++ more)) (fun b =>
    { b with engines := [(255, { Engine.idle with slots := f { Slot.idle with ctx := 5, live := true } :: List.replicate 15 Slot.idle })] })
  andThen { s with mem := memPut (memPut [] (spmKey 255 0) (leBytes 4 i)) (spmKey 255 32) (leBytes 64 d) } g

/-- The same with instruction i alone. -/
def coded (i : Nat) : State := onEngine i 0 id [] id

/-- The last synchronisation object of die 1, owned by context 5. -/
def syncObj (k : SyncKind) (count : Nat) (ws : List Waiter) : SyncObj :=
  { kind := k, owner := 5, persistent := false, init := 1, count, waiters := ws, freed := [] }
def withSync (x : SyncObj) (b : Blk) : Blk := { b with syncs := [(8191, some x)] }

theorem witness_ControlInstructions :
    Issues (coded 0) 255 0 0 ∧
    (Issues (coded (instr 1 [])) 255 0 (instr 1 []) ∧ iOp (instr 1 []) = 1 ∧
      (slotOf (engineOf (start (coded (instr 1 []))) 255) 0).last = none) ∧
    (Issues (coded (instr 2 [(0, 32767)])) 255 0 (instr 2 [(0, 32767)]) ∧ iOp (instr 2 [(0, 32767)]) = 2) ∧
    (Issues (coded (instr 0xD [(0, 65535)])) 255 0 (instr 0xD [(0, 65535)]) ∧ iOp (instr 0xD [(0, 65535)]) = 0xD) ∧
    (Issues (coded (instr 0xB [(0, 7)])) 255 0 (instr 0xB [(0, 7)]) ∧ iOp (instr 0xB [(0, 7)]) = 0xB) ∧
    (∃ (s : State) (i : Nat), Issues s 255 0 i ∧ iOp i = 7 ∧
      nth none (slotOf (engineOf (start s) 255) 0).loops (iLc i) = none ∧
      insideLoops (slotOf (engineOf (start s) 255) 0) ((slotOf (engineOf (start s) 255) 0).pc + iBody i) = true ∧
      fetchOk (issued 255 0 (workOf s)).toBlk 255 ((slotOf (engineOf (start s) 255) 0).pc + iBody i) = true) ∧
    (∃ (s : State) (i : Nat), Issues s 255 0 i ∧ iOp i = 8 ∧
      syncIssueOk (issued 255 0 (workOf s)).toBlk (slotOf (engineOf (start s) 255) 0).ctx (iSync i) .semaphore = true) ∧
    (∃ (s : State) (i : Nat), Issues s 255 0 i ∧ iOp i = 9 ∧
      syncIssueOk (issued 255 0 (workOf s)).toBlk (slotOf (engineOf (start s) 255) 0).ctx (iSync i) .semaphore = true) ∧
    (∃ (s : State) (i : Nat), Issues s 255 0 i ∧ iOp i = 0xA ∧
      syncIssueOk (issued 255 0 (workOf s)).toBlk (slotOf (engineOf (start s) 255) 0).ctx (iSync i) .barrier = true) ∧
    ∃ (s : State) (i : Nat) (l : LastPass), Issues s 255 0 i ∧ iOp i = 0xC ∧ (slotOf (engineOf (start s) 255) 0).last = some l ∧
      l.drains = true ∧ l.status = some 0 ∧
      insideLoops (slotOf (engineOf (start s) 255) 0) ((slotOf (engineOf (start s) 255) 0).pc + iOffset i + 1) = true ∧
      fetchOk (issued 255 0 (workOf s)).toBlk 255 ((slotOf (engineOf (start s) 255) 0).pc + iOffset i + 1) = true :=
  ⟨by decide +kernel, by decide +kernel, by decide +kernel, by decide +kernel, by decide +kernel,
   ⟨coded (instr 7 [(24, 3), (12, 4095), (0, 4095)]), instr 7 [(24, 3), (12, 4095), (0, 4095)], by decide +kernel⟩,
   ⟨onEngine (instr 8 [(8, 8191), (0, 255)]) 0 id [] (withSync (syncObj .semaphore 0 [])), instr 8 [(8, 8191), (0, 255)],
    by decide +kernel⟩,
   ⟨onEngine (instr 9 [(8, 8191), (0, 255)]) 0 id [] (withSync (syncObj .semaphore 0 [])), instr 9 [(8, 8191), (0, 255)],
    by decide +kernel⟩,
   ⟨onEngine (instr 0xA [(8, 8191)]) 0 id [] (withSync (syncObj .barrier 0 [])), instr 0xA [(8, 8191)], by decide +kernel⟩,
   ⟨onEngine (instr 0xC [(8, 3), (0, 255)]) 0
      (fun x => { x with last := some { drains := true, lsb := 0, bf := false, split := false, status := some 0, ord := 0 } }) [] id,
    instr 0xC [(8, 3), (0, 255)],
    { drains := true, lsb := 0, bf := false, split := false, status := some 0, ord := 0 }, by decide +kernel⟩⟩

theorem witness_ReservedOpcodesRefused :
    ∃ (s : State) (i : Nat), 255 < engineCount s.blk.fuses ∧ pickSlot (workOf s) 255 = some 0 ∧
      fetchWord (workOf s) 255 (slotOf (engineOf (start s) 255) 0).pc = i ∧
      fetchOk (start s) 255 (slotOf (engineOf (start s) 255) 0).pc = true ∧ 0x0E ≤ iOp i :=
  ⟨coded (instr 0x3F []), instr 0x3F [], by decide +kernel⟩

/-- A pass of the given kind over one row of the ring, or a plain one over the store, that keeps its accumulators. -/
def passDesc (kind : Nat) (more : List (Nat × Nat)) : Nat :=
  fields ([(252, 1), (246, 1), (220, 2), (216, 2), (212, 0), (192, 32), (135, kind), (178, 1), (174, 1),
           (138, if kind = 0 then 0 else 1)] ++ more)

def passOn (kind : Nat) : State := onEngine (instr 3 [(0, 1)]) (passDesc kind []) id [] id

def queuedPass : State := onEngine (instr 4 [(0, 1), (16, 2)]) (passDesc 0 [(244, 2)]) id [] id
def chainOn5 : State :=
  onEngine (instr 5 [(0, 1)]) (fields [(252, 1), (233, 2), (256 + 59, 0xA)]) id [] id
def moveDesc (kind dst : Nat) : Nat :=
  fields [(252, 1), (249, kind), (243, if kind = 1 then 0 else 2), (232, if kind = 2 then 0 else 255), (224, dst), (128, 64), (88, 64)]
def moveOn (kind dst : Nat) : State :=
  onEngine (instr 6 [(0, 1)]) (moveDesc kind dst) id [(0x2640, 3, 1024), (0x2640, 4, 5)] (fun b =>
    { b with images := [{ ctx := 5, placement := 0, engines := [(255, 0)], groups := List.replicate 16 (2 ^ 255), syncs := [], handle := 1,
                          level := none, figs := [(0, 0, 0, 0)] }] })

theorem witness_WorkInstructions :
    (∀ kind < 5, Issues (passOn kind) 255 0 (instr 3 [(0, 1)]) ∧
      spmRangeOk (issued 255 0 (workOf (passOn kind))).toBlk 5 255
        (descAddr (slotOf (engineOf (start (passOn kind)) 255) 0) (instr 3 [(0, 1)])) 32 = true ∧
      passCheck (issued 255 0 (workOf (passOn kind))).toBlk 5 (activePlace (issued 255 0 (workOf (passOn kind))).toBlk 5) 255
        (descAt (issued 255 0 (workOf (passOn kind))) 255 (slotOf (engineOf (start (passOn kind)) 255) 0) (instr 3 [(0, 1)]))
        false false = none ∧
      chainRule (slotOf (engineOf (start (passOn kind)) 255) 0) (passDesc kind []) = true ∧
      (pStart (passDesc kind []) = true ∨ (chainHalf (engineOf (issued 255 0 (workOf (passOn kind))).toBlk 255) 5).isSome = true) ∧
      halfFor (issued 255 0 (workOf (passOn kind))).toBlk (engineOf (issued 255 0 (workOf (passOn kind))).toBlk 255) 5 (passDesc kind []) =
        some false ∧
      passSel 255 kind (workOf (passOn kind)) (slotOf (engineOf (start (passOn kind)) 255) 0) (instr 3 [(0, 1)]) = true) ∧
    (Issues queuedPass 255 0 (instr 4 [(0, 1), (16, 2)]) ∧ iOp (instr 4 [(0, 1), (16, 2)]) = 4 ∧
      spmRangeOk (issued 255 0 (workOf queuedPass)).toBlk 5 255
        (descAddr (slotOf (engineOf (start queuedPass) 255) 0) (instr 4 [(0, 1), (16, 2)])) 32 = true ∧
      passCheck (issued 255 0 (workOf queuedPass)).toBlk 5 (activePlace (issued 255 0 (workOf queuedPass)).toBlk 5) 255
        (descAt (issued 255 0 (workOf queuedPass)) 255 (slotOf (engineOf (start queuedPass) 255) 0) (instr 4 [(0, 1), (16, 2)]))
        true false = none ∧
      (slotOf (engineOf (start queuedPass) 255) 0).last = none) ∧
    (Issues chainOn5 255 0 (instr 5 [(0, 1)]) ∧ iOp (instr 5 [(0, 1)]) = 5 ∧
      spmRangeOk (issued 255 0 (workOf chainOn5)).toBlk 5 255
        (descAddr (slotOf (engineOf (start chainOn5) 255) 0) (instr 5 [(0, 1)])) 32 = true ∧
      chainCheck (issued 255 0 (workOf chainOn5)) 5 (activePlace (issued 255 0 (workOf chainOn5)).toBlk 5) 255
        (descAt (issued 255 0 (workOf chainOn5)) 255 (slotOf (engineOf (start chainOn5) 255) 0) (instr 5 [(0, 1)])) false = none) ∧
    ∀ x ∈ [(0, 0), (1, 15), (2, 0)], Issues (moveOn x.1 x.2) 255 0 (instr 6 [(0, 1)]) ∧
      spmRangeOk (issued 255 0 (workOf (moveOn x.1 x.2))).toBlk 5 255 (32 * iAddr (instr 6 [(0, 1)])) 32 = true ∧
      dmaCheck (issued 255 0 (workOf (moveOn x.1 x.2))).toBlk 5 (activePlace (issued 255 0 (workOf (moveOn x.1 x.2))).toBlk 5) 255
        (rdNat (issued 255 0 (workOf (moveOn x.1 x.2))) (spmKey 255 (32 * iAddr (instr 6 [(0, 1)]))) 32) false = none ∧
      dmaSel 255 x.1 (workOf (moveOn x.1 x.2)) (slotOf (engineOf (start (moveOn x.1 x.2)) 255) 0) (instr 6 [(0, 1)]) = true := by
  refine ⟨by decide +kernel, by decide +kernel, by decide +kernel, by decide +kernel⟩

/-- A slot of context 5 that waits, with its object. -/
def waitingSlot (x : Waiting) (g : Blk → Blk) : State := onEngine 0 0 (fun y => { y with wait := x }) [] g

def freedBarrier : SyncObj := { syncObj .barrier 0 [] with freed := [{ engine := 255, ctx := 5, amount := 0 }] }

theorem witness_SlotReturns :
    (∃ (s : State) (x : SyncObj) (h : Waiter), 255 < engineCount s.blk.fuses ∧ ctxExists s.blk.fuses 5 = true ∧
      slotIx (start s) 255 5 = some 0 ∧ (slotOf (engineOf (start s) 255) 0).wait = .sem 8191 255 ∧
      syncOf (start s) 8191 = some x ∧ x.waiters = [h] ∧ h.engine = 255 ∧ h.ctx = 5 ∧ 255 ≤ x.count) ∧
    (∃ (s : State) (x : SyncObj), 8191 / 4096 < dies s.blk.fuses ∧ syncOf (start s) 8191 = some x ∧ x.kind = .barrier ∧ x.freed ≠ []) ∧
    (∃ s : State, slotIx (start s) 255 5 = some 0 ∧ (slotOf (engineOf (start s) 255) 0).wait = .fence 7 ∧
      passesOut (start s) 255 5 = false ∧ chainsOut (start s) 255 5 = false ∧ dmaOut (start s) 255 5 = false) ∧
    ∃ s : State, slotIx (start s) 255 5 = some 0 ∧ (slotOf (engineOf (start s) 255) 0).wait = .ending ∧
      passesOut (start s) 255 5 = false ∧ chainsOut (start s) 255 5 = false ∧ dmaOut (start s) 255 5 = false ∧
      entriesOf (start s) 255 5 = [] :=
  ⟨⟨waitingSlot (.sem 8191 255) (withSync (syncObj .semaphore 255 [{ engine := 255, ctx := 5, amount := 255 }])),
    syncObj .semaphore 255 [{ engine := 255, ctx := 5, amount := 255 }], { engine := 255, ctx := 5, amount := 255 }, by decide +kernel⟩,
   ⟨waitingSlot (.barrier 8191) (withSync freedBarrier), freedBarrier, by decide +kernel⟩,
   ⟨waitingSlot (.fence 7) id, by decide +kernel⟩, ⟨waitingSlot .ending id, by decide +kernel⟩⟩

/-- Engine 255 with what `f` puts on it, over the slot of context 5. -/
def arrayState (f : Engine → Engine) : State :=
  andThen (onEngine 0 0 id [] id) (fun b => { b with engines := tabMod Engine.idle b.engines 255 f })

def passReq (d : Nat) : PassReq :=
  { owner := 255, ctx := 5, desc := d, queued := false, mark := 0, cur := none, charged := false, ord := 0, stamp := 0 }

/-- The pass `d` run to its end on the lower half, with its accumulators and checksums all zero. -/
def zeroAccs (d : Nat) : Accs :=
  { m := pM d, n := pN d, els := List.replicate (pM d * pN d) accZero,
    sums := some { c := [], x := List.replicate (pM d) (0, 0), y := List.replicate (pN d) (0, 0) } }
def ranPass (d : Nat) : PassRun := { req := passReq d, acc := some (zeroAccs d), len := 128, dead := false }
def ranState (d : Nat) : State := arrayState (fun g => { g with h0 := { Half.idle with run := some (ranPass d) } })

/-- A pass that drains to the finished-tile queue stands next on the upper half. -/
def tilePass : PassReq := passReq (passDesc 0 [(244, 2), (248, 1)])
def tileState : State :=
  arrayState (fun g => { g with h1 := { Half.idle with next := some tilePass },
                                vec := { VecEng.idle with allot := [(5, { quota := 1, tileBase := 0, tileSize := 0, rowBase := 0, rowSize := 0 })] } })

theorem witness_ArrayCommands :
    (∃ (s : State) (r : PassReq), 255 < engineCount s.blk.fuses ∧ engineRuns (start s) 255 = true ∧
      (halfOf (engineOf (start s) 255) true).second = false ∧ (halfOf (engineOf (start s) 255) true).next.isSome = true ∧
      nextFor (start s) (engineOf (start s) 255) true = some r ∧
      (pStart r.desc = true ∨ holdsChain (halfOf (engineOf (start s) 255) true) r.ctx = true) ∧
      mayStart (start s) (engineOf (start s) 255) true r = true ∧
      lengthCheck (start s) r.ctx (activePlace (start s) r.ctx) (pPreempt r.desc)
        ((halfOf (engineOf (start s) 255) true).chain.foldl (fun a y => a + pLength y.desc) (pLength r.desc)) = none ∧
      pASrc r.desc ≠ 1 ∧ pDrainKind r.desc = 2 ∧
      (entriesOf (start s) r.owner r.ctx).any (fun y => y.tile == pTile r.desc) = false ∧
      (entriesOf (start s) r.owner r.ctx).length < quotaOf (start s) r.owner r.ctx ∧
      chargeOf (start s) r.owner r.ctx + passCharge r.desc ≤ ctxGet (start s) r.ctx (0x11 + 16 * activePlace (start s) r.ctx)) ∧
    (∃ (s : State) (run : PassRun) (acc : Accs), (halfOf (engineOf (start s) 255) false).run = some run ∧ run.acc = some acc ∧
      pDrainKind run.req.desc = 0 ∧ run.dead = false) ∧
    (∃ (s : State) (run : PassRun) (acc : Accs), (halfOf (engineOf (start s) 255) false).run = some run ∧ run.acc = some acc ∧
      pDrainKind run.req.desc ≠ 0 ∧ hasSums run.req.desc = true ∧ stAccSat (drainTile run.req.desc false acc).2 = false ∧
      stSpecial (drainTile run.req.desc false acc).2 = 0 ∧ sumsMismatch run.req.desc acc = false) ∧
    (∃ (s : State) (r : PassReq), engineRuns (start s) 255 = true ∧
      nextRerun (start s) (halfOf (engineOf (start s) 255) false) = some [r] ∧
      (halfOf (engineOf (start s) 255) false).second = false ∧ (halfOf (engineOf (start s) 255) false).kept = none ∧
      halfFree (engineOf (start s) 255) false r.desc = true ∧
      (waitingNext (engineOf (start s) 255)).any (fun p => above (start s) p.ctx r.ctx) = false) ∧
    ∃ (s : State) (r : PassReq), 63 < quadCount s.blk.fuses ∧ engineRuns (start s) 255 = true ∧ noPassToIssue (workOf s) 255 = true ∧
      firstServed (start s) ((s.blk.tileq.flatMap (·.2)).filter (mayTake (start s) 255)) = some r ∧ quadOf r.owner = 63 ∧
      halfFor (start s) (engineOf (start s) 255) r.ctx r.desc = some false :=
  ⟨⟨tileState, tilePass, by decide +kernel⟩,
   ⟨ranState (passDesc 0 []), ranPass (passDesc 0 []), zeroAccs (passDesc 0 []), by decide +kernel⟩,
   ⟨ranState (passDesc 0 [(244, 1), (242, 1)]), ranPass (passDesc 0 [(244, 1), (242, 1)]), zeroAccs (passDesc 0 [(244, 1), (242, 1)]), by decide +kernel⟩,
   ⟨arrayState (fun g => { g with h0 := { Half.idle with waiting := [[passReq (passDesc 0 [])]] } }), passReq (passDesc 0 []), by decide +kernel⟩,
   ⟨andThen (onEngine 0 0 id [] id) (fun b => { b with tileq := [(63, [passReq (passDesc 0 [(244, 2)])])] }),
    passReq (passDesc 0 [(244, 2)]), by decide +kernel⟩⟩

/-- A chain of one row and one function stage without tile operands; its stage stands at 64 in the store. -/
def chainDesc : Nat := fields [(252, 1), (233, 2)]
def chainState (f : Engine → Engine) : State :=
  andThen (onEngine 0 (fields [(256 + 59, 0xA)]) id [] id) (fun b => { b with engines := tabMod Engine.idle b.engines 255 f })

/-- The chain with its fill read. -/
def chainRun0 : ChainRun := { req := { ctx := 5, desc := chainDesc, stamp := 0 }, len := 40, fill := some [(fields [(59, 0xA)], [])] }

/-- Seven transfers and an eighth, whose one row is still to be written. -/
def fillJob : DmaJob := { ctx := 5, desc := moveDesc 2 0, stamp := 0, next := 0, targets := [255], held := [] }

theorem witness_VectorAndTransferCommands :
    (∃ (s : State) (c : ChainReq), engineRuns (start s) 255 = true ∧ (engineOf (start s) 255).vec.running = none ∧
      (firstChains (engineOf (start s) 255).vec.issued).filter (fun y => chainReady (start s) 255 y && noHigher (start s) 255 y.ctx) = [c] ∧
      entriesOk c.desc (chainEntries (start s) 255 c) = true ∧
      chargeOf (start s) 255 c.ctx + chainLength c.desc (stagesOf (workOf s) 255 c.desc) ≤
        ctxGet (start s) c.ctx (0x11 + 16 * activePlace (start s) c.ctx)) ∧
    (∃ (s : State) (run : ChainRun) (fill : List (Nat × List Byte)), (engineOf (start s) 255).vec.running = some run ∧ run.fill = some fill ∧
      heldBack (start s) 255 run.req.stamp (tileReads run.req.desc (fill.map (·.1))) = false) ∧
    ∃ (s : State) (job : DmaJob), (engineOf (start s) 255).dma[7]? = some job ∧ job.held = [] ∧
      (dmaRows 255 (dRows job.desc) job (workOf s)).1.held = [] ∧
      dRows (dmaRows 255 (dRows job.desc) job (workOf s)).1.desc ≤ (dmaRows 255 (dRows job.desc) job (workOf s)).1.next :=
  ⟨⟨chainState (fun g => { g with vec.issued := [{ ctx := 5, desc := chainDesc, stamp := 0 }] }), { ctx := 5, desc := chainDesc, stamp := 0 },
    by decide +kernel⟩,
   ⟨chainState (fun g => { g with vec.running := some chainRun0 }), chainRun0, [(fields [(59, 0xA)], [])], by decide +kernel⟩,
   ⟨arrayState (fun g => { g with dma := List.replicate 8 fillJob }), fillJob, by decide +kernel⟩⟩

/-! ## Loads, main memory and the channels -/

/-- A frame of the USB session, and a state with pair 3 running and that session open. -/
def frame : Hdr := { link := 0, port := 0, peer := List.replicate 18 0, version := 1, flags := 1, reserved := 0, tag := 0xFFFF, offset := 0 }
def session (s : State) : State :=
  andThen s (fun b => { b with od := tabInsert b.od (odKey 0x2513 1) 1, links.usb := { Session.closed with up := true, version := 1 } })

/-- A load message of kind k for context 5, and the image of one engine whose program is an END. -/
def loadMsg (k : Nat) (more : List Byte) : List Byte := [1, BitVec.ofNat 8 k, 5, 0] ++ List.replicate 12 0 ++ more
def imageBytes : List Byte :=
  [1, 1, 5, 0, 0, 0, 1, 0] ++ List.replicate 8 0 ++ leBytes 8 (fields [(56, 255), (3, 1)]) ++ leBytes 64 (instr 1 [])
/-- A session whose message of a type, under the frame's TAG, has brought bytes so far. -/
def openMessage (ftype : Nat) (m : List Byte) (s : State) : State :=
  andThen s (fun b => { b with links.usb := { b.links.usb with partials := [{ ftype, tag := 0xFFFF, bytes := m }] } })
def loadState : State := session (at_ .config [(0x4005, 0x10, 2 ^ 63)])

theorem witness_LoadCommands :
    FrameServed frame 0x20 (loadMsg 1 []) (loadMsg 1 []) (session (at_ .config [])) ∧
    (leAt (loadMsg 1 []) 1 1 = 1 ∧ leAt (loadMsg 1 []) 0 1 = 1 ∧ leAt ([1, 1] ++ List.replicate 14 (0 : Byte)) 2 6 = 0) ∧
    FrameServed { frame with offset := 16 } 0x20 imageBytes (loadMsg 2 imageBytes) (openMessage 0x20 (loadMsg 2 []) loadState) ∧
    (FrameServed frame 0x20 (loadMsg 2 imageBytes) (loadMsg 2 imageBytes) loadState ∧
      leAt (loadMsg 2 imageBytes) 1 1 = 2 ∧ loadHeader (served frame 0x20 (workOf loadState)).toBlk 2 (loadMsg 2 imageBytes) = (0, 0) ∧
      loadState.blk.res.nextProg ≤ 65535 ∧
      (loadImage 5 0 loadState.blk.res.nextProg imageBytes (served frame 0x20 (workOf loadState))).1 = 0) ∧
    (FrameServed frame 0x20 (loadMsg 3 []) (loadMsg 3 []) loadState ∧
      leAt (loadMsg 3 []) 1 1 = 3 ∧ loadHeader (served frame 0x20 (workOf loadState)).toBlk 3 (loadMsg 3 []) = (0, 0) ∧
      loadState.blk.res.nextWeight ≤ 65535 ∧ leAt (loadMsg 3 []) 8 4 = 0 ∧ weightSegs (loadMsg 3 []) = []) ∧
    (FrameServed frame 0x70 (leBytes 36 0x101) (leBytes 36 0x101) (session (at_ .config [])) ∧ (leBytes 36 0x101).length = 36 ∧
      leAt (leBytes 36 0x101) 0 1 = 1 ∧ leAt (leBytes 36 0x101) 1 1 < 2 ∧ leAt (leBytes 36 0x101) 2 2 = 0) ∧
    ∃ s : State, s.blk.cores.crypto = [.attest 1 65535 0 []] :=
  ⟨by decide +kernel, by decide +kernel, by decide +kernel, by decide +kernel, by decide +kernel, by decide +kernel,
   ⟨andThen (at_ .config []) (fun b => { b with cores.crypto := [.attest 1 65535 0 []] }), by decide⟩⟩

theorem witness_ChannelCommands :
    (∃ s : State, chanThere s 191 = true ∧ Instr.wf (.readRun 191 2097136 16 0 0 { low := true, silent := false } []) = true ∧
      (planRun (start s) 191 2097136 16 0 0 true).isSome = true) ∧
    (∃ s : State, Instr.wf (.writeRun 191 0 0 0 { low := false, silent := false } (List.replicate 64 0xFF)) = true ∧
      (planRun (start s) 191 0 1 0 0 false).isSome = true) ∧
    ∃ s : State, chanWorks (start s) 191 = true ∧ Instr.wf (.setRefresh 191 { rate := 2, clock := 1799 }) = true :=
  ⟨⟨at_ .run [], by decide +kernel⟩, ⟨at_ .run [], by decide +kernel⟩, ⟨at_ .boot [], by decide +kernel⟩⟩

theorem witness_ChannelBackground :
    (∃ s : State, chanThere s 191 = true ∧ chanWorks (start s) 191 = true ∧
      (tickClocks (chanNow (start s) 191).phase (isHot (start s) 191))[(chanNow (start s) 191).ticks]?.isSome = true) ∧
    (∃ s : State, chanWorks (start s) 191 = true ∧ fLt (quadGet (start s) (chanQuad 191) 0x90) 0x42A00000 = false) ∧
    (∃ s : State, chanWorks (start s) 191 = true ∧ fLt (quadGet (start s) (chanQuad 191) 0x90) 0x42A00000 = true ∧
      fLt (quadGet (start s) (chanQuad 191) 0x90) 0x428C0000 = true ∧ (chanOf (start s) 191).cool = some 0 ∧ 0 + 4096 ≤ s.blk.time.beat) ∧
    (∃ s : State, chanWorks (start s) 128 = true ∧ (chanNow (start s) 128).slot = false ∧ (s.blk.time.beat + 128) % 64 = 0) ∧
    (∃ s : State, chanWorks (start s) 191 = true ∧ (chanNow (start s) 191).slot = false ∧ (s.blk.time.beat + 191) % 64 ≠ 0 ∧
      (chanNow (start s) 191).queue = []) ∧
    (∃ s : State, chanWorks (start s) 191 = true ∧ (chanNow (start s) 191).slot = false ∧ (s.blk.time.beat + 191) % 64 ≠ 0 ∧
      (chanNow (start s) 191).queue ≠ []) ∧
    ∃ s : State, chanWorks (start s) 191 = true ∧ (chanOf (start s) 191).scrubFrom = some 0 ∧ 0 + 4260882 ≤ s.blk.time.beat ∧
      (chanOf (start s) 191).starved = false :=
  ⟨⟨at_ .run [], by decide +kernel⟩,
   ⟨at_ .run [(0x5000 + chanQuad 191, 0x90, 0x42A00000)], by decide +kernel⟩,
   ⟨andThen (at_ .run [(0x5000 + chanQuad 191, 0x90, 0x428BFFFF)])
      (fun b => { b with time.beat := 4096, chans := [(191, { Chan.idle with cool := some 0 })] }), by decide +kernel⟩,
   ⟨at_ .run [], by decide +kernel⟩, ⟨at_ .run [], by decide +kernel⟩,
   ⟨andThen (at_ .run []) (fun b => { b with chans := [(191, { Chan.idle with queue := [default] })] }), by decide +kernel⟩,
   ⟨andThen (at_ .run []) (fun b => { b with time.beat := 4260882, chans := [(191, { Chan.idle with scrubFrom := some 0 })] }),
    by decide +kernel⟩⟩

/-- CONFIG with pool 0 of the host over the first kilobyte. -/
def poolState : State := session (at_ .config [(0x2640, 3, 1024)])

/-- A read of 64 bytes at 0, and a write of 64 bytes at 960. -/
def readMsg : List Byte := leBytes 12 (64 * 2 ^ 64)
def writeMsg : List Byte := leBytes 8 960 ++ List.replicate 64 7

theorem witness_HostMemoryCommands :
    (FrameServed frame 0x30 readMsg readMsg poolState ∧ readMsg.length = 12 ∧
      memStatus (served frame 0x30 (workOf poolState)).toBlk (leAt readMsg 0 8) (leAt readMsg 8 4) hostReadOk = 0) ∧
    (FrameServed frame 0x32 writeMsg writeMsg poolState ∧ 8 ≤ writeMsg.length ∧
      memStatus (served frame 0x32 (workOf poolState)).toBlk (leAt writeMsg 0 8) (writeMsg.length - 8) hostWriteOk = 0) := by decide +kernel

theorem witness_HostWriteStores :
    FrameServed frame 0x32 writeMsg writeMsg poolState ∧ 8 ≤ writeMsg.length ∧
    memStatus (served frame 0x32 (workOf poolState)).toBlk (leAt writeMsg 0 8) (writeMsg.length - 8) hostWriteOk = 0 := by decide +kernel

/-! ## Temporal memory -/

/-- Temporal slot 31 with one resident page. -/
def page : Page := { logical := 65535, fill := 0, score := 0, pinned := false, glob := false }
def pageState (e : Effect) : State :=
  andThen (asked .run e [(0x26FF, 8, 16), (0x26FF, 9, 1), (0x26FF, 0xA, 1)]) (fun b => { b with tm.pages := [(31 * 32768 + 32767, some page)] })

theorem witness_TemporalCommits :
    (∃ s : State, residentOf (start s) 31 65535 = some (32767, page) ∧ s.blk.links.effects.find? isPin = some (.pin 31 65535 true) ∧
      pinOk (start s) 31 65535 true = true) ∧
    (∃ s : State, residentOf (start s) 31 65535 = some (32767, page) ∧ s.blk.links.effects.find? isPin = some (.pin 31 65535 true) ∧
      pinOk (start s) 31 65535 true = false) ∧
    (∃ s : State, residentOf (start s) 31 65535 = some (32767, page) ∧
      s.blk.links.effects.find? isUnpin = some (.unpin 31 65535)) ∧
    ∃ s : State, residentOf (start s) 31 65535 = some (32767, page) ∧ s.blk.links.effects.find? isTmReset = some (.tmReset 31) :=
  ⟨⟨pageState (.pin 31 65535 true), by decide +kernel⟩,
   ⟨andThen (pageState (.pin 31 65535 true)) (fun b => { b with od := tabInsert b.od (odKey 0x26FF 0xA) 0 }), by decide +kernel⟩,
   ⟨pageState (.unpin 31 65535), by decide +kernel⟩,
   ⟨pageState (.tmReset 31), by decide +kernel⟩⟩

/-- Temporal slot 31 on engine 255 of context 5, in its forward slice and in its backward slice. -/
def walkState (x : TSlot) (count : Nat) : State :=
  andThen (placed 5 [(0x26FF, 2, 5), (0x26FF, 3, 5), (0x26FF, 0xE, 3), (0x26FF, 0x10, 8191)]) (fun b =>
    { b with images := [{ ctx := 5, placement := 0, engines := [(255, 0)], groups := [], syncs := [], handle := 1, level := none, figs := [] }],
             slices := [(5, { Slice.idle with live := true, rel := 1024 })], tm.slots := [(31, x)],
             syncs := [(8191, some (syncObj .semaphore count []))] })

theorem witness_TemporalWalk :
    (∃ s : State, tmEngine (start s) 31 = some 255 ∧ (tmSlot (start s) 31).phase = 1 ∧ sliceRuns (start s) (tmFwd (start s) 31) = true) ∧
    (∃ s : State, tmEngine (start s) 31 = some 255 ∧ (tmSlot (start s) 31).back = 1 ∧ sliceRuns (start s) (tmBack (start s) 31) = true) ∧
    (∃ s : State, tmEngine (start s) 31 = some 255 ∧ (tmSlot (start s) 31).back = 2 ∧ sliceRuns (start s) (tmBack (start s) 31) = true) ∧
    (∃ s : State, tmEngine (start s) 31 = some 255 ∧ (tmSlot (start s) 31).phase = 2 ∧ sliceRuns (start s) (tmFwd (start s) 31) = true ∧
      triggerOf (start s) 31 ≠ 0) ∧
    (∃ s : State, tmEngine (start s) 31 = some 255 ∧ (tmSlot (start s) 31).phase = 3 ∧
      (sliceOf (start s) (tmFwd (start s) 31)).live = true ∧ triggerOf (start s) 31 ≠ 0) ∧
    ((none : Option Nat).bind (residentOf (start (pageState (.tmReset 31))) 31) = none ∧
      (some 65535 : Option Nat).bind (residentOf (start (pageState (.tmReset 31))) 31) = some (32767, page)) ∧
    ∃ s : State, pair4Mode (start s) 31 = true ∧ tmGet (start s) 31 0x13 = 1 ∧ (sliceOf (start s) (tmFwd (start s) 31)).live = false ∧
      pairRuns (start s) 4 = true :=
  ⟨⟨walkState { TSlot.idle with phase := 1 } 0, by decide +kernel⟩, ⟨walkState { TSlot.idle with back := 1 } 0, by decide +kernel⟩,
   ⟨walkState { TSlot.idle with back := 2 } 0, by decide +kernel⟩, ⟨walkState { TSlot.idle with phase := 2 } 1, by decide +kernel⟩,
   ⟨walkState { TSlot.idle with phase := 3 } 1, by decide +kernel⟩,
   by decide +kernel, ⟨at_ .run [(0x26FF, 8, 513), (0x26FF, 0x13, 1), (0x2514, 1, 1)], by decide +kernel⟩⟩

/-! ## Sensor ingest -/

/-- Camera 15 in RUN, 8 pixels a row and one record a frame, on virtual channel 15 with RAW8. -/
def cameraState : State := at_ .run [(0x300F, 2, 1), (0x300F, 7, 15), (0x300F, 8, 0x2A), (0x300F, 9, 8), (0x300F, 0xB, 0xFF), (0x300F, 0x10, 1), (0x300F, 0x11, 1000000)]

/-- The pipeline finds nothing wrong. -/
def clean : PipeMet := { ue := none, crc := false, writer := false }

theorem witness_CameraPackets :
    (cameraOn (atTime 1999 (workOf cameraState)).toBlk 15 = true ∧ inGet (atTime 1999 (workOf cameraState)).toBlk 15 7 = 15 ∧
      inGet (atTime 1999 (workOf cameraState)).toBlk 15 8 = 0x2A ∧
      (placeAt 15 (moment 1999 (workOf cameraState)) none (atTime 1999 (workOf cameraState))).1.isSome = true ∧
      (List.replicate 8 (0 : Byte)).length * 8 =
        imgW (placeAt 15 (moment 1999 (workOf cameraState)) none (atTime 1999 (workOf cameraState))).2.toBlk 15 * csiBits 0x2A) ∧
    (cameraOn (start cameraState) 15 = true ∧
      inGet (doIf true (inAdd 15 0x45 1) (atTime 1999 (workOf cameraState))).toBlk 15 7 = 15) := by decide +kernel

/-- Stream 31 (Ethernet, UDP port 5,000 on port 3) in RUN. -/
def streamState (more : List (Nat × Nat × Nat)) (f : InStream → InStream) : State :=
  andThen (at_ .run ([(0x2823, 0xB, 1), (0x301F, 2, 1), (0x301F, 5, 3), (0x301F, 7, 0xFFFF), (0x301F, 8, 0), (0x301F, 9, 5000),
    (0x301F, 0xD, 0xFF), (0x301F, 0x10, 1)] ++ more)) (fun b => { b with ingest.streams := [(31, f InStream.idle)] })

/-- A UDP datagram of one byte from 0.0.0.0, checksum 0, to port 5,000. -/
def datagramFrame : List Byte :=
  List.replicate 12 0 ++ [8, 0, 0x45, 0, 0, 29, 0, 0, 0, 0, 1, 17, 0, 0] ++ List.replicate 8 0 ++ [0, 1, 0x13, 0x88, 0, 9, 0, 0, 0xAA]

/-- The datagram it carries, and one of the same source whose checksum is found wrong. -/
def datagram0 : Datagram :=
  { src := mapped [0, 0, 0, 0], dst := mapped [0, 0, 0, 0], port := 5000, good := true, body := [0xAA] }
def spoiltFrame : List Byte :=
  List.replicate 12 0 ++ [8, 0, 0x45, 0, 0, 29, 0, 0, 0, 0, 1, 17, 0, 0] ++ List.replicate 8 0 ++ [0, 1, 0x13, 0x88, 0, 9, 0, 1, 0xAA]

def record0 : Rec := { time := 0, flags := 0, rawCount := 0, body := [], count := 0, data := [], rows := [], pts := [], cached := none }
def job0 : JxsJob := { idx := 0, pos := 0, rec_ := record0, start := 0, depth := 8, tall := 8 }
def header0 : JxsHead := { profile := 1, width := 4, height := 1, depth := 8, tall := 8, other := false, met := clean }
def jxsState (f : InStream → InStream) : State :=
  streamState [(0x301F, 0xA, 3), (0x301F, 0xE, 4 * 65536 + 1), (0x301F, 0xF, 1), (0x301F, 0x16, 2000)] f

theorem witness_StreamCommands :
    (∃ (s : State) (d : Datagram), inRuns (atTime 1999 (workOf s)).toBlk = true ∧ odGet (atTime 1999 (workOf s)).toBlk (0x2820 + 3) 0xB = 1 ∧
      otherRow (atTime 1999 (workOf s)).toBlk 3 datagramFrame = false ∧ udpOf datagramFrame = some d ∧ d.good = true ∧
      matchStream (atTime 1999 (workOf s)).toBlk 3 datagramFrame d.src d.port = some 31 ∧ inType (atTime 1999 (workOf s)).toBlk 31 ≠ 3) ∧
    (∃ (s : State) (d : Datagram), udpOf datagramFrame = some d ∧ matchStream (atTime 1999 (workOf s)).toBlk 3 datagramFrame d.src d.port = some 31 ∧
      inType (atTime 1999 (workOf s)).toBlk 31 = 3) ∧
    (∃ (s : State) (d : Datagram), udpOf spoiltFrame = some d ∧ d.good = false ∧
      matchStream (atTime 1999 (workOf s)).toBlk 3 spoiltFrame d.src d.port = some 31) ∧
    (∃ (s : State) (d : Datagram), udpOf datagramFrame = some d ∧ matchStream (atTime 1999 (workOf s)).toBlk 0 datagramFrame d.src d.port = none) ∧
    (∃ s : State, udpOf [] = none ∧ otherRow (atTime 1999 (workOf s)).toBlk 3 [] = false) ∧
    (∃ s : State, inRuns (atTime 1999 (workOf s)).toBlk = true ∧ (inOf (atTime 1999 (workOf s)).toBlk 31).queue = [job0] ∧
      (inOf (atTime 1999 (workOf s)).toBlk 31).run = none ∧ isOutside (atTime 1999 (workOf s)).toBlk 31 job0.idx = false ∧
      jxsInside (modIn 31 (fun x => { x with queue := [] }) (atTime 1999 (workOf s))).toBlk 31 header0 = true ∧
      jxsInside (modIn 31 (fun x => { x with queue := [] }) (atTime 1999 (workOf s))).toBlk 31 { header0 with width := 5 } = false) ∧
    (∃ s : State, (inOf (atTime 1999 (workOf s)).toBlk 31).run = some job0 ∧
      rowsFit (atTime 1999 (workOf s)).toBlk 31 job0 8 [List.replicate 3 [1, 2, 3, 255]] = true ∧
      moment 1999 (workOf s) ≤ job0.start + inGet (atTime 1999 (workOf s)).toBlk 31 0x16) ∧
    (∃ s : State, (inOf (atTime 1999 (workOf s)).toBlk 31).run = some job0 ∧
      job0.start + inGet (atTime 1999 (workOf s)).toBlk 31 0x16 ≤ moment 1999 (workOf s)) ∧
    (∃ s : State, (inOf (atTime 1999 (workOf s)).toBlk 31).lastRef = some 0 ∧ inEnabled (atTime 1999 (workOf s)).toBlk 31 = true ∧
      inRuns (atTime 1999 (workOf s)).toBlk = true ∧ inFree (atTime 1999 (workOf s)).toBlk 31 = false ∧
      inTrigger (atTime 1999 (workOf s)).toBlk 31 = 0xFF ∧
      0 + inGet (atTime 1999 (workOf s)).toBlk 31 0x11 + inGet (atTime 1999 (workOf s)).toBlk 31 0x14 ≤ moment 1999 (workOf s)) ∧
    FrameServed frame 0x50 (leBytes 64 7) (leBytes 64 7) (session (at_ .adapt [])) :=
  ⟨⟨streamState [] id, datagram0, by decide +kernel⟩, ⟨streamState [(0x301F, 0xA, 3)] id, datagram0, by decide +kernel⟩,
   ⟨streamState [] id, { datagram0 with good := false }, by decide +kernel⟩, ⟨streamState [] id, datagram0, by decide +kernel⟩,
   ⟨streamState [] id, by decide +kernel⟩,
   ⟨jxsState (fun x => { x with queue := [job0] }), by decide +kernel⟩, ⟨jxsState (fun x => { x with run := some job0 }), by decide +kernel⟩,
   ⟨streamState [(0x301F, 0x16, 1000)] (fun x => { x with run := some job0 }), by decide +kernel⟩,
   ⟨streamState [(0x301F, 0x11, 1000), (0x301F, 0x14, 500)] (fun x => { x with lastRef := some 0 }), by decide +kernel⟩, by decide +kernel⟩

/-! ## Time, triggers and inputs -/

theorem witness_GptpCommands :
    (∃ s : State, follows (start s) 4 0 = true ∧ s.blk.time.openSync = some (65535, 7)) ∧
    (∃ s : State, sends (atTime 1999 (workOf s)).toBlk 3 = true ∧ tabFind (atTime 1999 (workOf s)).pins.syncSent 3 = none) ∧
    ∃ (s : State) (l : Nat), sends (atTime 125000000 (workOf s)).toBlk 3 = true ∧
      tabFind (atTime 125000000 (workOf s)).pins.syncSent 3 = some l ∧
      l + syncInterval (atTime 125000000 (workOf s)).toBlk ≤ moment 125000000 (workOf s) :=
  ⟨⟨andThen (at_ .config [(0x2101, 2, 1), (0x2101, 3, 4)]) (fun b => { b with time.openSync := some (65535, 7) }), by decide +kernel⟩,
   ⟨at_ .config [(0x2101, 2, 2), (0x2101, 4, 8)], by decide +kernel⟩,
   ⟨andThen (at_ .config [(0x2101, 2, 2), (0x2101, 4, 8)])
      (fun b => { b with time.beat := 62500, time.ns := 125000000, pins.syncSent := [(3, 0)] }), 0, by decide +kernel⟩⟩

def someMap : NewMap := { due := 1, delta := -1, rate := 0, first := none, own := none }
def ownMap : NewMap := { someMap with own := some 7 }
def mapState (m : NewMap) (beat : Nat) (l : List (Nat × Nat × Nat)) : State :=
  andThen (at_ .run l) (fun b => { b with time := { b.time with beat := beat, ns := 2000 * beat, newMap := some m } })

theorem witness_TimeMapCommands :
    (∃ s : State, s.blk.time.newMap = some someMap ∧ s.blk.time.beat < someMap.due) ∧
    (∀ m ∈ [someMap, ownMap], ∃ s : State, s.blk.time.ns = 2000 * s.blk.time.beat ∧ s.blk.time.newMap = some m ∧
      m.due ≤ s.blk.time.beat ∧ odGet (start s) 0x2700 4 ≠ 2) ∧
    (∀ m ∈ [someMap, ownMap], ∃ s : State, s.blk.time.ns = 2000 * s.blk.time.beat ∧ s.blk.time.newMap = some m ∧
      m.due ≤ s.blk.time.beat ∧ odGet (start s) 0x2700 4 = 2) ∧
    (∃ s : State, s.blk.time.sync = 2 ∧ s.blk.time.lastSample + 3 * syncInterval (start s) ≤ s.blk.time.ns) ∧
    (∃ s : State, s.blk.time.sync = 3 ∧ s.blk.time.lastSample + 3000000000 ≤ s.blk.time.ns) ∧
    (∃ s : State, mapArrives (start s) = false ∧ s.blk.time.sync = 4 ∧
      s.blk.time.holdoverFrom + odGet (start s) 0x2100 0xD * 1000000000 ≤ s.blk.time.ns) ∧
    (∃ s : State, .mapReset ∈ s.blk.links.effects) ∧
    ∃ s : State, s.blk.links.effects.find? isPpsSeconds = some (.ppsSeconds 9) := by
  refine ⟨⟨mapState someMap 0 [], by decide +kernel⟩, fun m hm => ⟨mapState m 1 [], ?_⟩, fun m hm => ⟨mapState m 1 [(0x2700, 4, 2)], ?_⟩,
   ⟨andThen (at_ .run []) (fun b => { b with time := { b.time with sync := 2, ns := 3000000000 } }), by decide +kernel⟩,
   ⟨andThen (at_ .run []) (fun b => { b with time := { b.time with sync := 3, ns := 3000000000 } }), by decide +kernel⟩,
   ⟨andThen (at_ .run [(0x2100, 0xD, 1)]) (fun b => { b with time := { b.time with sync := 4, ns := 1000000000 } }), by decide +kernel⟩,
   ⟨asked .config .mapReset [], by decide⟩, ⟨asked .config (.ppsSeconds 9) [], by decide⟩⟩
  all_goals revert m; decide +kernel

/-- Trigger k enabled, with a period of 1 ms and a width of 10 us. -/
def trigState (k : Nat) (l : List (Nat × Nat × Nat)) (x : Trig) : State :=
  andThen (at_ .run ([(0x2120 + k, 2, 1), (0x2120 + k, 4, 1000000), (0x2120 + k, 7, 10000), (0x2102, 3, 1)] ++ l))
    (fun b => { b with pins.trigs := [(k, x)], time.sync := 2 })

theorem witness_TriggerCommands :
    (∀ k ∈ [0, 31, 32], ∃ x : Trig, (trigOf (start (trigState k [] x)) k).since = some 0 ∧ trigOn (start (trigState k [] x)) k = true ∧
      (trigOf (start (trigState k [] x)) k).next = none ∧ (trigState k [] x).blk.time.sync = 2) ∧
    (∀ k ∈ [0, 31, 32], ∃ x : Trig, (trigOf (start (trigState k [] x)) k).next = some 0 ∧ trigOn (start (trigState k [] x)) k = true ∧
      (trigOf (start (trigState k [] x)) k).sched = none ∧
      refEdge (if trigNet (start (trigState k [] x)) k then (mapDev (trigState k [] x).blk.time (trigEdge (start (trigState k [] x)) k 0)).toNat
        else trigEdge (start (trigState k [] x)) k 0) / 2000 ≤ (trigState k [] x).blk.time.beat + 2) ∧
    (∀ k ∈ [31, 32], ∃ x : Trig, (trigOf (start (trigState k [] x)) k).sched = some 1960 ∧ trigOn (start (trigState k [] x)) k = true ∧
      1960 / 2000 ≤ (trigState k [] x).blk.time.beat) ∧
    (∃ s : State, (trigOf (start s) 32).next = some 0 ∧ trigOn (start s) 32 = true ∧ (trigOf (start s) 32).sched = none ∧ s.blk.time.sync < 2 ∧
      refEdge (if trigNet (start s) 32 then (mapDev s.blk.time (trigEdge (start s) 32 0)).toNat else trigEdge (start s) 32 0) / 2000 ≤
        s.blk.time.beat + 2) ∧
    ∃ x : Trig, (trigOf (atTime 1999 (workOf (trigState 32 [] x))).toBlk 32).until_ = some 40 ∧
      40 ≤ moment 1999 (workOf (trigState 32 [] x)) := by
  refine ⟨fun k hk => ⟨{ Trig.idle with since := some 0 }, ?_⟩, fun k hk => ⟨{ Trig.idle with next := some 0 }, ?_⟩,
    fun k hk => ⟨{ Trig.idle with sched := some 1960 }, ?_⟩,
    ⟨andThen (trigState 32 [] { Trig.idle with next := some 0 }) (fun b => { b with time.sync := 1 }), by decide +kernel⟩,
    ⟨{ Trig.idle with until_ := some 40 }, by decide +kernel⟩⟩
  all_goals revert k; decide +kernel

def inputState (i : Nat) (l : List (Nat × Nat × Nat)) (x : Input) : State :=
  andThen (at_ .run ([(0x2140 + i, 2, 1), (0x2140 + i, 4, 10)] ++ l)) (fun b => { b with pins.inputs := [(i, x)] })

/-- What an accepted change leaves before its event. -/
def movedIn (i : Nat) (lv : Bool) (t : Nat) (s : State) : Blk :=
  (modInput i (fun x => { x with level := lv, raw := t, active := if activeLevel (start s) i lv then some t else none,
                                 stuck := x.stuck && activeLevel (start s) i lv })
    (atTime (t + 40 * odGet (start s) (0x2140 + i) 4) (workOf s))).toBlk

theorem witness_InputCommands :
    (∃ s : State, clockRuns (start s) = true ∧ 9 < odGet (start s) (0x2140 + 19) 4) ∧
    (∃ (s : State) (lv : Bool), odGet (start s) (0x2140 + 19) 4 ≤ 10 ∧ (inputOf (start s) 19).level ≠ lv ∧
      inputOn (movedIn 19 lv 0 s) 19 = true ∧ activeLevel (start s) 19 lv = true ∧ tooSoon (movedIn 19 lv 0 s) 19 0 = false) ∧
    (∃ (s : State) (lv : Bool), odGet (start s) (0x2140 + 0) 4 ≤ 10 ∧ (inputOf (start s) 0).level ≠ lv ∧
      inputOn (movedIn 0 lv 0 s) 0 = true ∧ odGet (movedIn 0 lv 0 s) (0x2140 + 0) 7 = 1 ∧ tooSoon (movedIn 0 lv 0 s) 0 0 = true) ∧
    (∃ (s : State) (lv : Bool), odGet (start s) (0x2140 + 19) 4 ≤ 255 ∧ (inputOf (start s) 19).level ≠ lv ∧
      inputOn (movedIn 19 lv 0 s) 19 = true ∧ activeLevel (start s) 19 lv = false ∧ odGet (movedIn 19 lv 0 s) (0x2140 + 19) 7 ≠ 1) ∧
    (∃ (s : State) (lv : Bool), odGet (start s) (0x2140 + 19) 4 ≤ 255 ∧ (inputOf (start s) 19).level ≠ lv ∧
      inputOn (movedIn 19 lv 0 s) 19 = false) ∧
    (∃ s : State, isLevel (atTime 40 (workOf s)).toBlk 17 = true ∧ tooSoon (atTime 40 (workOf s)).toBlk 17 (moment 40 (workOf s)) = false ∧
      activeLevel (atTime 40 (workOf s)).toBlk 17 (inputOf (atTime 40 (workOf s)).toBlk 17).level ≠
        (inputOf (atTime 40 (workOf s)).toBlk 17).reported ∧ inputOn (atTime 40 (workOf s)).toBlk 17 = true) ∧
    (∃ s : State, (inputOf (atTime 1000000 (workOf s)).toBlk 0).active = some 0 ∧ (inputOf (atTime 1000000 (workOf s)).toBlk 0).stuck = false ∧
      inputOn (atTime 1000000 (workOf s)).toBlk 0 = true ∧
      0 + odGet (atTime 1000000 (workOf s)).toBlk (0x2140 + 0) 6 * 1000000 ≤ moment 1000000 (workOf s)) ∧
    (∀ fifo ∈ [[], [5]], ∃ s : State, FrameServed frame 0x10 (objHead (0x2140 + 15) 0x16) (objHead (0x2140 + 15) 0x16) s ∧
      readCheck (served frame 0x10 (workOf s)).toBlk (0x2140 + 15) 0x16 = 0 ∧ (inputOf (served frame 0x10 (workOf s)).toBlk 15).fifo = fifo) ∧
    (∃ s : State, clockRuns (start s) = true ∧ odGet (odPut 0x2280 8 4095 (workOf s)).toBlk 0x2280 0xC = 0) ∧
    (∃ s : State, 4094 < odGet (odPut 0x2280 8 4094 (workOf s)).toBlk 0x2280 0xC) ∧
    ∃ s : State, 4 ≤ (adcOf (atTime 1999 (workOf s)).toBlk 0).low ∧ (atTime 1999 (workOf s)).pow.netLow = false := by
  refine ⟨⟨inputState 19 [] Input.idle, by decide +kernel⟩,
   ⟨inputState 19 [(0x2153, 3, 0), (0x2153, 2, 1)] { Input.idle with level := false }, true, by decide +kernel⟩,
   ⟨inputState 0 [(0x2140, 7, 1), (0x2140, 5, 1000)] { Input.idle with level := false, lastEvent := some 0 }, true, by decide +kernel⟩,
   ⟨inputState 19 [(0x2153, 3, 0), (0x2153, 2, 1)] { Input.idle with level := true }, false, by decide +kernel⟩,
   ⟨inputState 19 [(0x2153, 2, 0)] { Input.idle with level := true }, false, by decide +kernel⟩,
   ⟨inputState 17 [(0x2151, 3, 0)] { Input.idle with level := true, reported := false }, by decide +kernel⟩,
   ⟨andThen (inputState 0 [(0x2140, 6, 1)] { Input.idle with active := some 0 }) (fun b => { b with time.beat := 500, time.ns := 1000000 }),
    by decide +kernel⟩,
   fun fifo hf => ⟨andThen (session (inputState 15 [(0x2513, 1, 1)] Input.idle))
     (fun b => { b with pins.inputs := [(15, { Input.idle with fifo := fifo })] }), ?_⟩,
   ⟨at_ .run [(0x2280, 0xC, 0)], by decide +kernel⟩, ⟨at_ .run [(0x2280, 0xC, 4095)], by decide +kernel⟩,
   ⟨andThen (at_ .run []) (fun b => { b with pins.adc := [(0, { (adcOf b 0) with low := 4 })] }), by decide +kernel⟩⟩
  revert fifo; decide +kernel

/-! ## The object service and the links -/

/-- A stage with one write of the node's heartbeat period. -/
def beatStage : Stage := { Stage.empty with writes := [{ idx := 0x1017, sub := 0, len := 2, val := 100 }] }
def staged (l : Nat) (x : Stage) (s : State) : State := andThen s (fun b => { b with links.stages := setNth b.links.stages l x })

/-- One with a request for RUN. -/
def requestStage : Stage := { Stage.empty with writes := [{ idx := 0x2000, sub := 2, len := 1, val := 3 }] }
def due (x : Stage) : Stage := { x with commitAt := some 0, reply := some (.usdo 1 127) }

theorem witness_ObjectCommands :
    (FrameServed frame 0x10 (objHead 0x2000 2) (objHead 0x2000 2) (session (at_ .run [])) ∧
      readCheck (served frame 0x10 (workOf (session (at_ .run [])))).toBlk 0x2000 2 = 0) ∧
    (FrameServed frame 0x10 (objHead 0xFFFF 0xFF) (objHead 0xFFFF 0xFF) (session (at_ .run [])) ∧
      readCheck (served frame 0x10 (workOf (session (at_ .run [])))).toBlk 0xFFFF 0xFF ≠ 0) ∧
    (FrameServed frame 0x12 (objHead 0x1017 0 ++ leBytes 2 100) (objHead 0x1017 0 ++ leBytes 2 100) (session (at_ .run [])) ∧
      (expandWrite (served frame 0x12 (workOf (session (at_ .run [])))).toBlk 0x1017 0 (leBytes 2 100)).1 = 0) ∧
    (FrameServed frame 0x12 (objHead 0xFFFF 0) (objHead 0xFFFF 0 ++ []) (session (at_ .run [])) ∧
      (expandWrite (served frame 0x12 (workOf (session (at_ .run [])))).toBlk 0xFFFF 0 []).1 ≠ 0) ∧
    (∃ s : State, FrameServed frame 0x12 (objHead 0x2001 1 ++ leBytes 1 1) (objHead 0x2001 1 ++ leBytes 1 1) s ∧
      (expandWrite (served frame 0x12 (workOf s)).toBlk 0x2001 1 (leBytes 1 1)).1 = 0 ∧
      (stageOf (served frame 0x12 (workOf s)).toBlk 0).commitAt = none ∧
      (stageOf (served frame 0x12 (workOf s)).toBlk 0).writes.isEmpty = false) ∧
    (∃ s : State, FrameServed frame 0x12 (objHead 0x2001 1 ++ leBytes 1 0) (objHead 0x2001 1 ++ leBytes 1 0) s ∧
      (expandWrite (served frame 0x12 (workOf s)).toBlk 0x2001 1 (leBytes 1 0)).1 = 0) ∧
    (∀ x : Stage × Bool, x ∈ [(beatStage, false), (requestStage, true)] → ∃ s : State,
      (stageOf (start s) 3).commitAt = some 0 ∧ 0 ≤ s.blk.time.beat ∧ s.blk.dev.escalate = none ∧ s.blk.dev.state = .config ∧
      (stageOf (start s) 3).reply = some (.usdo 1 127) ∧
      (∀ y ∈ (stageOf (start s) 3).writes, commitCheck (start s)
        (mapsAfter (stageOf (start s) 3) (forAll (stageOf (start s) 3).writes applyWrite (workOf s))).toBlk y = 0) ∧
      jointAsked (commitApply (stageOf (start s) 3) (modStage 3 (fun _ => Stage.empty) (workOf s))).toBlk
        (stageOf (start s) 3) = x.2) ∧
    (∃ (s : State) (c : Nat), (stageOf (start s) 3).commitAt = some 0 ∧ 0 ≤ s.blk.time.beat ∧ s.blk.dev.escalate = none ∧
      s.blk.dev.state = .config ∧ (stageOf (start s) 3).reply = some (.usdo 1 127) ∧
      ((stageOf (start s) 3).writes.map (commitCheck (start s)
        (mapsAfter (stageOf (start s) 3) (forAll (stageOf (start s) 3).writes applyWrite (workOf s))).toBlk)).find? (· != 0) = some c) ∧
    ∃ s : State, (stageOf (start s) 3).commitAt = some 0 ∧ 0 ≤ s.blk.time.beat ∧ s.blk.dev.escalate.isSome = true ∧
      (stageOf (start s) 3).reply = some (.usdo 1 127) := by
  refine ⟨by decide +kernel, by decide +kernel, by decide +kernel, by decide +kernel,
   ⟨staged 0 beatStage (session (at_ .run [])), by decide +kernel⟩, ⟨staged 0 beatStage (session (at_ .run [])), by decide +kernel⟩,
   fun x hx => ⟨staged 3 (due x.1) (andThen (at_ .config
     ([(0x2700, 2, 4), (0x2700, 3, 2), (0x2700, 4, 2), (0x4000, 0x0B, 2)] ++ (List.range 6).map (fun k => (0x2510 + k, 1, 1))))
     (fun b => { b with dev.checksPassed := true })), ?_⟩,
   ⟨staged 3 (due requestStage) (at_ .config []), 0x08000022, by decide +kernel⟩,
   ⟨staged 3 (due beatStage) (andThen (at_ .run []) (fun b => { b with dev.escalate := some 3 })), by decide +kernel⟩⟩
  revert x; decide +kernel

/-- CAN controller 1 in RUN on node 127, with the client's transfer `o` open. -/
def openWrite : UsdoOpen := { client := 127, session := 0, write := true, idx := 0x1017, sub := 0, size := 2, bytes := [100], last := 0 }
def canState (f : CanCtrl → CanCtrl) (l : List (Nat × Nat × Nat)) : State :=
  andThen (at_ .run ([(0x2811, 2, 1), (0x2513, 1, 1)] ++ l))
    (fun b => { b with dev.nodeId := 127, links.can := [CanCtrl.reset, f CanCtrl.reset], time.beat := 50000, time.ns := 100000000 })

theorem witness_CanCommands :
    (∃ s : State, canActive (start s) 1 = true ∧ serviceRuns (start s) = true ∧ (canOf (start s) 1).usdo = none) ∧
    (∃ s : State, canActive (start s) 1 = true ∧ serviceRuns (start s) = true ∧ (canOf (start s) 1).usdo = some openWrite ∧
      (openWrite.bytes ++ [0]).length = openWrite.size) ∧
    (∃ s : State, (canOf (atTime 100000000 (workOf s)).toBlk 1).usdo = some openWrite ∧
      openWrite.last + 100000000 ≤ moment 100000000 (workOf s)) ∧
    (∃ s : State, canActive (start s) 1 = true ∧ (canOf (atTime 100000000 (workOf s)).toBlk 1).beatSent = 0 ∧
      canActive (atTime 100000000 (workOf s)).toBlk 1 = true) ∧
    (∃ s : State, canActive (start s) 1 = true ∧ serviceRuns (start s) = true ∧ (canOf (start s) 1).usdo = some openWrite ∧
      openWrite.client ≠ 126 ∧ UsdoReq.wf .invalid = true) ∧
    (∃ s : State, servedState (start s) = true ∧ odGet (start s) 0x2390 1 = 1 ∧ s.blk.time.beat % odGet (start s) 0x2390 3 = 0 ∧
      s.blk.time.ns = 2000 * s.blk.time.beat ∧ (canActive (start s) 0 = true ∨ canActive (start s) 1 = true)) ∧
    (∃ s : State, canActive (start s) 0 = false ∧ canActive (start s) 1 = false) ∧
    (∃ s : State, (canOf (start s) 1).busOff = false) ∧ ∃ s : State, (canOf (start s) 1).busOff = true :=
  ⟨⟨canState id [], by decide +kernel⟩, ⟨canState (fun x => { x with usdo := some openWrite }) [], by decide +kernel⟩,
   ⟨canState (fun x => { x with usdo := some openWrite }) [], by decide +kernel⟩, ⟨canState id [], by decide +kernel⟩,
   ⟨canState (fun x => { x with usdo := some openWrite }) [], by decide +kernel⟩, ⟨canState id [(0x2390, 1, 1), (0x2390, 3, 500)], by decide +kernel⟩,
   ⟨at_ .boot [], by decide +kernel⟩, ⟨canState id [], by decide +kernel⟩,
   ⟨canState (fun x => { x with busOff := true }) [], by decide +kernel⟩⟩

/-- A repeated request over UDP whose answer the session holds. -/
def again : Hdr := { frame with link := 1, port := 4, flags := 3 }
def udpState : State :=
  let held : List (Nat × List Output) := [(again.tag, [.crino 1 2 again.tag 0 []])]
  andThen (session (at_ .run [(0x2801, 1, 1), (0x2801, 3, 31)])) (fun b =>
    { b with links.udp := { Session.closed with up := true, version := 1, peer := again.peer, answers := held } })

theorem witness_SessionCommands :
    (again.wf = true ∧ linkServes (start udpState) again.link again.port = true ∧ stranger (start udpState) again = false ∧
      (heldAnswer (start udpState) again).isSome = true) ∧
    (frame.wf = true ∧ linkServes (start (session (at_ .run []))) frame.link frame.port = true ∧
      stranger (start (session (at_ .run []))) frame = false ∧ heldAnswer (start (session (at_ .run []))) frame = none ∧ frame.offset = 0 ∧ frame.flags = 1 ∧ frame.reserved = 0 ∧
      frame.version = 1 ∧ (sessionOf (start (session (at_ .run []))) frame.link).up = true ∧
      frame.version = (sessionOf (start (session (at_ .run []))) frame.link).version) ∧
    (∀ p ∈ ([[0, 0xFF, 0, 0], [1, 1, 0, 0]] : List (List Byte)), p.length = 4 ∧ leAt p 2 2 = 0 ∧ leAt p 0 1 ≤ 1 ∧ 1 ≤ leAt p 1 1) ∧
    (∀ p ∈ ([[2, 0xFF, 0, 0], [0, 0, 0, 0]] : List (List Byte)), p.length = 4 ∧ leAt p 2 2 = 0 ∧ (1 < leAt p 0 1 ∨ leAt p 1 1 < 1)) ∧
    FrameServed frame 3 [] [] (session (at_ .run [])) ∧
    (∃ s : State, (sessionOf (atTime (2 ^ 32 * 2000) (workOf s)).toBlk 0).last +
        odGet (atTime (2 ^ 32 * 2000) (workOf s)).toBlk 0x2800 3 * 1000000 ≤ moment (2 ^ 32 * 2000) (workOf s) ∧
      (sessionOf (atTime (2 ^ 32 * 2000) (workOf s)).toBlk 0).up = true) ∧
    ∃ s : State, s.blk.links.usb.up = true :=
  ⟨by decide +kernel, by decide +kernel, by decide +kernel, by decide +kernel, by decide +kernel,
   ⟨andThen (session (at_ .run [])) (fun b => { b with time.beat := 2 ^ 32, time.ns := 2 ^ 32 * 2000 }), by decide +kernel⟩,
   ⟨session (at_ .run []), by decide +kernel⟩⟩

theorem witness_WindowCommands :
    FrameServed frame 0x40 (leBytes 8 0) (leBytes 8 0) (session (at_ .run [])) ∧
    FrameServed frame 0x41 (leBytes 12 0) (leBytes 12 0) (session (at_ .run [])) ∧
    (∀ v ∈ [0, 2 ^ 32 - 1], FrameServed frame 0x41 (regOne 0x1C v) (regOne 0x1C v) (session (at_ .run []))) ∧
    (∀ v ∈ [31, 32], FrameServed frame 0x41 (regOne 0x20 v) (regOne 0x20 v) (session (at_ .run []))) ∧
    FrameServed frame 0x41 (regOne (0x110 + 0x20 * 3) 7) (regOne (0x110 + 0x20 * 3) 7) (session (at_ .run [])) := by decide +kernel

/-- Ring 3, at the window's start, with one entry waiting. -/
def ringState (d : DevState) (e : List Byte) : State :=
  let r : Ring := { Ring.off with base := 0, entries := 2, tail := 1, status := 1 }
  let s := andThen (session (at_ d [])) (fun b =>
    { b with links.win := { b.links.win with cqEntries := 256, rings := setNth b.links.win.rings 3 r } })
  { s with mem := memPut [] (winKey 0) e }

def entry (t : Nat) (args : List Byte) : List Byte := [1, BitVec.ofNat 8 t, 0, 0, 9, 0, 0, 0] ++ (args ++ List.replicate 56 0).take 56

theorem witness_RingCommands :
    (∀ t ∈ [1, 2, 3, 4], nextCmd (workOf (ringState .adapt (entry t []))) = some (3, entry t []) ∧
      cmdStops (entry t []) = none ∧ leAt (entry t []) 1 1 = t) ∧
    ((ringState .adapt (entry 3 [31])).blk.dev.state = .adapt ∧ leAt ((entry 3 [31]).drop 8) 1 1 = 0 ∧
      leAt ((entry 3 [31]).drop 8) 0 1 = 31 ∧ cmdStops (entry 3 [31]) = none) ∧
    (nextCmd (workOf (ringState .run (entry 3 []))) = some (3, entry 3 []) ∧ (ringState .run (entry 3 [])).blk.dev.state ≠ .adapt) ∧
    (nextCmd (workOf (ringState .run (entry 255 []))) = some (3, entry 255 []) ∧ cmdStops (entry 255 []) = some 2) := by
  decide +kernel

/-- Ethernet port 4 with its link up, answering for 10.0.0.1 or for an IPv6 address. -/
def portState (a : List Byte) : State := at_ .run [(0x2513, 1, 1), (0x2801, 1, 1), (0x2801, 3, 31), (0x2824, 3, leNat a), (0x2824, 0xB, 1)]

theorem witness_EthernetCommands :
    (ethAnswers (start (portState (List.replicate 10 0 ++ [0xFF, 0xFF, 10, 0, 0, 1]))) 4 = true ∧
      leBytes 16 (odGet (start (portState (List.replicate 10 0 ++ [0xFF, 0xFF, 10, 0, 0, 1]))) (0x2820 + 4) 3) =
        List.replicate 10 0 ++ [0xFF, 0xFF] ++ [10, 0, 0, 1]) ∧
    (ethAnswers (start (portState (List.replicate 16 0xFD))) 4 = true ∧
      leBytes 16 (odGet (start (portState (List.replicate 16 0xFD))) (0x2820 + 4) 3) = List.replicate 16 0xFD) := by decide +kernel

/-- In SAFE pair 0 serves the collector's objects, elsewhere pair 3. -/
def popState (d : DevState) : State := session (at_ d [(0x2510, 1, 1), (0x2540, 7, 1)])

theorem witness_PopCommands :
    (∀ d ∈ [DevState.run, .safe], FrameServed frame 0x10 (objHead 0x2400 8) (objHead 0x2400 8) (popState d) ∧
      readCheck (served frame 0x10 (workOf (popState d))).toBlk 0x2400 8 = 0) ∧
    (FrameServed frame 0x10 (objHead 0x2410 7) (objHead 0x2410 7) (popState .run) ∧
      readCheck (served frame 0x10 (workOf (popState .run))).toBlk 0x2410 7 = 0) ∧
    (FrameServed frame 0x10 (objHead 0x2540 8) (objHead 0x2540 8) (popState .run) ∧
      readCheck (served frame 0x10 (workOf (popState .run))).toBlk 0x2540 8 = 0) ∧
    (odGet (start (popState .run)) 0x2540 7 = 1 ∧ (popState .run).blk.links.usb.up = true) := by decide +kernel

/-! ## The control cores -/

theorem witness_PairCommands :
    (∀ v ∈ [1, 4], ∃ s : State, pairState (start s) 5 = v ∧ (pairOf (start s) 5).split = false) ∧
    (∃ s : State, pairState (start s) 5 = 1 ∧ .split 5 ∈ s.blk.links.effects ∧ odGet (start s) (0x2510 + 5) 2 = 1) ∧
    (∃ s : State, (pairOf (start s) 2).split = true ∧ .rejoin 2 ∈ s.blk.links.effects) ∧
    (∃ s : State, (pairOf (start s) 0).start = none ∧ pairState (start s) 0 = 1 ∧
      (pairOf (start s) 0).last + odGet (start s) 0x2420 3 ≤ s.blk.time.beat) ∧
    (∀ v ∈ [0, 3], ∃ s : State, (pairOf (start s) 5).start = some 0 ∧ 0 + 500 ≤ s.blk.time.beat ∧ pairState (start s) 5 = v) ∧
    (∃ s : State, pairState (start s) 0 = 3 ∧ odGet (start s) (0x2510 + 0) 4 = 6 ∧ (pairOf (start s) 0).start = none) ∧
    ∃ s : State, pairRuns (start s) 5 = true := by
  refine ⟨fun v hv => ⟨at_ .run [(0x2515, 1, v)], ?_⟩, ⟨asked .config (.split 5) [(0x2515, 1, 1), (0x2515, 2, 1)], by decide +kernel⟩,
   ⟨andThen (asked .run (.rejoin 2) [(0x2512, 1, 2)])
      (fun b => { b with cores.pairs := setNth b.cores.pairs 2 { (pairOf b 2) with split := true } }), by decide +kernel⟩,
   ⟨andThen (at_ .run [(0x2510, 1, 1), (0x2420, 3, 100)]) (fun b => { b with time.beat := 100 }), by decide +kernel⟩,
   fun v hv => ⟨andThen (at_ .run [(0x2515, 1, v)])
      (fun b => { b with time.beat := 500, cores.pairs := setNth b.cores.pairs 5 { (pairOf b 5) with start := some 0 } }), ?_⟩,
   ⟨at_ .run [(0x2510, 1, 3), (0x2510, 4, 6)], by decide +kernel⟩, ⟨at_ .run [(0x2515, 1, 2)], by decide +kernel⟩⟩
  all_goals revert v; decide +kernel

theorem witness_DebugCommands :
    (∃ s : State, s.blk.fuses.debugLock = false ∧ pairRuns (start s) 5 = true) ∧
    (∃ s : State, s.blk.fuses.debugLock = false ∧ pairState (start s) 5 = 4) ∧ ∃ s : State, s.blk.fuses.debugLock = true :=
  ⟨⟨at_ .run [(0x2515, 1, 2)], by decide +kernel⟩, ⟨at_ .run [(0x2515, 1, 4)], by decide +kernel⟩,
   ⟨st (fun b => { b with fuses.debugLock := true }), by decide +kernel⟩⟩

def image0 : FwImage := { bytes := [], slot := 0 }
def activeWith (d : DevState) (l : List (Nat × Nat × Nat)) (f : Cores → Cores) : State := andThen (at_ d l) (fun b => { b with cores := f b.cores })

theorem witness_ActivationCommands :
    (∃ s : State, .activate ∈ s.blk.links.effects) ∧ (∃ s : State, .deactivate ∈ s.blk.links.effects) ∧
    (∃ s : State, s.blk.cores.pending = some image0 ∧ odGet (start s) 0x2500 1 = 3 ∧ mayActivate (start s) = true ∧ s.blk.dev.state = .config) ∧
    (∃ s : State, s.blk.cores.pending = some image0 ∧ odGet (start s) 0x2500 1 = 3 ∧ mayActivate (start s) = true ∧ s.blk.dev.state ≠ .config) ∧
    (∃ s : State, odGet (start s) 0x2500 1 = 4 ∧ s.blk.cores.reporting = [] ∧ s.blk.cores.active = some image0 ∧ s.blk.dev.state ≠ .config) ∧
    (∃ s : State, odGet (start s) 0x2500 1 = 4 ∧ s.blk.cores.reporting = [] ∧ s.blk.cores.active = some image0 ∧ s.blk.dev.state = .config ∧
      odGet (start s) 0x2300 5 = 0) ∧
    (∃ s : State, ([(5, 63)] : List (Nat × Nat)).all (fun p => decide (p.2 < 64)) = true ∧ pairRuns (start s) 2 = true ∧ s.blk.time.beat < 4096 * (0 + 1)) ∧
    ∃ s : State, activeState (start s) = true ∧ pairRuns (start s) 2 = false ∧ s.blk.sched.planEnd ≤ s.blk.time.beat ∧ s.blk.dev.escalate = none :=
  ⟨⟨asked .run .activate [], by decide⟩, ⟨asked .run .deactivate [], by decide⟩,
   ⟨activeWith .config [(0x2500, 1, 3)] (fun c => { c with pending := some image0 }), by decide +kernel⟩,
   ⟨activeWith .run [(0x2500, 1, 3)] (fun c => { c with pending := some image0 }), by decide +kernel⟩,
   ⟨activeWith .run [(0x2500, 1, 4)] (fun c => { c with reporting := [], active := some image0 }), by decide +kernel⟩,
   ⟨activeWith .config [(0x2500, 1, 4), (0x2300, 5, 0)] (fun c => { c with reporting := [], active := some image0 }), by decide +kernel⟩,
   ⟨at_ .run [(0x2512, 1, 1)], by decide +kernel⟩, ⟨at_ .run [], by decide +kernel⟩⟩

/-! ## Power and cooling -/

theorem witness_PowerCommands :
    (∃ s : State, s.blk.time.beat % 2 = 0 ∧ s.blk.time.ns = 2000 * s.blk.time.beat ∧ s.blk.pow.lastEst ≠ some s.blk.time.beat ∧
      hubRuns (start s) = true ∧ odGet (start s) 0x2511 1 = 1) ∧
    (∃ s : State, pllThere 4 s = true ∧ s.blk.pow.unlocked.contains 4 = false) ∧
    (∃ s : State, pllThere 4 s = true ∧ s.blk.pow.unlocked.contains 4 = true ∧ s.blk.dev.state = .boot ∧ s.blk.dev.warm = false) ∧
    (∃ s : State, pllThere 3 s = true ∧ s.blk.pow.unlocked.contains 3 = true ∧ odGet (start s) 0x2430 3 = 3 ∧
      ∀ q ∈ dieQuads (start s) (3 / 2), droopHolds (start s) q = false) ∧
    (∃ s : State, s.blk.time.beat % 500 = 0 ∧ s.blk.dev.state = .safe) ∧
    (∃ s : State, s.blk.time.beat % 500 = 0 ∧ s.blk.dev.state = .lull ∧ s.blk.pow.coolOn = false) ∧
    (∃ s : State, s.blk.time.beat % 500 = 0 ∧ s.blk.dev.state = .lull ∧ s.blk.pow.coolOn = true) ∧
    (∃ s : State, s.blk.time.beat % 500 = 0 ∧ s.blk.dev.state = .run ∧ s.blk.pow.coolOn = true ∧
      fld s.blk.dev.emergency 3 1 = 0 ∧ fIsNaN (adcValue (start s) 2) = false) ∧
    (∃ s : State, s.blk.pow.holdAt = some 0 ∧ 0 + 500 ≤ s.blk.time.beat) ∧
    (∃ s : State, s.blk.pow.hint = some { start := 12, stop := 13, quads := 2 ^ 63 } ∧ 12 ≤ s.blk.time.beat + 2 ∧ s.blk.time.beat < 13) ∧
    ∃ s : State, s.blk.pow.hint = some { start := 12, stop := 13, quads := 2 ^ 63 } ∧ 13 < s.blk.time.beat :=
  ⟨⟨at_ .run [(0x2511, 1, 1)], by decide +kernel⟩, ⟨andThen (at_ .run []) (fun b => { b with pow.unlocked := [] }), by decide +kernel⟩,
   ⟨at_ .boot [], by decide +kernel⟩, ⟨at_ .run [(0x2430, 3, 3)], by decide +kernel⟩, ⟨at_ .safe [], by decide +kernel⟩,
   ⟨at_ .lull [], by decide +kernel⟩,
   ⟨andThen (at_ .lull []) (fun b => { b with pow.coolOn := true }), by decide +kernel⟩,
   ⟨andThen (at_ .run [(0x2282, 0xA, 0x41A00000)]) (fun b => { b with pow.coolOn := true }), by decide +kernel⟩,
   ⟨andThen (at_ .run []) (fun b => { b with pow.holdAt := some 0, time.beat := 500 }), by decide +kernel⟩,
   ⟨andThen (at_ .run []) (fun b => { b with pow.hint := some { start := 12, stop := 13, quads := 2 ^ 63 }, time.beat := 10 }), by decide +kernel⟩,
   ⟨andThen (at_ .run []) (fun b => { b with pow.hint := some { start := 12, stop := 13, quads := 2 ^ 63 }, time.beat := 14 }), by decide +kernel⟩⟩

/-! ## Checking -/

/-- Quad 63 suspect, with its remedy so far. -/
def suspect (taken : Nat) (r : QuadRun) (l : List (Nat × Nat × Nat)) : State :=
  andThen (at_ .run ([(0x503F, 0xA0, 1), (0x503F, 0xA8, taken)] ++ l)) (fun b => { b with quads := [(63, r)] })

theorem freeQuad_next : nextRelease (atTime 0 (workOf freeQuad)).toBlk 63 = none := nextRelease_none _ _ placedOn_free
theorem farQuad_next : nextRelease (atTime 2048000 (workOf farQuad)).toBlk 63 = some (1088, 1000) := by
  unfold nextRelease
  rw [placedOn_far]
  decide +kernel

/-- Every quad with every item run. -/
def allTested : State :=
  andThen (at_ .run []) (fun b => { b with safe := { b.safe with cycles := 0, checkedAt := some 0 }, time.beat := 8192,
                                           quads := (List.range 64).map (fun q => (q, { QuadRun.idle with tested := List.range 29 })) })

/-- The checkers that lack an item at the cycle's end. -/
def lacking (s : State) : List Nat :=
  (List.range (quadCount s.blk.fuses)).flatMap (fun q =>
    (untested { start s with safe := { s.blk.safe with cycles := s.blk.time.beat / 8192 } } q).map (fun i => (testSource q i).1))

/-- A comparison of one interval of 1 m against guard output bins, with a margin of 0 and a limit of 1. -/
def compareState (outs : List GuardOut) : State :=
  andThen (at_ .run [(0x2510, 1, 1), (0x2330, 8, 10), (0x2330, 6, 1)]) (fun b =>
    { b with guard := { b.guard with compare := [(0, 0, 20, [100])], outs := outs } })
def outAt (bin : Nat) : GuardOut := { beat := 0, time := 10, bins := [bin] }

theorem witness_CheckCommands :
    (∃ s : State, 63 < quadCount s.blk.fuses ∧ (sliceOf (start s) (960 + 63)).live = true ∧ (sliceOf (start s) (960 + 63)).doneAt = none ∧
      (sliceOf (start s) (960 + 63)).stopped = none ∧ (sliceOf (start s) (960 + 63)).rel + 64 ≤ s.blk.time.beat) ∧
    (guardRuns (atTime 0 (workOf freeQuad)).toBlk = true ∧ resetting (atTime 0 (workOf freeQuad)).toBlk = false ∧
      quadGet (atTime 0 (workOf freeQuad)).toBlk 63 0xA0 = 0 ∧
      (quadRun (atTime 0 (workOf freeQuad)).toBlk 63).gated = false ∧ quadBusy (atTime 0 (workOf freeQuad)).toBlk 63 = false ∧
      stealing (atTime 0 (workOf freeQuad)).toBlk 63 = false ∧
      ∀ r n, nextRelease (atTime 0 (workOf freeQuad)).toBlk 63 = some (r, n) →
        moment 0 (workOf freeQuad) + 64000 / max 1 (clockOf (atTime 0 (workOf freeQuad)).toBlk 63) ≤ 2000 * r) ∧
    (∃ r n, nextRelease (atTime 2048000 (workOf farQuad)).toBlk 63 = some (r, n) ∧
      moment 2048000 (workOf farQuad) + 64000 / max 1 (clockOf (atTime 2048000 (workOf farQuad)).toBlk 63) ≤ 2000 * r) ∧
    (∃ s : State, quadGet (start s) 63 0xA0 = 1 ∧ resetting (start s) = false ∧ (quadRun (start s) 63).remedy = 1 ∧
      (quadGet (start s) 63 0xA8).testBit 0 = false ∧ quadGet (start s) 63 0x92 + 25 ≤ 825) ∧
    (∃ s : State, quadGet (start s) 63 0xA0 = 1 ∧ resetting (start s) = false ∧ (quadRun (start s) 63).remedy = 1 ∧
      (quadGet (start s) 63 0xA8).testBit 0 = true ∧ (quadGet (start s) 63 0xA8).testBit 1 = false ∧ 500 < clockOf (start s) 63) ∧
    (∃ s : State, quadGet (start s) 63 0xA0 = 1 ∧ resetting (start s) = false ∧ (quadRun (start s) 63).remedy = 1 ∧
      (quadGet (start s) 63 0xA8).testBit 0 = true ∧ (quadGet (start s) 63 0xA8).testBit 1 = true) ∧
    (∃ s : State, quadGet (start s) 63 0xA0 = 1 ∧ resetting (start s) = false ∧ (quadRun (start s) 63).remedy = 1 ∧
      825 < quadGet (start s) 63 0x92 + 25 ∧ clockOf (start s) 63 ≤ 500) ∧
    (∃ s : State, quadGet (start s) 63 0xA0 = 1 ∧ resetting (start s) = false ∧ (quadRun (start s) 63).remedy = 3 ∧
      clockOf (start s) 63 ≤ (quadRun (start s) 63).cap ∧ pairRuns (start s) 0 = true) ∧
    (∃ s : State, s.blk.safe.cycles < s.blk.time.beat / 8192 ∧ s.blk.safe.checkedAt.isSome = true ∧ guardRuns (start s) = true ∧
      (lacking s ++ [] ++ []).eraseDups = []) ∧
    (∃ s : State, s.blk.safe.cycles < s.blk.time.beat / 8192 ∧ s.blk.safe.checkedAt.isSome = true ∧ guardRuns (start s) = true ∧
      [511].all (fun m => decide (m < 512)) = true ∧ (lacking s ++ [511] ++ []).eraseDups ≠ []) ∧
    (∃ s : State, guardRuns (start s) = true) ∧
    (∃ s : State, s.blk.guard.compare = [(0, 0, 20, [100])] ∧ pairRuns (start s) 0 = true ∧ s.blk.guard.outs = []) ∧
    (∀ x ∈ [(100, 0), (0, 1)], (compareState [outAt x.1]).blk.guard.compare = [(0, 0, 20, [100])] ∧
      pairRuns (start (compareState [outAt x.1])) 0 = true ∧
      (compareState [outAt x.1]).blk.guard.outs.filter (fun o => decide (o.time ≤ 20) &&
        decide (20 ≤ o.time + odGet (start (compareState [outAt x.1])) 0x2330 8)) = [outAt x.1] ∧
      (((List.zip [100] (outAt x.1).bins).filter (fun p => p.2 != 20000)).filter
        (fun p => decide (p.2 + plausMargin (start (compareState [outAt x.1])) p.2 < p.1))).length = x.2 ∧
      odGet (start (compareState [outAt x.1])) 0x2330 6 = 1) ∧
    (∃ s : State, guardRuns (start s) = true ∧ s.blk.time.beat % max 1 (odGet (start s) 0x2300 9) = 0 ∧ s.blk.safe.wdgFrom < s.blk.time.beat ∧
      s.blk.safe.wdgBeat = false) ∧
    ∃ s : State, guardRuns (start s) = true ∧ s.blk.time.beat % max 1 (odGet (start s) 0x2300 9) = 0 ∧ s.blk.safe.wdgFrom < s.blk.time.beat ∧
      s.blk.safe.wdgJoined = true ∧ s.blk.safe.wdgBeat = true ∧ odGet (start s) 0x2510 1 = 1 :=
  ⟨⟨andThen (at_ .run []) (fun b => { b with slices := [(1023, { Slice.idle with live := true })], time.beat := 64 }), by decide +kernel⟩,
   ⟨by decide +kernel, by decide +kernel, by decide +kernel, by decide +kernel, by decide +kernel, by decide +kernel,
    fun r n h => by rw [freeQuad_next] at h; cases h⟩,
   ⟨1088, 1000, farQuad_next, by decide +kernel⟩,
   ⟨suspect 0 { QuadRun.idle with remedy := 1 } [(0x503F, 0x92, 800)], by decide +kernel⟩,
   ⟨suspect 1 { QuadRun.idle with remedy := 1 } [(0x503F, 0x91, 800)], by decide +kernel⟩,
   ⟨suspect 3 { QuadRun.idle with remedy := 1 } [], by decide +kernel⟩,
   ⟨suspect 0 { QuadRun.idle with remedy := 1 } [(0x503F, 0x92, 825), (0x503F, 0x91, 500)], by decide +kernel⟩,
   ⟨suspect 3 { QuadRun.idle with remedy := 3 } [(0x503F, 0x91, 500), (0x2510, 1, 1)], by decide +kernel⟩,
   ⟨allTested, by decide +kernel⟩, ⟨{ allTested with blk := { allTested.blk with quads := [] } }, by decide +kernel⟩, ⟨at_ .config [], by decide +kernel⟩,
   ⟨compareState [], by decide +kernel⟩, by decide +kernel,
   ⟨andThen (at_ .run [(0x2300, 9, 5)]) (fun b => { b with time.beat := 5, safe := { b.safe with wdgFrom := 0, wdgBeat := false } }),
    by decide +kernel⟩,
   ⟨andThen (at_ .run [(0x2510, 1, 1), (0x2300, 9, 5)]) (fun b =>
      { b with time.beat := 5, safe := { b.safe with wdgFrom := 0, wdgJoined := true, wdgBeat := true } }), by decide +kernel⟩⟩

/-! ## Faults and the compute-part reset -/

theorem witness_FaultCommands :
    (∀ kind ∈ [0, 6, 7], fld (fields [(60, 1), (51, 0x01A), (47, kind)]) 50 47 = kind ∧
      fld (fields [(60, 1), (51, 0x01A), (47, kind)]) 63 60 = 1 ∧
      faultListed (fld (fields [(60, 1), (51, 0x01A), (47, kind)]) 59 51) = true) ∧
    7 < fld (fields [(47, 8)]) 50 47 ∧
    (∃ s : State, 255 < engineCount s.blk.fuses ∧ (sliceOf (start s) 5).unacked.contains 255 = true ∧
      (sliceOf (start s) 5).stopped.getD (sliceOf (start s) 5).rel < s.blk.time.beat) ∧
    ∃ s : State, 255 < engineCount s.blk.fuses ∧ slotIx (start s) 255 5 = some 0 ∧
      (slotOf (engineOf (start s) 255) 0).progress + odGet (start s) 0x2420 1 ≤ s.blk.time.beat :=
  ⟨by decide +kernel, by decide +kernel,
   ⟨andThen (at_ .run []) (fun b => { b with slices := [(5, { Slice.idle with unacked := [255], stopped := some 3 })], time.beat := 4 }),
    by decide +kernel⟩,
   ⟨onEngine 0 0 id [(0x2420, 1, 1024)] id, by decide +kernel⟩⟩

theorem witness_ComputeResetCommands :
    (∃ s : State, s.blk.coll.resetBy = some 0 ∧ resetting (start s) = false ∧ s.blk.dev.state = .config) ∧
    (∃ s : State, odGet (start s) 0x2430 3 = 1 ∧ odGet (start s) 0x2430 7 + 1 ≤ s.blk.time.beat ∧ pairRuns (start s) 0 = true) ∧
    (∃ s : State, odGet (start s) 0x2430 3 = 1 ∧ odGet (start s) 0x2430 7 + 1 ≤ s.blk.time.beat ∧ pairRuns (start s) 0 = false) ∧
    (∃ s : State, odGet (start s) 0x2430 3 = 2 ∧ odGet (start s) 0x2430 7 + 1 ≤ s.blk.time.beat) ∧
    (∃ s : State, s.blk.rst.asserted = some 0 ∧ odGet (start s) 0x2430 3 = 3 ∧ 0 + 25 ≤ s.blk.time.beat ∧ pairRuns (start s) 0 = true ∧
      s.blk.pow.unlocked = []) ∧
    ∃ s : State, s.blk.rst.tested = some 40 ∧ odGet (start s) 0x2430 3 = 4 ∧ 40 ≤ s.blk.time.beat ∧ pairRuns (start s) 0 = true :=
  ⟨⟨andThen (at_ .config []) (fun b => { b with coll.resetBy := some 0 }), by decide +kernel⟩,
   ⟨andThen (at_ .run [(0x2430, 3, 1), (0x2510, 1, 1)]) (fun b => { b with time.beat := 1 }), by decide +kernel⟩,
   ⟨andThen (at_ .run [(0x2430, 3, 1)]) (fun b => { b with time.beat := 1 }), by decide +kernel⟩,
   ⟨andThen (at_ .run [(0x2430, 3, 2)]) (fun b => { b with time.beat := 1 }), by decide +kernel⟩,
   ⟨andThen (at_ .run [(0x2430, 3, 3), (0x2510, 1, 1)]) (fun b =>
      { b with time.beat := 25, rst := { b.rst with asserted := some 0 }, pow.unlocked := [] }), by decide +kernel⟩,
   ⟨andThen (at_ .run [(0x2430, 3, 4), (0x2510, 1, 1)]) (fun b => { b with time.beat := 40, rst := { b.rst with tested := some 40 } }),
    by decide +kernel⟩⟩

/-! ## The cascade -/

/-- Member m of a cascade of four, formed. -/
def member (d : DevState) (m : Nat) (f : Cascade → Cascade) (l : List (Nat × Nat × Nat)) : State :=
  andThen (at_ d ([(0x2700, 2, 12 + m), (0x2700, 3, 4), (0x2700, 4, 2)] ++ l))
    (fun b => { b with casc := f b.casc, time.beat := 1000, time.ns := 2000000 })

/-- Every port's peer as its TRAIN flit shows it, for member m. -/
def peers (m : Nat) (c : Cascade) : Cascade :=
  { c with ports := (List.range 3).map (fun p =>
      { CascPort.idle with peer := some { straps := 12 + (m + p + 1) % 4, serial := 1, low := 1, high := 1, delay := 0 } }) }

theorem witness_TrainingCommands :
    (∃ s : State, s.blk.dev.state = .config ∧ Instr.wf (.trainFlit 2 15 1 1 1 0) = true ∧ s.blk.casc.trainFrom.isSome = true ∧
      connected (start s) 2 = true) ∧
    (∀ m ∈ [0, 3], ∃ s : State, s.blk.dev.state = .config ∧ s.blk.casc.trainFrom.isSome = true ∧ s.blk.time.beat + 16 ≤ 1016 ∧ casMe (start s) = m ∧
      ∀ p < 3, connected (start s) p = true → (portOf (start s) p).peer.isSome = true ∧ peerGood (start s) p = true) ∧
    (∃ (s : State) (p : Nat), s.blk.dev.state = .config ∧ s.blk.casc.trainFrom.isSome = true ∧ s.blk.time.beat + 16 ≤ 1016 ∧ casMe (start s) = 0 ∧
      (∀ p < 3, connected (start s) p = true → (portOf (start s) p).peer.isSome = true) ∧
      ((List.range 3).filter (connected (start s))).find? (fun p => !peerGood (start s) p) = some p) ∧
    (∃ s : State, s.blk.dev.state = .config ∧ s.blk.casc.formAt = some (1000, 5000) ∧ 1000 ≤ s.blk.time.beat) ∧
    ∃ s : State, s.blk.dev.state = .config ∧ s.blk.casc.trainFrom = some 0 ∧ 0 + 20000 ≤ s.blk.time.beat := by
  refine ⟨⟨member .config 0 (fun c => { c with trainFrom := some 0 }) [], by decide +kernel⟩,
    fun m hm => ⟨member .config m (fun c => { peers m c with trainFrom := some 0 }) [], ?_⟩,
    ⟨member .config 0 (fun c => { peers 1 c with trainFrom := some 0 }) [], 0, by decide +kernel⟩,
    ⟨member .config 3 (fun c => { c with formAt := some (1000, 5000) }) [], by decide +kernel⟩,
    ⟨andThen (member .config 3 (fun c => { c with trainFrom := some 0 }) []) (fun b => { b with time.beat := 20000 }), by decide +kernel⟩⟩
  revert m
  decide +kernel

/-- A control flit of the given beat. -/
def controlFlit (beat : Nat) : List Byte := leBytes 16 1 ++ leBytes 8 beat ++ List.replicate 232 0

/-- What a control flit of beat b on port p leaves before the master's fields are taken. -/
def heardFrom (s : State) (p b : Nat) : Blk :=
  let j := peerOf (start s) p
  let w := modPartner j (fun x => { x with heard := (ackTake p 0 (workOf s)).time.beat }) (ackTake p 0 (workOf s))
  (heldTake j false b (stretchTake j 0 b w)).toBlk

theorem witness_FlitCommands :
    ((controlFlit 1000).length = 256 ∧ leAt (controlFlit 1000) 0 1 = 1 ∧ leAt (List.replicate 256 (0 : Byte)) 0 1 ≠ 1) ∧
    (∃ s : State, formed (start s) = true ∧ connected (start s) 2 = true ∧ peerOf (start s) 2 ≠ 0 ∧
      (partnerAt (start s) (peerOf (start s) 2)).lost = false) ∧
    (∃ s : State, formed (start s) = true ∧ connected (start s) 2 = true ∧ (partnerAt (start s) (peerOf (start s) 2)).lost = true) ∧
    (∀ beat ∈ [1000, 1001], ∃ s : State, formed (start s) = true ∧ connected (start s) 0 = true ∧ peerOf (start s) 0 = 0 ∧
      (partnerAt (start s) (peerOf (start s) 0)).lost = false ∧ leAt (controlFlit beat) 16 8 = beat ∧ (heardFrom s 0 beat).time.beat = 1000) ∧
    (∃ s : State, formed (start s) = true ∧ connected (start s) 2 = true ∧ (partnerAt (start s) (peerOf (start s) 2)).lost = false ∧
      0 = ((portOf (start s) 2).ack + 1) % 65536 ∧ casMe (ackTake 2 0 (modPort 2 (fun c => { c with ack := 0 }) (workOf s))).toBlk = 0 ∧
      Instr.wf (.recordFlit 2 0 65535 31 3 0 (List.replicate 256 1) true) = true) ∧
    ∃ s : State, formed (start s) = true ∧ connected (start s) 0 = true ∧ (partnerAt (start s) (peerOf (start s) 0)).lost = false ∧
      casMe (ackTake 0 0 (modPort 0 (fun c => { c with ack := 0 }) (workOf s))).toBlk ≠ 0 := by
  refine ⟨by decide +kernel, ⟨member .run 0 id [], by decide +kernel⟩,
    ⟨member .run 0 (fun c => { c with partners := List.replicate 4 { Partner.idle with lost := true } }) [], by decide +kernel⟩,
    fun beat hb => ⟨member .run 3 id [], ?_⟩, ⟨member .run 0 id [], by decide +kernel⟩, ⟨member .run 3 id [], by decide +kernel⟩⟩
  revert beat; decide +kernel

/-- Context 5 of collective 31 on quad 63 of the master, whose clock has a step to take. -/
def jobState : State :=
  placed 5 [(0x2700, 2, 12), (0x2700, 3, 4), (0x2700, 4, 2), (0x273F, 2, 1), (0x273F, 3, 15), (0x273F, 6, 5), (0x503F, 0x91, 2000)]

theorem wantClock_le_cap (b : Blk) (q : Nat) : wantClock b q ≤ (quadRun b q).cap := by
  unfold wantClock
  split <;> exact Nat.min_le_left _ _

theorem jobState_steps :
    (List.range (quadCount jobState.blk.fuses)).any (fun q =>
      carriesJob (start jobState) q && clockOf (start jobState) q != wantClock (start jobState) q) = true := by
  rw [List.any_eq_true]
  refine ⟨63, by decide +kernel, ?_⟩
  have ha : admitted (start jobState) = [5] := by
    rw [admitted_one _ 5 (by decide +kernel) (by decide) (by decide +kernel) (by decide +kernel)]; decide +kernel
  have hc : carriesJob (start jobState) 63 = true := by
    unfold carriesJob
    rw [ha]
    decide +kernel
  have h0 : clockOf (start jobState) 63 = 2000 := by decide +kernel
  have h1 : (quadRun (start jobState) 63).cap < 2000 := by decide +kernel
  have h2 := wantClock_le_cap (start jobState) 63
  rw [hc, h0, Bool.true_and, bne_iff_ne]
  omega

theorem witness_CascadeCommands :
    (∃ s : State, formed (start s) = true ∧ s.blk.casc.request = some (2, 1000, false) ∧ 1000 ≤ s.blk.time.beat ∧ casMe (start s) ≠ 0) ∧
    (∃ s : State, formed (start s) = true ∧ s.blk.casc.request = some (7, 1001, true) ∧ casMe (start s) = 0 ∧ 1001 = s.blk.time.beat + 1 ∧
      allows (start s) 7 = true ∧
      ∀ p < 3, connected (start s) p = false ∨ (partnerAt (start s) (peerOf (start s) p)).lost = true ∨
        (partnerAt (start s) (peerOf (start s) p)).flags.testBit 3 = true) ∧
    (∃ s : State, formed (start s) = true ∧ s.blk.casc.request = some (7, 1001, true) ∧ casMe (start s) = 0 ∧ 1001 = s.blk.time.beat + 1 ∧
      ∃ p < 3, ¬ (connected (start s) p = false ∨ (partnerAt (start s) (peerOf (start s) p)).lost = true ∨
        (partnerAt (start s) (peerOf (start s) p)).flags.testBit 3 = true)) ∧
    (Instr.wf (.arrivalSetComplete 31 []) = true ∧ formed (start jobState) = true ∧ activeState (start jobState) = true ∧
      collReceives (start jobState) 31 = true ∧ collGet (start jobState) 31 6 < 1024 ∧
      ctxGet (start jobState) (collGet (start jobState) 31 6) 0x0B = 2 ∧
      jobState.blk.time.beat % max 1 (ctxGet (start jobState) (collGet (start jobState) 31 6) 3) =
        ctxGet (start jobState) (collGet (start jobState) 31 6) 0x0F % max 1 (ctxGet (start jobState) (collGet (start jobState) 31 6) 3) ∧
      (if collGet (start jobState) 31 2 = 2 then 3 else 2) ≤ jobState.blk.time.beat ∧ jobState.blk.casc.done = []) ∧
    (List.range (quadCount jobState.blk.fuses)).any (fun q =>
      carriesJob (start jobState) q && clockOf (start jobState) q != wantClock (start jobState) q) = true ∧
    (∃ s : State, formed (start s) = true ∧ (3 : Nat) ≠ casMe (start s) ∧ 3 < casSize (start s) ∧ (partnerAt (start s) 3).lost = false ∧
      (partnerAt (start s) 3).leave.isSome = true) ∧
    (∃ s : State, formed (start s) = true ∧ (0 : Nat) ≠ casMe (start s) ∧ (partnerAt (start s) 0).lost = false ∧
      (partnerAt (start s) 0).heard + 4 ≤ s.blk.time.beat) ∧
    ∃ s : State, formed (start s) = true ∧ casMe (start s) = 0 :=
  ⟨⟨member .run 3 (fun c => { c with request := some (2, 1000, false) }) [], by decide +kernel⟩,
   ⟨member .config 0 (fun c => { c with request := some (7, 1001, true), partners := List.replicate 4 { Partner.idle with flags := 8 } }) [],
    by decide +kernel⟩,
   ⟨member .config 0 (fun c => { c with request := some (7, 1001, true) }) [], by decide +kernel⟩,
   by decide +kernel, jobState_steps,
   ⟨member .run 0 (fun c => { c with partners := List.replicate 4 { Partner.idle with leave := some 2 } }) [], by decide +kernel⟩,
   ⟨member .run 3 id [], by decide +kernel⟩, ⟨member .run 0 id [], by decide +kernel⟩⟩

/-! ## The test access port -/

theorem witness_TestPortCommands : (st id).blk.dev.state = .porst ∧ (st id).blk.dev.noRefclk = false ∧ (at_ .run []).blk.dev.state ≠ .porst := by
  decide +kernel

/-! ## The block as a whole -/

theorem witness_CommandOutcome :
    Instr.wf (.porstNRelease 128 0) = false ∧
    (∃ s : State, Instr.wf (.readTraining { chan := 96, silent := false }) = true ∧
      unitThere (.readTraining { chan := 96, silent := false }) s = false) ∧
    Accepted (.readTraining { chan := 191, silent := false }) (st id) :=
  ⟨by decide +kernel, ⟨st (fun b => { b with fuses.grade := .skh2128 }), by decide +kernel⟩, by decide +kernel⟩

theorem witness_MemoryStaysCanonical : ∃ s t : State, Inv s ∧ s.mem ≠ [] ∧ step s = .next t :=
  ⟨{ poolState with mem := [(64, 1)] }, { poolState with mem := [(64, 1)] }, by decide +kernel, by decide +kernel, rfl⟩

theorem witness_StateTransitions :
    ∃ t : State, exec (.porstNRelease 5 0) State.reset = .next t ∧ t.blk.dev.state ≠ State.reset.blk.dev.state :=
  ⟨_, rfl, by decide +kernel⟩

theorem witness_CommandReadsItsStores : ∃ (s : State) (w : Work), w.mem = s.mem ∧ w.wr ≠ [] :=
  ⟨poolState, put 64 [1, 2] (workOf poolState), rfl, by decide⟩

theorem witness_SeverityReactions :
    (workOf (at_ .squall [])).dev.state = .squall ∧ resetting (workOf (at_ .squall [])).toBlk = false ∧
    (workOf (at_ .squall [])).coll.resetBy = none ∧ (workOf (at_ .squall [])).dev.escalate = none ∧
    (workOf (at_ .squall [])).dev.state ≠ .safe := by decide +kernel

theorem witness_CascadeStraps :
    Instr.wf (.porstNRelease 127 14) = true ∧ (st id).blk.dev.state = .porst ∧ ¬ ((14 / 4 = 0 ∧ 14 % 4 ≠ 0) ∨ 14 / 4 < 14 % 4) ∧
    ((3 / 4 = 0 ∧ 3 % 4 ≠ 0) ∨ 3 / 4 < 3 % 4) ∧ ((6 / 4 = 0 ∧ 6 % 4 ≠ 0) ∨ 6 / 4 < 6 % 4) := by decide +kernel

theorem witness_TimeCommandsFrame : ∃ s t : State, s.mem ≠ [] ∧ exec (.gptpAnnounce 3) s = .next t :=
  ⟨{ poolState with mem := [(64, 1)] }, _, by decide, rfl⟩

theorem witness_PortAndSlotFrames :
    (∃ t : State, exec (.jtagPreload 1) (at_ .run []) = .next t) ∧ ∃ t : State, exec (.barrierRelease 8191) (at_ .run []) = .next t :=
  ⟨⟨_, rfl⟩, ⟨_, rfl⟩⟩

theorem witness_ReservedAndTestKinds :
    7 < fld (fields [(47, 8)]) 50 47 ∧ fld (fields [(60, 1), (51, 0x01A), (47, 7)]) 50 47 = 7 ∧
    fld (fields [(60, 1), (51, 0x01A), (47, 7)]) 63 60 = 1 ∧ faultListed (fld (fields [(60, 1), (51, 0x01A), (47, 7)]) 59 51) = true := by
  decide +kernel

theorem witness_IdleAndWords : State.reset.pending = [] := rfl

/-! ## The spec's own numbers -/

/-- 09 R212. -/
theorem test_crc32c : crc32c [0x31, 0x32, 0x33, 0x34, 0x35, 0x36, 0x37, 0x38, 0x39] = 0xE3069283 := by decide +kernel

/-- 07 R176. -/
theorem test_checkByte : checkByte 1 = 0x83 := by decide +kernel

/-- 07 R177: the check byte's own bit 0 in error, and two data bits. -/
theorem test_readWord : readWord 5 (2 ^ 64) = (5, 1) ∧ (readWord 5 3).2 = 2 := by decide +kernel

/-- 03 R60: a pass of K = 32 in one set takes 32 + 32 + 64 cycles. -/
theorem test_passLength : pLength (passDesc 0 []) = 128 := by decide +kernel

/-- FP32, to nearest, ties to even: 1 + 2^-24 is 1, 1 + 3 * 2^-24 is 1 + 2^-22; the sum of the greatest numbers is infinity. -/
theorem test_fAdd : fAdd 0x3F800000 0x33800000 = 0x3F800000 ∧ fAdd 0x3F800000 0x34400000 = 0x3F800002 ∧
    fAdd 0x7F7FFFFF 0x7F7FFFFF = 0x7F800000 := by decide +kernel

/-! ## Single commands -/

/-- The block after a command. -/
def after (c : Instr) (s : State) : State := match exec c s with | .next t => t | _ => s

/-- 01 R21, 18 R467: the release of PORST_N samples NODE_ID. -/
theorem test_porstNRelease : (after (.porstNRelease 5 0) State.reset).blk.dev.nodeId = 5 := by decide +kernel

/-- 04 R96: a WAIT of 2 at a count of 5 leaves 3. -/
theorem test_waitReturn :
    ((syncOf (after (.waitReturn 255 5) (waitingSlot (.sem 8191 2)
      (withSync (syncObj .semaphore 5 [{ engine := 255, ctx := 5, amount := 2 }])))).blk 8191).map (·.count)) = some 3 := by decide +kernel

/-- 04 R84: a LOOP of 4,095 repetitions leaves 4,094 after the first. -/
theorem test_loop :
    ((nth none (slotOf (engineOf (after (.loop 255) (coded (instr 7 [(24, 3), (12, 4095), (0, 4095)]))).blk 255) 0).loops 3).map (·.left)) =
      some 4094 := by decide +kernel

/-- 07 R175: a MEM_WRITE lays its bytes down in order. -/
theorem test_memWrite :
    memByte (after (.memWrite frame (leBytes 8 64 ++ leBytes 64 0x0201)) poolState).mem 65 = 2 ∧
    memByte (after (.memWrite frame (leBytes 8 64 ++ leBytes 64 0x0201)) poolState).mem 64 = 1 := by decide +kernel

/-- 11 R283: a level that holds for fewer samples than the filter is a glitch. -/
theorem test_glitch : odGet (after (.inputChangeAccepted 19 true 0 9) (inputState 19 [] Input.idle)).blk 0x2153 0x12 = 1 := by decide +kernel

/-- 16 R408: a test message of source 0x01A counts in its entry. -/
theorem test_testMessage :
    fld (odGet (after (.faultMessage (fields [(60, 1), (51, 0x01A), (47, 7)]) 0 0 false) (at_ .run [])).blk 0x2401 5)
      (32 * 0x01A + 31) (32 * 0x01A) = 1 := by decide +kernel

/-- 18 R468: BYPASS captures 0. -/
theorem test_bypass : (after .jtagBypass (at_ .run [])).blk.tap.bypass = false := by decide +kernel

/-! ## Operands outside their encodings -/

/-- The header of a short packet on a virtual channel. -/
def channel (vc : Nat) : ShortHead := { vc, fixed := false, bad := false }

/-- A frame header whose link is none of the two. -/
def badFrame : Hdr := { frame with link := 2 }

theorem test_wf_refuses_frames :
    [{ frame with link := 2 }, { frame with port := 5 }, { frame with peer := [] }, { frame with version := 256 },
     { frame with flags := 256 }, { frame with reserved := 2 ^ 24 }, { frame with tag := 2 ^ 32 },
     { frame with offset := 2 ^ 32 }].all (fun h : Hdr => !h.wf) = true := by decide +kernel

theorem test_wf_refuses_services :
    [UsdoReq.read 65536 0, .read 0 256, .write 65536 0 [], .write 0 256 [], .start 65536 0 0, .start 0 256 0,
     .start 0 0 (2 ^ 32)].all (fun q => !q.wf) = true := by decide +kernel

/-- Data and payloads beyond their greatest length; every one of them is refused, whatever its bytes. -/
theorem test_wf_refuses_long (m : List Byte) (last : Bool) (h : 2 ^ 31 < m.length) :
    UsdoReq.wf (.write 0 0 m) = false ∧ UsdoReq.wf (.segment last m) = false ∧ Instr.wf (.weightWriteBack 0 m) = false ∧
    Instr.wf (.loadFirmware frame m) = false ∧ Instr.wf (.loadProgramImage frame m) = false ∧
    Instr.wf (.loadWeights frame m) = false ∧ Instr.wf (.attestRequest frame m) = false := by
  have h1 : ¬ m.length ≤ 2 ^ 31 := by omega
  have h2 : ¬ m.length ≤ 2 ^ 16 := by omega
  have hw : (decide (0 < 2 ^ 16) && decide (0 < 256) && decide (m.length ≤ 2 ^ 16)) = false := by rw [decide_eq_false h2, Bool.and_false]
  have hn : (decide (0 < 1024) && decide (m.length ≤ 2 ^ 31)) = false := by rw [decide_eq_false h1, Bool.and_false]
  have hf : (frame.wf && decide (m.length ≤ 2 ^ 31)) = false := by rw [decide_eq_false h1, Bool.and_false]
  exact ⟨hw, decide_eq_false h2, hn, hf, hf, hf, hf⟩

theorem test_wf_refuses_lists :
    ([.garnetPlanWrite 0 [(0, 64)], .diagnosticCycleEnd [(8192, 0)] [], .diagnosticCycleEnd [(0, 512)] [], .diagnosticCycleEnd [] [512],
      .startupChecks [(16, 0, false)], .startupChecks [(0, 4096, false)], .computeResetRelease [] 41, .computeResetRelease [(64, 0)] 0,
      .computeResetRelease [(0, 2 ^ 32)] 0, .arrivalSetComplete 32 [], .arrivalSetComplete 0 [(4, 0)],
      .arrivalSetComplete 0 [(0, 64)]] : List Instr).all (fun i => !i.wf) = true := by decide +kernel

theorem test_wf_refuses_1 :
    ([.porstNRelease 128 0, .porstNRelease 0 16, .usbEnumerate 4,
      .weightWriteBack 1024 [], .sliceRelease { ctx := 1024, maps := [] }, .sliceRelease { ctx := 0, maps := [(32, 0)] },
      .sliceResponseEnd { ctx := 1024, maps := [] }, .sliceResponseEnd { ctx := 0, maps := [(0, 2 ^ 42)] },
      .beatBoundary { pins := true, payloads := [(64, 0)], maps := [] }, .beatBoundary { pins := true, payloads := [(0, 2 ^ 24)], maps := [] },
      .deadlineMissed 1024, .admitRequest 1024, .withdrawRequest 1024,
      .admissionDecision 7 [] false, .admissionDecision 2501 [] false, .withdrawalEffect 1024,
      .admissionRecompute 2501, .gust 64 0 false, .gust 0 (2 ^ 64) false,
      .quadClockGate 64 0, .quadClockGate 0 (2 ^ 64), .passPlain 256] : List Instr).all (fun i => !i.wf) = true := by
  decide +kernel

theorem test_wf_refuses_2 :
    ([.passDiagonal 256, .passTransposed 256, .passAveragePool 256,
      .passMaxPool 256, .passStart 256 false none [], .passStart 0 false none [256], .passComplete 256 false .clean,
      .passComplete 0 false (.acc 1024 1), .passComplete 0 false (.word 0x120000), .passRerun 256 false none [], .passq 256,
      .tileTake 256 0, .tileTake 0 64, .nop 256,
      .endOp 256, .sliceEnd 256 0, .sliceEnd 0 1024,
      .setdp 256, .vchain 256, .dmaCopy 256 none [], .dmaCopy 0 none [256]] : List Instr).all (fun i => !i.wf) = true := by
  decide +kernel

theorem test_wf_refuses_3 :
    ([.dmaBroadcast 256 none [], .dmaFill 256, .dmaComplete 256 0,
      .lbHeldWriteResume 256 0, .loop 256, .wait 256,
      .waitReturn 256 0, .waitReturn 0 1024, .signal 256,
      .barrier 256, .barrierRelease 8192, .fence 256,
      .fenceReturn 256 0, .fenceReturn 0 1024, .brs 256,
      .mark 256, .reservedOpcode 256, .chainStart 256] : List Instr).all (fun i => !i.wf) = true := by
  decide +kernel

theorem test_wf_refuses_4 :
    ([.chainComplete 256 none [], .chainComplete 0 none [256], .loadFirmware badFrame [], .loadProgramImage badFrame [],
      .loadWeights badFrame [], .readRun 192 0 1 0 0 { low := false, silent := false } [], .readRun 0 2097152 1 0 0 { low := false, silent := false } [],
      .readRun 0 0 0 0 0 { low := false, silent := false } [], .readRun 0 1 16 0 0 { low := false, silent := false } [], .readRun 0 0 1 2000 0 { low := false, silent := false } [],
      .readRun 0 0 1 0 65536 { low := false, silent := false } [], .writeRun 192 0 0 0 { low := false, silent := false } (List.replicate 64 0), .writeRun 0 2097152 0 0 { low := false, silent := false } (List.replicate 64 0),
      .writeRun 0 0 0 0 { low := false, silent := false } (List.replicate 0 0), .writeRun 0 0 0 0 { low := false, silent := false } (List.replicate 65 0), .writeRun 0 15 0 0 { low := false, silent := false } (List.replicate 128 0),
      .writeRun 0 0 2000 0 { low := false, silent := false } (List.replicate 64 0), .writeRun 0 0 0 65536 { low := false, silent := false } (List.replicate 64 0), .readTraining { chan := 192, silent := false }] : List Instr).all (fun i => !i.wf) = true := by
  decide +kernel

theorem test_wf_refuses_5 :
    ([.setRefresh 192 { rate := 1, clock := 0 }, .setRefresh 0 { rate := 0, clock := 0 }, .setRefresh 0 { rate := 3, clock := 0 },
      .setRefresh 0 { rate := 1, clock := 1800 },
      .readStatus { chan := 192, silent := false }, .refreshTick 192, .refreshRateSwitch 192,
      .backgroundSlot 192 { agrees := true, silent := false, queued := false } 0 [], .scrubStarved 192, .memRead badFrame [] none,
      .memWrite badFrame [], .walkPhase1 32 false none, .walkPhase2 32 false none,
      .massRead 32, .pair4ListBuild { slot := 32, ue := none }, .csi2LongPacket 16 0 0 0 false false false clean [],
      .csi2LongPacket 0 16 0 0 false false false clean [], .csi2LongPacket 0 0 64 0 false false false clean [], .csi2FrameStart 16 (channel 0) 0] : List Instr).all (fun i => !i.wf) = true := by
  decide +kernel

theorem test_wf_refuses_6 :
    ([.csi2FrameStart 0 (channel 16) 0, .csi2FrameEnd 16 (channel 0) 0, .csi2FrameEnd 0 (channel 16) 0,
      .csi2LineShortPacket 16 (channel 0), .csi2LineShortPacket 0 (channel 16),
      .ethernetFrameReceived 4 0 0 { fcs := true, met := clean } [],
      .jxsDecodeStart 15 0 header0, .jxsDecodeStart 32 0 header0, .jxsDecodeComplete 15 0 8 clean [],
      .jxsDecodeComplete 32 0 8 clean [], .jxsDecodeComplete 16 0 7 clean [], .jxsDecodeComplete 16 0 13 clean [],
      .jxsDecodeBudgetExpired 15 0 0, .jxsDecodeBudgetExpired 32 0 0, .jxsDecodeBudgetExpired 16 0 (2 ^ 24),
      .sensorSilent 32 0, .positionDeadline 32 0, .replayRecord badFrame { time := 0, met := clean } []] : List Instr).all (fun i => !i.wf) = true := by
  decide +kernel

theorem test_wf_refuses_7 :
    ([.gptpSync 5 0 0 0, .gptpSync 0 256 0 0, .gptpSync 0 0 65536 0,
      .gptpFollowUp 5 0 0 0 0, .gptpFollowUp 0 256 0 0 0, .gptpFollowUp 0 0 65536 0 0,
      .gptpPdelay 5 0 0 0 0, .gptpAnnounce 5, .gptpSyncSend 5 0,
      .triggerStart 33, .triggerSchedule 33, .triggerEdge 32,
      .triggerPulseEnd 33 0, .inputChangeAccepted 20 false 0 0, .inputChangeAccepted 0 false 0 256,
      .minIntervalExpire 20 0, .inputStuck 20 0, .capFifoPop 20 frame] : List Instr).all (fun i => !i.wf) = true := by
  decide +kernel

theorem test_wf_refuses_8 :
    ([.capFifoPop 0 badFrame, .adcConversion 8 0, .adcConversion 0 4096,
      .pwmPeriod 2, .odRead badFrame [], .odWrite badFrame [],
      .commit badFrame, .stageDiscard badFrame, .commitApply 4,
      .usdoRequest 2 0 .invalid, .usdoRequest 0 128 .invalid, .usdoRequest 0 0 ((.read 65536 0)),
      .usdoTimeout 2 0, .nmtCommand 2, .heartbeat 2 0,
      .canBusOff 2, .canBusOffRecovery 2, .hello badFrame []] : List Instr).all (fun i => !i.wf) = true := by
  decide +kernel

theorem test_wf_refuses_9 :
    ([.keepalive badFrame, .unknownFrameType 0 badFrame, .unknownFrameType 256 frame,
      .crinoFrameCrcFail badFrame, .regRead badFrame [], .regWrite badFrame [],
      .hostKeepalive badFrame 0, .hostKeepalive frame (2 ^ 32), .irqStatusClear badFrame 0,
      .irqStatusClear frame (2 ^ 32), .ringDoorbell badFrame 0 0, .ringDoorbell frame 4 0,
      .ringDoorbell frame 0 (2 ^ 32), .hostSilent 2 0, .hostSilent 0 (2 ^ 64),
      .arpRequest 5 (List.replicate 4 0), .arpRequest 0 (List.replicate 3 0), .neighbourSolicitation 5 (List.replicate 16 0)] : List Instr).all (fun i => !i.wf) = true := by
  decide +kernel

theorem test_wf_refuses_10 :
    ([.neighbourSolicitation 0 (List.replicate 15 0), .ethLinkChange 5 false, .attestRequest badFrame [],
      .logPop badFrame, .logDrainTransfer 0, .comparatorMismatch 6,
      .pairRestart 6 1 0 false false, .pairRestart 0 0 0 false false, .pairRestart 0 7 0 false false,
      .pairRestart 0 1 (2 ^ 64) false false, .pairHeartbeat 6, .heartbeatMissed 6,
      .pairSplit 1, .pairSplit 6, .pairRejoin 1,
      .pairRejoin 6, .debugHalt 6, .debugAccess 6 false] : List Instr).all (fun i => !i.wf) = true := by
  decide +kernel

theorem test_wf_refuses_11 :
    ([.powerEstimate (2 ^ 32) [], .fwLevelWrite 11, .clockStep 64,
      .droopDetect 64 0, .droopDetect 0 65536, .droopClear 64,
      .pllLockLost 5, .pllRelock 5, .garnetWindowExpire 64,
      .testStep 64 0 0 false, .testStep 0 29 0 false, .testStep 0 0 (2 ^ 64) false,
      .guardPathMismatch 2, .suspectRemedy 64, .retest 64 0 false,
      .retest 0 41 false, .faultMessage (2 ^ 64) 0 0 false, .faultMessage 0 (2 ^ 16) 0 false] : List Instr).all (fun i => !i.wf) = true := by
  decide +kernel

theorem test_wf_refuses_12 :
    ([.faultMessage 0 0 (2 ^ 64) false, .faultAck badFrame, .feRelease badFrame,
      .stopAckTimeout 256 0 0, .stopAckTimeout 0 1024 0, .stopAckTimeout 0 0 (2 ^ 32),
      .progressStalled 256 0, .progressStalled 0 1024, .trainFlit 3 0 0 0 0 0,
      .trainFlit 0 16 0 0 0 0, .trainFlit 0 0 (2 ^ 32) 0 0 0, .trainFlit 0 0 0 256 0 0,
      .trainFlit 0 0 0 0 256 0, .trainFlit 0 0 0 0 0 (2 ^ 16), .form (2 ^ 64) 0,
      .form 0 (2 ^ 64), .trainingTimeout 0, .trainingTimeout 5] : List Instr).all (fun i => !i.wf) = true := by
  decide +kernel

theorem test_wf_refuses_13 :
    ([.controlFlitReceived 3 0 (List.replicate 256 0) false, .controlFlitReceived 0 (2 ^ 16) (List.replicate 256 0) false, .controlFlitReceived 0 0 (List.replicate 255 0) false,
      .recordFlit 3 0 0 0 0 0 (List.replicate 256 0) false, .recordFlit 0 (2 ^ 16) 0 0 0 0 (List.replicate 256 0) false, .recordFlit 0 0 (2 ^ 16) 0 0 0 (List.replicate 256 0) false,
      .recordFlit 0 0 0 64 0 0 (List.replicate 256 0) false, .recordFlit 0 0 0 0 256 0 (List.replicate 256 0) false, .recordFlit 0 0 0 0 0 (2 ^ 16) (List.replicate 256 0) false,
      .recordFlit 0 0 0 0 0 0 (List.replicate 255 0) false, .managementFlit 3 0 0 { good := true, leftAdapt := false }, .managementFlit 0 (2 ^ 16) 0 { good := true, leftAdapt := false },
      .managementFlit 0 0 (2 ^ 16) { good := true, leftAdapt := false }, .flitResend 3 0, .flitResend 0 9,
      .partnerLost 4, .jtagSample (2 ^ 88), .jtagPreload (2 ^ 88)] : List Instr).all (fun i => !i.wf) = true := by
  decide +kernel

theorem test_wf_refuses_14 :
    ([.jtagExtest (2 ^ 88), .usbAttach 0, .usbAttach 5,
      .debugResume 6, .gptpAnnounceSend 5 0] : List Instr).all (fun i => !i.wf) = true := by
  decide +kernel

end Sys2Proof.Tests
end

section
/-! The outcome of a command, whatever the command: every one is checked the same way before its own effect runs. -/

namespace Sys2Proof.Proofs

open Sys2Proof.Machine

/-- Each command runs its own effect behind the same two checks: its operands lie in their encodings, and the unit it names
is there on the grade (log 126). The unifier reads a single operation off the command's meaning; the four effects that are two
operations in a row are named. -/
theorem exec_eq_perform (c : Instr) (s : State) : ∃ f : Work → Work, exec c s = perform (Instr.wf c) (unitThere c s) f s := by
  cases c with
  | admissionRecompute delay => exact ⟨recomputeCommit ∘ recomputeDecide delay, rfl⟩
  | lbHeldWriteResume e j => exact ⟨dmaResume e j ∘ writersResume, rfl⟩
  | powerEstimate mw temps => exact ⟨rateSwitches (temps.map (·.1)) ∘ powerEstimate mw temps, rfl⟩
  | jointStateChange => exact ⟨jointState ∘ jointRequest, rfl⟩
  | _ => exact ⟨_, rfl⟩

theorem exec_of_not_wf {c : Instr} (s : State) (hwf : Instr.wf c = false) : exec c s = .refused .malformed := by
  obtain ⟨f, hexec⟩ := exec_eq_perform c s
  rw [hexec, hwf, Laws.perform_malformed]

theorem exec_of_unit_absent {c : Instr} {s : State} (hwf : Instr.wf c = true) (habsent : unitThere c s = false) :
    exec c s = .fault .absentUnit := by
  obtain ⟨f, hexec⟩ := exec_eq_perform c s
  rw [hexec, hwf, habsent, Laws.perform_absent]

theorem exec_of_accepted {c : Instr} {s : State} (haccepted : Accepted c s) : ∃ f : Work → Work, exec c s = nextOf s f := by
  obtain ⟨hwf, hthere⟩ := haccepted
  obtain ⟨f, hexec⟩ := exec_eq_perform c s
  exact ⟨f, by rw [hexec, hwf, hthere, Laws.perform_next]⟩

/-- A command whose whole effect is `f` completes with what holds of the state that `f` leaves. -/
theorem completes_iff_of_nextOf {c : Instr} {s : State} {f : Work → Work} (hexec : exec c s = nextOf s f) (P : State → Prop) :
    Completes c s P ↔ P (commitWork s (f (workOf s))) := by
  constructor
  · rintro ⟨t, hnext, -, ht⟩
    rw [hexec] at hnext
    cases hnext
    exact ht
  · intro hP
    exact ⟨_, hexec, Laws.commitWork_pending s _, hP⟩

/-- Settles O47: a command is its effect behind the two checks (00 R4, R8; the kinds of the refusal and of the fault are
log 126), so the checks alone decide between refusal, fault and next state. -/
theorem commandOutcome : Obligations.CommandOutcome := by
  intro c s
  refine ⟨exec_of_not_wf s, exec_of_unit_absent, fun haccepted => ?_⟩
  obtain ⟨f, hexec⟩ := exec_of_accepted haccepted
  exact ⟨f, hexec, (completes_iff_of_nextOf hexec _).2 trivial⟩

end Sys2Proof.Proofs
end

section
/-! The commands of the reset pins and of the device states (01 R17 to R28, 18 R462 to R471): what each does where its
conditions hold, and where the table of 01 R21 is left. -/

namespace Sys2Proof.Proofs

open Sys2Proof.Machine

/-- Effects that agree on the state a command finds have one outcome. -/
theorem nextOf_congr {s : State} {f g : Work → Work} (heq : f (workOf s) = g (workOf s)) : nextOf s f = nextOf s g := by
  rw [nextOf, heq, nextOf]

/-! ## The reset pins, WAKE and REFCLK -/

/-- What the release of PORST_N settles and no later fault message touches: the device state, the sampled straps, time, the
slices, the engines and the fuses. -/
def releaseView (w : Work) : DevState × Nat × Nat × TimeBase × Tab Slice × Tab Engine × Fuses :=
  (w.dev.state, w.dev.nodeId, w.dev.casc, w.time, w.slices, w.engines, w.fuses)

theorem releaseView_raise (source unit detail : Nat) (w : Work) : releaseView (raise source unit detail w) = releaseView w := by
  simp [releaseView]

theorem releaseView_odPut (idx sub v : Nat) (w : Work) : releaseView (odPut idx sub v w) = releaseView w := rfl

/-- Whether or not the release raises its two strap faults (18 R467, R469, R470). -/
theorem releaseView_porstRelease (node casc : Nat) {w : Work} (hporst : w.dev.state = .porst) :
    releaseView (porstRelease node casc w) = (.lull, node, casc, TimeBase.reset, [], [], w.fuses) := by
  rw [porstRelease, if_neg (not_not_intro hporst), Laws.doIf_keeps releaseView _ _ _ (releaseView_raise _ _ _ _)]
  split
  · rw [releaseView_raise, releaseView_odPut]
    rfl
  · rw [releaseView_odPut, releaseView_odPut]
    rfl

theorem lullReady_of_lull {w : Work} (hlull : w.dev.state = .lull) : lullReady w = { w with dev.ready := true } := if_pos hlull

theorem wake_of_ready {w : Work} (hlull : w.dev.state = .lull) (hready : w.dev.ready = true) (hwake : w.dev.wake = true)
    (hwarm : w.dev.warm = false) :
    wake w =
      let again := w.dev.retained
      let w := doIf again (odAdd 0x2202 4 (2 * dies w.fuses + 1)) { w with pow.unlocked := [] }
      { w with dev.state := .boot, dev.prev := if again then 7 else 0, dev.cause := if again then 2 else 1 } :=
  if_neg (by simp [hlull, hready, hwake, hwarm])

/-- WARM_RST_N acts in every state but SAFE and PORST_N, unless an escalation that the next boundary carries out ranks above
it (01 R24, R28). -/
theorem warmAssert_of_accepted {w : Work} (hsafe : w.dev.state ≠ .safe) (hporst : w.dev.state ≠ .porst)
    (hwarm : w.dev.warm = false) (hrank : w.dev.escalate = none ∨ w.dev.state = .lull) :
    warmAssert w =
      { loseVolatile w with dev := { (loseVolatile w).dev with state := .boot, prev := stateCode w.dev.state, cause := 0xA,
                                                               warm := true } } := by
  have hranks : ¬ (w.dev.escalate.isSome = true ∧ w.dev.state ≠ .lull) := by
    rcases hrank with hnone | hlull
    · simp [hnone]
    · simp [hlull]
  rw [warmAssert, if_neg (by simp [hsafe, hporst, hwarm]), if_neg hranks]

theorem warmRelease_of_warm {w : Work} (hwarm : w.dev.warm = true) :
    warmRelease w = odAdd 0x2202 4 (2 * dies w.fuses + 1) { w with dev.warm := false, pow.unlocked := [] } :=
  if_neg (by simp [hwarm])

/-- Settles O1. That WARM_RST_N enters BOOT at its assertion is log 109, that the relocks at a wake from retention and at its
release are counted is log 91, and that REFCLK_STOP holds the block as PORST_N does is log 92: the model's own choices. -/
theorem resetPinCommands : Obligations.ResetPinCommands := by
  intro s node casc
  refine ⟨rfl, (completes_iff_of_nextOf (f := holdAll) rfl _).2 rfl, ?_, ?_, ?_, rfl, ?_, ?_⟩
  · intro hwf hporst
    have hexec : exec (.porstNRelease node casc) s = nextOf s (porstRelease node casc) := by
      show perform _ true _ s = _
      rw [hwf, Laws.perform_next]
    have hview := releaseView_porstRelease node casc (w := workOf s) hporst
    simp only [releaseView, Prod.mk.injEq] at hview
    obtain ⟨hstate, hnode, hcasc, htime, hslices, hengines, hfuses⟩ := hview
    exact (completes_iff_of_nextOf hexec _).2
      ⟨hstate, hnode, hcasc, congrArg TimeBase.beat htime, congrArg TimeBase.ns htime, hslices, hengines, hfuses⟩
  · intro hlull
    exact nextOf_congr (f := lullReady) (lullReady_of_lull (w := workOf s) hlull)
  · intro hlull hready hwake hwarm
    exact nextOf_congr (f := wake) (wake_of_ready (w := workOf s) hlull hready hwake hwarm)
  · intro hsafe hporst hwarm hrank
    exact nextOf_congr (f := warmAssert) (warmAssert_of_accepted (w := workOf s) hsafe hporst hwarm hrank)
  · intro hwarm
    exact nextOf_congr (f := warmRelease) (warmRelease_of_warm (w := workOf s) hwarm)

/-! ## Committed requests, the drain and the stationary input -/

theorem takeEffect_of_mem {e : Effect} {w : Work} (hmem : e ∈ w.links.effects) :
    takeEffect (· == e) w = (some e, { w with links.effects := w.links.effects.erase e }) := by
  have hfind : w.links.effects.find? (· == e) = some e := by
    have hfound : (w.links.effects.find? (· == e)).isSome := List.find?_isSome.2 ⟨e, hmem, beq_self_eq_true e⟩
    obtain ⟨x, hx⟩ := Option.isSome_iff_exists.1 hfound
    rw [hx, eq_of_beq (List.find?_some (p := (· == e)) hx)]
  simp only [takeEffect, hfind]

/-- Outside a formed cascade a committed request is taken and acts. -/
theorem requestRow_of_mem {code : Nat} {w : Work} (halone : odGet w.toBlk 0x2700 4 ≠ 2)
    (hmem : .request code ∈ w.links.effects) :
    requestRow code w = requestState code { w with links.effects := w.links.effects.erase (.request code) } := by
  rw [requestRow, if_neg halone, takeEffect_of_mem hmem]

/-- In a formed cascade it stays for the master (17 R441). -/
theorem requestRow_of_formed {code : Nat} {w : Work} (hformed : odGet w.toBlk 0x2700 4 = 2) : requestRow code w = w :=
  if_pos hformed

/-! The transitions that a request can name (01 R21). Each names its row by the state and lets the match compute: splitting
the whole table for its equations costs seconds. -/

theorem requestState_config_of_run {w : Work} (hrun : w.dev.state = .run) :
    requestState 2 w = { w with dev.draining := true } := by
  unfold requestState
  rw [hrun]
  rfl

theorem requestState_config_of_adapt {w : Work} (hadapt : w.dev.state = .adapt) : requestState 2 w = toConfig 4 w := by
  unfold requestState
  rw [hadapt]
  rfl

theorem requestState_run {w : Work} (hconfig : w.dev.state = .config) (hchecks : w.dev.checksPassed = true)
    (hguard : ctxGet w.toBlk 0 0x0B = 2) : requestState 3 w = enterState .run 4 (enterActive w) := by
  unfold requestState
  rw [hconfig]
  exact if_pos ⟨hchecks, hguard⟩

theorem requestState_adapt {w : Work} (hconfig : w.dev.state = .config) (hstationary : stationary w.toBlk = true) :
    requestState 4 w = enterState .adapt 4 (enterActive (cacheClear w)) := by
  unfold requestState
  rw [hconfig]
  exact if_pos hstationary

theorem requestState_lull {w : Work} (hconfig : w.dev.state = .config) :
    requestState 7 w = enterState .lull 4 (trigsLull (loseVolatile w)) := by
  unfold requestState
  rw [hconfig]
  rfl

/-- Outside a formed cascade a drain that is complete ends in CONFIG, whatever the device state. -/
theorem drainComplete_of_drained {w : Work} (halone : odGet w.toBlk 0x2700 4 ≠ 2) (hdrained : drained w.toBlk = true) :
    drainComplete w = toConfig 4 w := by
  have hdraining : w.dev.draining = true := by
    simp only [drained, Bool.and_eq_true] at hdrained
    obtain ⟨⟨⟨hdraining, -⟩, -⟩, -⟩ := hdrained
    exact hdraining
  simp [drainComplete, halone, hdrained, hdraining]

theorem exec_drainComplete_of_drained {s : State} (halone : odGet (start s) 0x2700 4 ≠ 2)
    (hdrained : drained (start s) = true) : exec .drainComplete s = nextOf s (toConfig 4) :=
  nextOf_congr (f := drainComplete) (drainComplete_of_drained halone hdrained)

theorem stationaryLost_of_adapt {w : Work} (hadapt : w.dev.state = .adapt) (hlost : stationary w.toBlk = false) :
    stationaryLost w =
      let w := toConfig 5 w
      if odGet w.toBlk 0x2700 4 = 2 ∧ odGet w.toBlk 0x2700 2 % 4 = 0 then
        { w with links.effects := w.links.effects ++ [.request 2] }
      else w :=
  if_pos ⟨hadapt, hlost⟩

/-- Settles O3: the row takes the request where this device alone decides, and the request's own transition follows. -/
theorem stateRequests : Obligations.StateRequests := by
  intro s
  have hrow : ∀ (code : Nat) {f : Work → Work}, odGet (start s) 0x2700 4 ≠ 2 → .request code ∈ s.blk.links.effects →
      requestState code { workOf s with links.effects := s.blk.links.effects.erase (.request code) } = f (workOf s) →
      nextOf s (requestRow code) = nextOf s f := fun code f halone hmem heffect =>
    nextOf_congr ((requestRow_of_mem halone hmem).trans heffect)
  have hstays : odGet (start s) 0x2700 4 = 2 → ∀ code : Nat, nextOf s (requestRow code) = nextOf s id :=
    fun hformed code => nextOf_congr (requestRow_of_formed hformed)
  refine ⟨fun halone => ⟨?_, ?_, ?_, ?_, ?_, ?_⟩,
    fun hformed => ⟨hstays hformed 2, hstays hformed 3, hstays hformed 4, hstays hformed 7⟩, ?_⟩
  · intro hmem hrun
    exact hrow 2 halone hmem (requestState_config_of_run hrun)
  · intro hmem hadapt
    exact hrow 2 halone hmem (requestState_config_of_adapt hadapt)
  · intro hmem hconfig hchecks hguard
    exact hrow 3 halone hmem (requestState_run hconfig hchecks hguard)
  · intro hmem hconfig hstationary
    exact hrow 4 halone hmem (requestState_adapt hconfig hstationary)
  · intro hmem hconfig
    exact hrow 7 halone hmem (requestState_lull hconfig)
  · exact exec_drainComplete_of_drained halone
  · intro hadapt hlost
    exact nextOf_congr (f := stationaryLost) (stationaryLost_of_adapt (w := workOf s) hadapt hlost)

/-! ## The table of 01 R21 -/

/-- RUN with nothing admitted, while it drains towards CONFIG (01 R22). -/
def drainingRun : State :=
  { State.reset with blk := { Blk.reset with dev := { Dev.reset with state := .run, draining := true } } }

/-- What REFCLK_STOP leaves of it: the state of PORST_N, and the drain still noted. -/
def stoppedDrain : State :=
  { State.reset with
    blk := { Blk.reset with dev := { Dev.reset with state := .porst, draining := true, noRefclk := true, ready := false } } }

theorem refclkStop_drainingRun : exec .refclkStop drainingRun = .next stoppedDrain := rfl

theorem stoppedDrain_alone : odGet (start stoppedDrain) 0x2700 4 ≠ 2 := by decide +kernel

theorem stoppedDrain_drained : drained (start stoppedDrain) = true := by decide +kernel

/-- Whatever it stops first, the way to CONFIG ends there. -/
@[simp] theorem toConfig_dev_state (cause : Nat) (w : Work) : (toConfig cause w).dev.state = .config := rfl

/-- Refutes O51: REFCLK_STOP while RUN drains (`refclkStop_drainingRun`) leaves PORST_N's state with the drain still noted,
and DRAIN_COMPLETE, which does not ask for RUN or SQUALL, leads from there to CONFIG; 01 R21 leaves that state only by the
release of PORST_N, to LULL. -/
theorem not_stateTransitions : ¬ Obligations.StateTransitions := by
  intro h
  have hexec := exec_drainComplete_of_drained stoppedDrain_alone stoppedDrain_drained
  have hporst : stoppedDrain.blk.dev.state = .porst := rfl
  have htable := h .drainComplete stoppedDrain _ 1 0 true (by simp) hexec (by simp [hporst])
  simp [hporst] at htable

end Sys2Proof.Proofs
end

section
/-! What the commands of 02 have in common: how an accepted command answers, and what a change of one context's run state
does. -/

namespace Sys2Proof.Proofs

open Sys2Proof.Machine

/-- A command whose operands lie in their encodings and whose unit is there runs its effect. -/
theorem perform_of_accepted {ok there : Bool} {f : Work → Work} {s : State} (hok : ok = true) (hthere : there = true) :
    perform ok there f s = nextOf s f := by
  rw [hok, hthere, Laws.perform_next]

/-! ## Tables -/

theorem tabGet_tabSet {α : Type} [DecidableEq α] (d : α) (t : Tab α) (k : Nat) (v : α) (x : Nat) :
    tabGet d (tabSet d t k v) x = if x = k then v else tabGet d t x := by
  unfold tabGet tabSet
  split
  · next hdefault => rw [Laws.tabFind_tabErase]; split <;> simp [hdefault]
  · rw [Laws.tabFind_tabInsert]; split <;> rfl

theorem tabGet_tabMod {α : Type} [DecidableEq α] (d : α) (t : Tab α) (k : Nat) (f : α → α) (x : Nat) :
    tabGet d (tabMod d t k f) x = if x = k then f (tabGet d t x) else tabGet d t x := by
  rw [tabMod, tabGet_tabSet]
  split
  · next heq => rw [heq]
  · rfl

/-- The run state of a context after a change of one of them. -/
theorem ctxRun_modCtx (n m : Nat) (f : CtxRun → CtxRun) (w : Work) :
    ctxRun (modCtx n f w).toBlk m = if m = n then f (ctxRun w.toBlk m) else ctxRun w.toBlk m :=
  tabGet_tabMod CtxRun.idle w.ctxs n f m

end Sys2Proof.Proofs
end

section
/-! The beat boundary (02 R33): time advances and the steps follow in their order. -/

namespace Sys2Proof.Proofs

open Sys2Proof.Machine

/-- Neither PORST_N nor a stopped REFCLK holds time, so the beat begins. -/
theorem beatBoundary_of_clocked {met : BeatMet} {w : Work} (hporst : w.dev.state ≠ .porst) (hclock : w.dev.noRefclk = false) :
    beatBoundary met w =
      let beat := w.time.beat + 1
      let begun := { w with casc.abortOut := 0, time := { w.time with beat := beat, ns := 2000 * beat }, res.used := [] }
      let decided := boundaryTwo (mapUpdate (holdoverExpire begun))
      let timed := gclStep (droopBeat (timeBeat decided))
      let released := boundaryFour met (boundaryThree met timed)
      controlSend w.casc.abortOut (shownStep met.pins released) :=
  if_neg (by simp [hporst, hclock])

/-- Settles O5: where time runs, the boundary is its steps in the order of 02 R33. -/
theorem beatBoundaryOrder : Obligations.BeatBoundaryOrder := by
  intro s met hporst hclock hwf
  have hexec : exec (.beatBoundary met) s = nextOf s (beatBoundary met) := perform_of_accepted hwf rfl
  rw [hexec]
  exact nextOf_congr (beatBoundary_of_clocked (w := workOf s) hporst hclock)

end Sys2Proof.Proofs
end

section
/-! Slices at run time (02 R32, R33, R37): release, end of the response time, deadline. -/

namespace Sys2Proof.Proofs

open Sys2Proof.Machine

/-! ## A context without a live slice -/

/-- Without a slice no window of a Garnet slice can run out (15 R383). -/
theorem garnetExpire_of_not_live {q : Nat} {w : Work} (hlive : (sliceOf w.toBlk (960 + q)).live = false) :
    garnetExpire q w = w := by
  simp [garnetExpire, hlive]

theorem isGarnet_iff (n : Nat) : isGarnet n = true ↔ 960 ≤ n ∧ n < 1024 := by
  simp only [isGarnet, Bool.and_eq_true, decide_eq_true_eq]

/-- Without a slice none is unfinished at the release (16 R416). The Garnet context of quad `q` is context 960 + `q`. -/
theorem overran_of_not_live {n : Nat} {w : Work} (hlive : (sliceOf w.toBlk n).live = false) : overran n w = w := by
  have hgarnet : doIf (isGarnet n) (garnetExpire (n - 960)) w = w := by
    cases hn : isGarnet n with
    | true =>
      obtain ⟨q, rfl⟩ := Nat.exists_eq_add_of_le ((isGarnet_iff n).1 hn).1
      rw [Laws.doIf_true, Nat.add_sub_cancel_left, garnetExpire_of_not_live hlive]
    | false => rw [Laws.doIf_false]
  simp [overran, hgarnet, hlive]

/-! ## Release, end and deadline -/

/-- A release that is due and neither held nor skipped, of a context without a slice: the slice lives from the boundary (02 R32,
R33). -/
theorem releaseSlice_of_due {maps : List (Nat × Nat)} {n : Nat} {w : Work} (hdue : releaseDue w.toBlk n = true)
    (hheld : releaseHeld (periodReset n w).toBlk n = false) (hlive : (sliceOf w.toBlk n).live = false)
    (hskip : releaseSkipped (periodReset n w).toBlk n = false) :
    releaseSlice maps n w =
      let w := periodReset n w
      let es := ctxEngines w.toBlk n
      let w := modSlice n (fun _ => { Slice.idle with live := true, rel := w.time.beat, open_ := es.map (·.1),
                                                      cfg := cfgNow w.toBlk, startAt := plannedStart w.toBlk n }) w
      let w := forAll es (startOnEngine n)
        (resetSliceSyncs n (stepStart n (pushDue n false (modCtx n (fun c => { c with needPred := none }) w))))
      let w := doIf (isGarnet n)
        (modQuad (n - 960) (fun r => { r with garnet := some ((w.time.beat - (n - 960)) / 64, []) })) w
      let r := tmRelease maps n (releaseIngest n w)
      if r.1 = false then stopSlice n false r.2 else if es.isEmpty then sliceDone n r.2 else r.2 := by
  have hreset : (sliceOf (periodReset n w).toBlk n).live = false := hlive
  have hnotDue : ¬ releaseDue w.toBlk n = false := by simp [hdue]
  have hnotHeld : ¬ releaseHeld (periodReset n w).toBlk n = true := by simp [hheld]
  have hnotSkipped : ¬ releaseSkipped (periodReset n w).toBlk n = true := by simp [hskip]
  simp only [releaseSlice, if_neg hnotDue, if_neg hnotHeld, overran_of_not_live hreset, hreset, Laws.doIf_false,
    if_neg hnotSkipped, Bool.false_and, Bool.false_eq_true, if_false]
  rfl

/-- The response time of a slice that is over, with no mass read outstanding (08 R198) unless it was stopped. -/
theorem responseEnd_of_over {maps : List (Nat × Nat)} {n : Nat} {w : Work} (hlive : (sliceOf w.toBlk n).live = true)
    (hover : ((sliceOf w.toBlk n).doneAt.isSome || (sliceOf w.toBlk n).stopped.isSome) = true)
    (hread : (tmPending w.toBlk n && (sliceOf w.toBlk n).stopped.isNone) = false) :
    responseEnd maps n w =
      if isGarnet n then responseEnd.garnetEnd (n - 960) (sliceOf w.toBlk n) (endSlice maps n w) else endSlice maps n w :=
  if_pos (by rw [hlive, hover, hread]; rfl)

/-- A slice that is not complete at its deadline (02 R37). -/
theorem deadlineMissed_of_due {n : Nat} {w : Work} (hlive : (sliceOf w.toBlk n).live = true)
    (hdone : (sliceOf w.toBlk n).doneAt = none) (hstopped : (sliceOf w.toBlk n).stopped = none)
    (hmissed : (sliceOf w.toBlk n).missed = false) (hwithheld : (sliceOf w.toBlk n).withheld = false)
    (hpast : (sliceOf w.toBlk n).rel + ctxGet w.toBlk n 5 ≤ w.time.beat) :
    deadlineMissed n w =
      withholdSlice n (doIf (decide (ctxClass w.toBlk n ≤ 2))
        (raise 0x01A n (w.time.beat - ((sliceOf w.toBlk n).rel + ctxGet w.toBlk n 5)))
        (modSlice n (fun x => { x with missed := true }) w)) := by
  have hcounts : ((sliceOf w.toBlk n).live && (sliceOf w.toBlk n).doneAt.isNone && (sliceOf w.toBlk n).stopped.isNone &&
      !(sliceOf w.toBlk n).missed && decide ((sliceOf w.toBlk n).rel + ctxGet w.toBlk n 5 ≤ w.time.beat)) = true := by
    simp [hlive, hdone, hstopped, hmissed, hpast]
  have hresults : ¬ (sliceOf w.toBlk n).withheld = true := by simp [hwithheld]
  exact (if_pos hcounts).trans (if_neg hresults)

/-- Settles O6: the release meets no live slice, the end of the response time one that is over, the deadline one that is not.
That a missed deadline of an Elastic context is not reported is log 79. -/
theorem sliceCommands : Obligations.SliceCommands := by
  intro s n maps hn hctx hmaps
  have hwf : Instr.wf (.sliceRelease { ctx := n, maps }) = true := by simp [Instr.wf, hn, hmaps]
  refine ⟨fun hdue hheld hlive hskip => ?_, fun hlive hover hread => ?_,
    fun hlive hdone hstopped hmissed hwithheld hpast => ?_⟩
  · have hexec : exec (.sliceRelease { ctx := n, maps }) s = nextOf s (releaseSlice maps n) := perform_of_accepted hwf hctx
    rw [hexec]
    exact nextOf_congr (releaseSlice_of_due (w := workOf s) hdue hheld hlive hskip)
  · have hexec : exec (.sliceResponseEnd { ctx := n, maps }) s = nextOf s (responseEnd maps n) :=
      perform_of_accepted hwf hctx
    rw [hexec]
    exact nextOf_congr (responseEnd_of_over (w := workOf s) hlive hover hread)
  · have hexec : exec (.deadlineMissed n) s = nextOf s (deadlineMissed n) :=
      perform_of_accepted (decide_eq_true hn) hctx
    rw [hexec]
    exact nextOf_congr (deadlineMissed_of_due (w := workOf s) hlive hdone hstopped hmissed hwithheld hpast)

end Sys2Proof.Proofs
end

section
/-! Admission (02 R44, R52, R53): requests, withdrawals, the decision of a commit's requests, the schedule's commit and the
recomputation. -/

namespace Sys2Proof.Proofs

open Sys2Proof.Machine

/-! ## Requests and withdrawals -/

/-- The row of an effect runs the first committed one that satisfies its test. -/
theorem effectRow_of_find {ok : Effect → Bool} {e : Effect} {w : Work} (hfind : w.links.effects.find? ok = some e) :
    effectRow ok w = runEffect e { w with links.effects := w.links.effects.erase e } := by
  simp only [effectRow, takeEffect, hfind]

theorem effectRow_of_mem {e : Effect} {w : Work} (hmem : e ∈ w.links.effects) :
    effectRow (· == e) w = runEffect e { w with links.effects := w.links.effects.erase e } := by
  rw [effectRow, takeEffect_of_mem hmem]

/-- A request of a context that is neither admitted nor waiting makes it wait, with the order of its commit. -/
theorem admitRequest_of_idle {n order : Nat} {w : Work} (hwaits : ctxGet w.toBlk n 0x0B ≠ 1)
    (hadmitted : ctxGet w.toBlk n 0x0B ≠ 2) (hsuspended : ctxGet w.toBlk n 0x0B ≠ 5) :
    admitRequest n order w =
      busyStep (modCtx n (fun c => { c with pendingAt := some order, decided := none }) (ctxPut n 0x0B 1 (ctxPut n 0x0C 0 w))) :=
  (if_neg (by simp [hadmitted, hsuspended])).trans (if_neg hwaits)

/-- The withdrawal of an admitted context is due at the end of its period. -/
theorem withdrawRequest_of_admitted {n : Nat} {w : Work} (hadmitted : ctxGet w.toBlk n 0x0B = 2 ∨ ctxGet w.toBlk n 0x0B = 5) :
    withdrawRequest n w = modCtx n (fun c => { c with withdrawAt := some (c.withdrawAt.getD (periodEnd w.toBlk n)) }) w :=
  if_pos hadmitted

/-- A withdrawal that is due. -/
theorem withdrawalEffect_of_due {n t : Nat} {w : Work} (hasked : (ctxRun w.toBlk n).withdrawAt = some t)
    (hdue : t ≤ w.time.beat) : withdrawalEffect n w = scheduleDone (suspendIngest n (dropAdmission n 0 0 w)) := by
  simp only [withdrawalEffect, hasked, if_pos hdue]

/-! ## The schedule's commit and the recomputation -/

/-- Every decided schedule whose beat has come commits in one go (02 R44), at the clocks that it was tested at (log 143). -/
theorem scheduleCommit_of_due {w : Work}
    (hdue : (w.ctxs.filter (fun p => match p.2.decided with | some d => decide (d.1 ≤ w.time.beat) | none => false)) ≠ []) :
    scheduleCommit w =
      scheduleDone (takeClocks (forAll (w.ctxs.filter (fun p =>
        match p.2.decided with | some d => decide (d.1 ≤ w.time.beat) | none => false))
        (fun p w => match p.2.decided with | some d => admitCtx p.1 d.2.1 d.2.2.1 d.2.2.2 w | none => w) w)) :=
  if_neg (fun hnone => hdue (List.isEmpty_iff.1 hnone))

/-- A recomputation that is asked for and not yet decided, which pair 2 runs to decide outside a compute-part reset. -/
theorem recomputeDecide_of_asked {delay : Nat} {w : Work} (hasked : w.sched.recompute.isSome = true)
    (hopen : w.sched.commitAt = none) (hpair : pairRuns w.toBlk 2 = true) (hreset : resetting w.toBlk = false) :
    recomputeDecide delay w = { w with sched.commitAt := some (w.time.beat + delay) } :=
  if_neg (by simp [Option.isSome_iff_ne_none.1 hasked, hopen, hpair, hreset])

/-- Before its beat a decided recomputation waits. -/
theorem recomputeCommit_of_early {t : Nat} {w : Work} (hdecided : w.sched.commitAt = some t) (hearly : w.time.beat < t) :
    recomputeCommit w = w := by
  unfold recomputeCommit
  split
  · next hcommit => rw [hdecided] at hcommit; cases hcommit; exact if_pos hearly
  · rfl

/-! ## The decision of a commit's requests -/

/-- Putting a context in its place among others adds that context and loses none of them. -/
theorem mem_insertInOrder (b : Blk) (acc : List Nat) (n m : Nat) :
    m ∈ acc.filter (fun x => above b x n) ++ [n] ++ acc.filter (fun x => !above b x n) ↔ m ∈ acc ∨ m = n := by
  simp only [List.mem_append, List.mem_filter, List.mem_singleton]
  cases above b m n with
  | true => simp only [Bool.not_true, Bool.false_eq_true, and_true, and_false, or_false]
  | false =>
    simp only [Bool.not_false, Bool.false_eq_true, and_true, and_false, false_or]
    exact Or.comm

/-- Ordering by 02 R36 neither adds nor loses a context. -/
theorem mem_inOrder (b : Blk) (l : List Nat) (m : Nat) : m ∈ inOrder b l ↔ m ∈ l := by
  have hfold : ∀ acc : List Nat,
      m ∈ l.foldl (fun s n => s.filter (fun x => above b x n) ++ [n] ++ s.filter (fun x => !above b x n)) acc ↔
        m ∈ acc ∨ m ∈ l := by
    induction l with
    | nil => exact fun acc => (or_iff_left (List.not_mem_nil (a := m))).symm
    | cons n l ih =>
      intro acc
      rw [List.foldl_cons, ih, mem_insertInOrder, or_assoc, List.mem_cons]
  exact (hfold []).trans (or_iff_right List.not_mem_nil)

/-- What each step of a loop brings about for its own element, and no later step undoes, holds after the loop of every
element. -/
theorem forAll_reaches {α : Type} {f : α → Work → Work} (P : α → Work → Prop) (hreach : ∀ a w, P a (f a w))
    (hstays : ∀ a b w, P a w → P a (f b w)) {l : List α} {a : α} (hmem : a ∈ l) (w : Work) : P a (forAll l f w) := by
  have hkept : ∀ (l : List α) (w : Work), P a w → P a (forAll l f w) := by
    intro l
    induction l with
    | nil => exact fun w hP => hP
    | cons b l ih => exact fun w hP => ih (f b w) (hstays a b w hP)
  induction l generalizing w with
  | nil => cases hmem
  | cons b l ih =>
    rcases List.mem_cons.1 hmem with rfl | hmem
    · exact hkept l _ (hreach a w)
    · exact ih hmem (f b w)

/-- A context's request refused, with the reason and the response time that are put. -/
def refused (reason resp : Nat → Nat) (n : Nat) (w : Work) : Work := refuseCtx n (reason n) (resp n) w

/-- A context's schedule decided: place, effective offset and response time, due at `beat`. -/
def scheduled (beat : Nat) (plan : Nat → Nat × Nat × Nat) (n : Nat) (w : Work) : Work :=
  modCtx n (fun c => { c with pendingAt := none, decided := some (beat, plan n) }) w

/-- Pair 2's decision of the oldest commit: every request of it is refused, or a schedule is decided for all of them. -/
theorem admissionDecision_cases {delay g : Nat} {others : List (Nat × Nat × Nat)} {w : Work}
    (hgroup : oldestGroup w.toBlk = some g) (hpair : pairRuns w.toBlk 2 = true) :
    let grp := inOrder w.toBlk (groupOf w.toBlk g)
    (∃ reason resp : Nat → Nat, admissionDecision delay others w = busyStep (forAll grp (refused reason resp) w)) ∨
    ∃ plan : Nat → Nat × Nat × Nat,
      admissionDecision delay others w = busyStep (forAll grp (scheduled (w.time.beat + max 8 delay) plan) (keepClocks w)) := by
  have hruns : ¬ pairRuns w.toBlk 2 = false := by simp [hpair]
  generalize hdecision : admissionDecision delay others w = decision
  unfold admissionDecision at hdecision
  extract_lets b old due casc said at hdecision
  rw [show oldestGroup b = some g from hgroup] at hdecision
  replace hdecision := (if_neg hruns).symm.trans hdecision
  extract_lets grp ill fit set pl eff resp coll touched hurt reason bad decided at hdecision
  by_cases hbad : bad = true
  · exact .inl ⟨fun n => if (reason n).1 = 0 then 0x0B else (reason n).1, fun n => (reason n).2,
      hdecision.symm.trans (congrArg busyStep (if_pos hbad))⟩
  · exact .inr ⟨fun n => (pl n, eff n, (resp n).1), hdecision.symm.trans (congrArg busyStep (if_neg hbad))⟩

/-- What no decision touches: the stores, the slices, the engines and time. -/
def decisionFrame (w : Work) : List (Nat × List Byte) × Tab Slice × Tab Engine × TimeBase :=
  (w.wr, w.slices, w.engines, w.time)

/-- A response time is put in the dictionary alone, at a free value where its type cannot hold it (log 74). -/
theorem respPut_keeps (n r : Nat) (w : Work) :
    decisionFrame (respPut n r w) = decisionFrame w ∧ (respPut n r w).ctxs = w.ctxs := by
  unfold respPut
  split <;> exact ⟨rfl, rfl⟩

theorem decisionFrame_refused (reason resp : Nat → Nat) (n : Nat) (w : Work) :
    decisionFrame (refused reason resp n w) = decisionFrame w := (respPut_keeps n (resp n) w).1

theorem decisionFrame_scheduled (beat : Nat) (plan : Nat → Nat × Nat × Nat) (n : Nat) (w : Work) :
    decisionFrame (scheduled beat plan n w) = decisionFrame w := rfl

theorem ctxRun_refused (reason resp : Nat → Nat) (n m : Nat) (w : Work) :
    ctxRun (refused reason resp n w).toBlk m =
      if m = n then { ctxRun w.toBlk m with pendingAt := none } else ctxRun w.toBlk m := by
  have hput : ctxRun (respPut n (resp n) w).toBlk m = ctxRun w.toBlk m :=
    congrArg (fun t => tabGet CtxRun.idle t m) (respPut_keeps n (resp n) w).2
  rw [← hput]
  exact ctxRun_modCtx n m _ _

theorem ctxRun_scheduled (beat : Nat) (plan : Nat → Nat × Nat × Nat) (n m : Nat) (w : Work) :
    ctxRun (scheduled beat plan n w).toBlk m =
      if m = n then { ctxRun w.toBlk m with pendingAt := none, decided := some (beat, plan n) } else ctxRun w.toBlk m :=
  ctxRun_modCtx n m _ w

/-- Keeping the clocks that a schedule was tested at touches the quads alone. -/
theorem keepClocks_keeps (w : Work) : decisionFrame (keepClocks w) = decisionFrame w :=
  Laws.forAll_keeps decisionFrame (fun q w => modQuad q (fun r => { r with clockTested := quadGet w.toBlk q 0x10 }) w)
    (fun _ _ => rfl) _ w

/-- After the refusal of a commit none of its requests waits, and what was decided before stands. -/
theorem refusals_settle (reason resp : Nat → Nat) {grp : List Nat} {m : Nat} (hmem : m ∈ grp) (w : Work) :
    (ctxRun (forAll grp (refused reason resp) w).toBlk m).pendingAt = none ∧
      (ctxRun (forAll grp (refused reason resp) w).toBlk m).decided = (ctxRun w.toBlk m).decided := by
  constructor
  · refine forAll_reaches (fun n v => (ctxRun v.toBlk n).pendingAt = none) ?_ ?_ hmem w
    · intro n v
      rw [ctxRun_refused, if_pos rfl]
    · intro n k v hsettled
      rw [ctxRun_refused]
      split
      · rfl
      · exact hsettled
  · refine Laws.forAll_keeps (fun v => (ctxRun v.toBlk m).decided) _ (fun n v => ?_) grp w
    rw [ctxRun_refused]
    split <;> rfl

/-- After the decision of a commit's schedule none of its requests waits, and each is due at that beat. -/
theorem schedule_settles (beat : Nat) (plan : Nat → Nat × Nat × Nat) {grp : List Nat} {m : Nat} (hmem : m ∈ grp) (w : Work) :
    (ctxRun (forAll grp (scheduled beat plan) w).toBlk m).pendingAt = none ∧
      ∃ d, (ctxRun (forAll grp (scheduled beat plan) w).toBlk m).decided = some (beat, d) := by
  refine forAll_reaches (fun n v => (ctxRun v.toBlk n).pendingAt = none ∧
    ∃ d, (ctxRun v.toBlk n).decided = some (beat, d)) ?_ ?_ hmem w
  · intro n v
    rw [ctxRun_scheduled, if_pos rfl]
    exact ⟨rfl, plan n, rfl⟩
  · intro n k v hsettled
    rw [ctxRun_scheduled]
    split
    · exact ⟨rfl, plan k, rfl⟩
    · exact hsettled

/-- Pair 2's decision settles every request of the oldest commit and leaves the rest of the device as it is. -/
theorem admissionDecision_settles {delay g : Nat} {others : List (Nat × Nat × Nat)} {w : Work}
    (hgroup : oldestGroup w.toBlk = some g) (hpair : pairRuns w.toBlk 2 = true) :
    decisionFrame (admissionDecision delay others w) = decisionFrame w ∧
      ∀ m ∈ groupOf w.toBlk g, (ctxRun (admissionDecision delay others w).toBlk m).pendingAt = none ∧
        ((ctxRun (admissionDecision delay others w).toBlk m).decided = (ctxRun w.toBlk m).decided ∨
          ∃ d, (ctxRun (admissionDecision delay others w).toBlk m).decided = some (w.time.beat + max 8 delay, d)) := by
  obtain ⟨reason, resp, hdecision⟩ | ⟨plan, hdecision⟩ :=
    admissionDecision_cases (delay := delay) (others := others) hgroup hpair
  · rw [hdecision]
    refine ⟨Laws.forAll_keeps decisionFrame _ (decisionFrame_refused reason resp) _ w, fun m hm => ?_⟩
    obtain ⟨hwaits, hdecided⟩ := refusals_settle reason resp ((mem_inOrder w.toBlk _ m).2 hm) w
    exact ⟨hwaits, .inl hdecided⟩
  · rw [hdecision]
    refine ⟨(Laws.forAll_keeps decisionFrame _ (decisionFrame_scheduled _ plan) _ _).trans (keepClocks_keeps w),
      fun m hm => ?_⟩
    obtain ⟨hwaits, hdecided⟩ :=
      schedule_settles (w.time.beat + max 8 delay) plan ((mem_inOrder w.toBlk _ m).2 hm) (keepClocks w)
    exact ⟨hwaits, .inr hdecided⟩

/-- Settles O7: each request, withdrawal and commit acts where it is due, and a decision settles its whole commit. The clocks
that a schedule takes at its commit are log 143, and that a withdrawal counts as a committed schedule is log 45. -/
theorem admissionCommands : Obligations.AdmissionCommands := by
  intro s n order delay t others remote
  refine ⟨?_, ?_, ?_, ?_, ?_, ?_⟩
  · intro hn hctx hfind hwaits hadmitted hsuspended
    have hexec : exec (.admitRequest n) s = nextOf s (effectRow (isAdmit n)) := perform_of_accepted (decide_eq_true hn) hctx
    rw [hexec]
    exact nextOf_congr ((effectRow_of_find (w := workOf s) hfind).trans (admitRequest_of_idle hwaits hadmitted hsuspended))
  · intro hn hctx hmem hadmitted
    have hexec : exec (.withdrawRequest n) s = nextOf s (effectRow (· == .withdraw n)) :=
      perform_of_accepted (decide_eq_true hn) hctx
    rw [hexec]
    exact nextOf_congr ((effectRow_of_mem (w := workOf s) hmem).trans (withdrawRequest_of_admitted hadmitted))
  · intro hleast hmost hwf halone
    have hdecided : admissionDecided delay others remote (workOf s) = admissionDecision delay [] (workOf s) := if_pos halone
    have hexec : exec (.admissionDecision delay others remote) s = nextOf s (admissionDecision delay []) :=
      (perform_of_accepted (f := admissionDecided delay others remote) hwf rfl).trans (nextOf_congr hdecided)
    refine ⟨hexec, fun g hgroup hpair => (completes_iff_of_nextOf hexec _).2 ?_⟩
    obtain ⟨hframe, hsettled⟩ := admissionDecision_settles (delay := delay) (others := []) (w := workOf s) hgroup hpair
    simp only [decisionFrame, Prod.mk.injEq] at hframe
    obtain ⟨hwr, hslices, hengines, htime⟩ := hframe
    rw [Nat.max_eq_right hleast] at hsettled
    exact ⟨congrArg (memPutAll s.mem) hwr, hslices, hengines, htime, hsettled⟩
  · intro hdue
    exact nextOf_congr (scheduleCommit_of_due (w := workOf s) hdue)
  · intro hn hctx hasked hdue
    have hexec : exec (.withdrawalEffect n) s = nextOf s (withdrawalEffect n) := perform_of_accepted (decide_eq_true hn) hctx
    rw [hexec]
    exact nextOf_congr (withdrawalEffect_of_due (w := workOf s) hasked hdue)
  · intro hmost hasked hopen hpair hreset
    have hexec : exec (.admissionRecompute delay) s = nextOf s (fun w => recomputeCommit (recomputeDecide delay w)) :=
      perform_of_accepted (f := fun w => recomputeCommit (recomputeDecide delay w)) (decide_eq_true hmost) rfl
    have hdecide := recomputeDecide_of_asked (delay := delay) (w := workOf s) hasked hopen hpair hreset
    rw [hexec]
    constructor
    · intro hlater
      refine nextOf_congr ((congrArg recomputeCommit hdecide).trans (recomputeCommit_of_early rfl ?_))
      exact Nat.lt_add_of_pos_right hlater
    · rintro rfl
      exact nextOf_congr (congrArg recomputeCommit hdecide)

end Sys2Proof.Proofs
end

section
/-! The quads' clocks (02 R47, 14 R352, R358 to R360): gating, stepping and stretching. -/

namespace Sys2Proof.Proofs

open Sys2Proof.Machine

/-! ## The moment of a command

Device time is all that `atTime` changes: quads, objects and states read as before. -/

@[simp] theorem quadRun_atTime (t q : Nat) (w : Work) : quadRun (atTime t w).toBlk q = quadRun w.toBlk q := by
  unfold atTime
  split <;> rfl

@[simp] theorem odGet_atTime (t idx sub : Nat) (w : Work) : odGet (atTime t w).toBlk idx sub = odGet w.toBlk idx sub := by
  unfold atTime
  split <;> rfl

@[simp] theorem activeState_atTime (t : Nat) (w : Work) : activeState (atTime t w).toBlk = activeState w.toBlk := by
  unfold atTime
  split <;> rfl

@[simp] theorem servedState_atTime (t : Nat) (w : Work) : servedState (atTime t w).toBlk = servedState w.toBlk := by
  unfold atTime
  split <;> rfl

@[simp] theorem quadGet_atTime (t q sub : Nat) (w : Work) : quadGet (atTime t w).toBlk q sub = quadGet w.toBlk q sub :=
  odGet_atTime t _ _ w

@[simp] theorem quadRemoved_atTime (t q : Nat) (w : Work) : quadRemoved (atTime t w).toBlk q = quadRemoved w.toBlk q := by
  simp [quadRemoved]

@[simp] theorem resetting_atTime (t : Nat) (w : Work) : resetting (atTime t w).toBlk = resetting w.toBlk := by
  simp [resetting]

/-! ## Gating -/

/-- A gust opens the clock of a gated quad in service whose next release is no further ahead than its wake lead; the clock that
is not open 20 ns later is reported. -/
theorem gust_of_due {q t r lead : Nat} {opened : Bool} {w : Work} (hnext : nextRelease (atTime t w).toBlk q = some (r, lead))
    (hdue : 2000 * r ≤ moment t w + lead) (hgated : (quadRun w.toBlk q).gated = true) (hremoved : quadRemoved w.toBlk q = false)
    (hreset : resetting w.toBlk = false) (hactive : activeState w.toBlk = true) :
    gust q t opened w =
      let counted := quadAdd q 0x98 1 (atTime t w)
      if opened then modQuad q (fun x => { x with gated := false }) counted else raise 0x01F q 0 counted := by
  simp [gust, hnext, hdue, hgated, hremoved, hreset, hactive]

/-- The next release of a quad leaves time to gate it: there is none, none is due in this state, or it lies further ahead
than the largest wake lead placed there and 40 ns. -/
def releaseFar (q t : Nat) (w : Work) : Prop :=
  nextRelease (atTime t w).toBlk q = none ∨ activeState w.toBlk = false ∨
    ∃ r lead, nextRelease (atTime t w).toBlk q = some (r, lead) ∧
      moment t w + (placedOn (atTime t w).toBlk q).foldl (fun m n => max m (ctxGet (atTime t w).toBlk n 6)) 0 + 40 < 2000 * r

/-- A quad with nothing to do, in service and with its next release far ahead is gated. -/
theorem quadGate_of_idle {q t : Nat} {w : Work} (hbusy : quadBusy (atTime t w).toBlk q = false)
    (hsteal : stealing (atTime t w).toBlk q = false) (hremoved : quadGet w.toBlk q 0xA0 ≠ 2) (hreset : resetting w.toBlk = false)
    (hserved : servedState w.toBlk = true) (hfar : releaseFar q t w) :
    quadGate q t w = modQuad q (fun x => { x with gated := true }) (atTime t w) := by
  have hservice : (quadGet w.toBlk q 0xA0 != 2) = true := bne_iff_ne.2 hremoved
  rcases hfar with hnone | hinactive | ⟨r, lead, hnext, hahead⟩
  · simp [quadGate, hbusy, hsteal, hservice, hreset, hserved, hnone]
  · simp [quadGate, hbusy, hsteal, hservice, hreset, hserved, hinactive]
  · simp [quadGate, hbusy, hsteal, hservice, hreset, hserved, hnext, hahead]

/-! ## Steps and droops -/

/-- A clock step that has nothing to wait for, at a boundary whose voltage allows the greater of the two clocks. -/
theorem clockStep_of_allowed {q : Nat} {w : Work} (hremoved : quadGet w.toBlk q 0xA0 ≠ 2) (hpowered : quadGet w.toBlk q 0x9D ≠ 0)
    (hboundary : w.time.ns = 2000 * w.time.beat) (hstepped : (quadRun w.toBlk q).stepAt ≠ some w.time.beat)
    (hwaits : clockWaits w.toBlk q = false)
    (hvolt : setPoint w.toBlk q (max (wantClock w.toBlk q) (clockOf w.toBlk q)) (offsetSteps w.toBlk q) ≤ quadGet w.toBlk q 0x92)
    (hwant : clockOf w.toBlk q ≠ wantClock w.toBlk q) (hdroop : droopHolds w.toBlk q = false) :
    clockStep q w = setClock q (wantClock w.toBlk q) w := by
  rw [clockStep, if_neg (by simp [hremoved, hpowered, hboundary]), if_neg hstepped, if_neg (by simp [hwaits]),
    if_neg (Nat.not_lt.2 hvolt), if_pos hwant, if_neg (by simp [hdroop])]

/-- What a droop does to a quad: the cycles that it stretches are counted, and the credit pays them. -/
def droopTaken (q k : Nat) (w : Work) : Work :=
  modQuad q (fun y => { y with droop := true, stretched := (quadRun w.toBlk q).stretched + k, credit := y.credit - k,
                               spent := y.spent || decide ((quadRun w.toBlk q).credit < k) })
    (quadAdd q 0x9A k (quadAdd q 0x99 1 w))

/-- A droop that the credit pays, or whose shortage has been reported in the present beat. -/
theorem droopDetect_of_paid {q k : Nat} {w : Work} (hpaid : k ≤ (quadRun w.toBlk q).credit ∨ (quadRun w.toBlk q).spent = true) :
    droopDetect q k w = droopTaken q k w := by
  have hquiet : (decide ((quadRun w.toBlk q).credit < k) && !(quadRun w.toBlk q).spent) = false := by
    rcases hpaid with hcredit | hspent
    · simp [Nat.not_lt.2 hcredit]
    · simp [hspent]
  exact if_neg (by rw [Bool.not_eq_true]; exact hquiet)

/-- The first droop of a beat that the credit does not pay is reported. -/
theorem droopDetect_of_short {q k : Nat} {w : Work} (hshort : (quadRun w.toBlk q).credit < k)
    (hfirst : (quadRun w.toBlk q).spent = false) :
    droopDetect q k w = raise 0x020 q ((quadRun w.toBlk q).stretched + k) (quadAdd q 0x9B 1 (droopTaken q k w)) := by
  have hreport : (decide ((quadRun w.toBlk q).credit < k) && !(quadRun w.toBlk q).spent) = true := by simp [hshort, hfirst]
  exact if_pos hreport

theorem droopClear_of_drooping {q : Nat} {w : Work} (hdroop : (quadRun w.toBlk q).droop = true) :
    droopClear q w = modQuad q (fun r => { r with droop := false, cleared := w.time.ns }) w := if_pos hdroop

/-- Operands of a command of the quads' clocks lie in their encodings. -/
theorem operands_wf {q k top : Nat} (hq : q < 64) (hk : k < top) : (decide (q < 64) && decide (k < top)) = true := by
  rw [decide_eq_true hq, decide_eq_true hk, Bool.and_true]

/-- Settles O8: each clause is the branch that its conditions lead to. That a step goes to the wanted clock at once is log
115, and the droop's operand and the deferral that it causes are log 112; the credit and its report are 14 R359. -/
theorem quadClockCommands : Obligations.QuadClockCommands := by
  intro s q t k r lead hq hthere
  have hquad : isQuad q s = true := decide_eq_true hthere
  refine ⟨?_, ?_, ?_, ?_, ?_⟩
  · intro ht hnext hdue hgated hremoved hreset hactive
    have hexec : ∀ opened, exec (.gust q t opened) s = nextOf s (gust q t opened) := fun opened =>
      perform_of_accepted (operands_wf hq ht) hquad
    have hgust := fun opened => gust_of_due (opened := opened) (w := workOf s) hnext hdue hgated hremoved hreset hactive
    rw [hexec, hexec]
    exact ⟨nextOf_congr ((hgust true).trans (if_pos rfl)),
      nextOf_congr ((hgust false).trans (if_neg Bool.false_ne_true))⟩
  · intro ht hbusy hsteal hremoved hreset hserved hfar
    have hexec : exec (.quadClockGate q t) s = nextOf s (quadGate q t) :=
      perform_of_accepted (operands_wf hq ht) hquad
    rw [hexec]
    exact nextOf_congr (quadGate_of_idle (w := workOf s) hbusy hsteal hremoved hreset hserved hfar)
  · intro hremoved hpowered hboundary hstepped hwaits hvolt hwant hdroop
    have hexec : exec (.clockStep q) s = nextOf s (clockStep q) := perform_of_accepted (decide_eq_true hq) hquad
    rw [hexec]
    exact nextOf_congr
      (clockStep_of_allowed (w := workOf s) hremoved hpowered hboundary hstepped hwaits hvolt hwant hdroop)
  · intro hk x droop
    have hexec : exec (.droopDetect q k) s = nextOf s (droopDetect q k) :=
      perform_of_accepted (operands_wf hq hk) hquad
    rw [hexec]
    exact ⟨fun hpaid => nextOf_congr (droopDetect_of_paid (w := workOf s) hpaid),
      fun hshort hfirst => nextOf_congr (droopDetect_of_short (w := workOf s) hshort hfirst)⟩
  · intro hdroop
    have hexec : exec (.droopClear q) s = nextOf s (droopClear q) := perform_of_accepted (decide_eq_true hq) hquad
    rw [hexec]
    exact nextOf_congr (droopClear_of_drooping (w := workOf s) hdroop)

end Sys2Proof.Proofs
end

section
/-! The array (03 R77, R79, 04 R92, R93, R102): a pass starts, completes, is rerun, and is taken from a tile queue. -/

namespace Sys2Proof.Proofs

open Sys2Proof.Machine

/-- A command that meets no correctable word does its own work alone. -/
theorem withCorrected_nil (f : Work → Work) : withCorrected [] f = f := by
  funext w
  exact ite_self (c := (f w).engines = w.engines) (f w)

/-! ## Start -/

/-- An engine that runs, with no rerun in progress on the half, turns to the half's next pass. -/
theorem startOn_of_first {e : Nat} {h : Bool} {ue : Option Nat} {w : Work} (hruns : engineRuns w.toBlk e = true)
    (hfirst : (halfOf (engineOf w.toBlk e) h).second = false) : startOn e h ue w = startNext e h ue w := by
  simp [startOn, hruns, hfirst]

/-- A half that has a next pass starts the one served first, where its chain is there and it may start. -/
theorem startNext_of_mayStart {e : Nat} {h : Bool} {ue : Option Nat} {w : Work} {r : PassReq}
    (hwaits : (halfOf (engineOf w.toBlk e) h).next.isSome = true) (hnext : nextFor w.toBlk (engineOf w.toBlk e) h = some r)
    (hchain : pStart r.desc = true ∨ holdsChain (halfOf (engineOf w.toBlk e) h) r.ctx = true)
    (hmay : mayStart w.toBlk (engineOf w.toBlk e) h r = true) : startNext e h ue w = startPass e h r ue w := by
  have hplaced : (halfOf (engineOf w.toBlk e) h).next.isNone = false := by
    rw [← Option.not_isSome, hwaits, Bool.not_true]
  have hcontinues : ¬ (pStart r.desc = false ∧ holdsChain (halfOf (engineOf w.toBlk e) h) r.ctx = false) := by
    rintro ⟨hstart, hholds⟩
    simp [hstart, hholds] at hchain
  simp only [startNext, hplaced, Bool.false_eq_true, if_false, hnext, if_neg hcontinues, if_pos hmay]

/-- What a pass that begins does: the charge, the entry of the finished-tile queue, the half's queue, the window's cursor, and
the run. -/
def passBegun (e : Nat) (h : Bool) (r : PassReq) (ue : Option Nat) (w : Work) : Work :=
  let d := r.desc
  let o := r.owner
  let hdr := if pASrc d = 1 then ringHeader w e (pAAddr d) else []
  let c := hCursor hdr
  let r' := { r with cur := if pASrc d = 1 then some c else none, charged := true }
  let y : QEntry := { ctx := r.ctx, tile := pTile d, m := pM d, n := pN d, fmt := pFmtOut d, status := none, vals := [] }
  let w := doIf (pDrainKind d == 2) (modEngine o (fun g => { g with vec.queue := g.vec.queue ++ [y] }))
    (charge o r.ctx (passCharge d) w)
  let w := doIf (pDrainKind d == 2) (fun w => quadPut (quadOf o) 0x53
    (max (quadGet w.toBlk (quadOf o) 0x53) (engineOf w.toBlk o).vec.queue.length) w) w
  let w := doIf (quadOf o != quadOf e) (fun w => quadAdd (quadOf o) 0x32 1 (quadAdd (quadOf e) 0x31 1 w)) w
  let w := doIf (pASrc d == 1) (storeCursor e (pAAddr d) (advanceCursor d hdr c)) (takeNext e h r w)
  retireUpdate e d (runPass e h r' ue w)

/-- A pass whose chain and ring pass their checks, with room for its tile and within its budget, begins (04 R92). -/
theorem startPass_of_covered {e : Nat} {h : Bool} {r : PassReq} {ue : Option Nat} {w : Work}
    (hlength : lengthCheck w.toBlk r.ctx (activePlace w.toBlk r.ctx) (pPreempt r.desc)
      ((halfOf (engineOf w.toBlk e) h).chain.foldl (fun a y => a + pLength y.desc) (pLength r.desc)) = none)
    (hwindow : pASrc r.desc = 1 → windowCheck w e r.desc = none)
    (hroom : pDrainKind r.desc = 2 →
      (entriesOf w.toBlk r.owner r.ctx).any (fun y => y.tile == pTile r.desc) = false ∧
        (entriesOf w.toBlk r.owner r.ctx).length < quotaOf w.toBlk r.owner r.ctx)
    (hbudget : chargeOf w.toBlk r.owner r.ctx + passCharge r.desc ≤ ctxGet w.toBlk r.ctx (0x11 + 16 * activePlace w.toBlk r.ctx)) :
    startPass e h r ue w = passBegun e h r ue w := by
  have hring : (if pASrc r.desc = 1 then windowCheck w e r.desc else none) = none := ite_eq_right_iff.2 hwindow
  have hnew : ¬ (pDrainKind r.desc = 2 ∧ (entriesOf w.toBlk r.owner r.ctx).any (fun y => y.tile == pTile r.desc) = true) :=
    fun ⟨hqueued, hheld⟩ => absurd hheld (Bool.eq_false_iff.1 (hroom hqueued).1)
  have hquota : ¬ (pDrainKind r.desc = 2 ∧ quotaOf w.toBlk r.owner r.ctx ≤ (entriesOf w.toBlk r.owner r.ctx).length) :=
    fun ⟨hqueued, hfull⟩ => Nat.not_lt.2 hfull (hroom hqueued).2
  simp only [startPass, hlength, hring, lowerCode, if_neg hnew, if_neg hquota, if_neg (Nat.not_lt.2 hbudget)]
  rfl

/-! ## Completion -/

/-- A pass that has read its operands is not computed again. -/
theorem computeRun_of_computed {e : Nat} {h : Bool} {ue : Option Nat} {w : Work} {run : PassRun} {acc : Accs}
    (hrun : (halfOf (engineOf w.toBlk e) h).run = some run) (hacc : run.acc = some acc) : computeRun e h ue w = w := by
  simp [computeRun, hrun, hacc]

/-- A computed pass that nothing has struck ends with the accumulators that it holds, and its duplicate agrees with it. -/
theorem completeOn_of_clean {e : Nat} {h : Bool} {w : Work} {run : PassRun} {acc : Accs}
    (hrun : (halfOf (engineOf w.toBlk e) h).run = some run) (hacc : run.acc = some acc) :
    completeOn e h .clean w =
      retireUpdate e run.req.desc
        (if pDrainKind run.req.desc = 0 then keepRun e h run acc w else drainRun e h run.req acc true w) := by
  have hunstruck : (Upset.clean != Upset.dup) = true := rfl
  simp [completeOn, computeRun_of_computed hrun hacc, hrun, hacc, upsetRun, hunstruck]

/-- A pass of a slice that goes on leaves its accumulators to the chain of its half (03 R61). -/
theorem keepRun_of_live {e : Nat} {h : Bool} {w : Work} {run : PassRun} {acc : Accs} (hacc : run.acc = some acc)
    (hlive : run.dead = false) :
    keepRun e h run acc w =
      tellSlot run.req 0 (modHalf e h (fun y => { y with run := none, kept := some run, chain := y.chain ++ [run.req] }) w) := by
  rw [keepRun, if_neg (Bool.eq_false_iff.1 hlive), ← hacc]

/-- What a pass that drains does: its half is free, and its tile and its status are delivered. -/
def passDrained (e : Nat) (h : Bool) (r : PassReq) (acc : Accs) (w : Work) : Work :=
  let d := r.desc
  let t := drainTile d h acc
  let w := doIf (hasSums d && (stAccSat t.2 || stSpecial t.2 != 0)) (quadAdd (quadOf e) 0xA6 1) w
  let w := modHalf e h (fun y => { y with run := none, kept := none, chain := [], second := false }) w
  let w := modEngine e (fun g => { g with status := t.2 }) w
  let w := tellSlot r t.2 (countDrain (quadOf e) t.2 (pSplit d) (deliverTile r t.1 t.2 w))
  doIf (pSemEn d) (signalSync r.owner (pSem d) 1) w

/-- A pass drains where its checksums agree, or saturation or a special value lets them pass (15 R386), and its duplicate
agrees. -/
theorem drainRun_of_agreed {e : Nat} {h : Bool} {r : PassReq} {acc : Accs} {w : Work}
    (hsums : hasSums r.desc = true → stAccSat (drainTile r.desc h acc).2 = false → stSpecial (drainTile r.desc h acc).2 = 0 →
      sumsMismatch r.desc acc = false) :
    drainRun e h r acc true w = passDrained e h r acc w := by
  have hagree : ¬ (hasSums r.desc = true ∧
      (stAccSat (drainTile r.desc h acc).2 || stSpecial (drainTile r.desc h acc).2 != 0) = false ∧
      sumsMismatch r.desc acc = true) := by
    rintro ⟨hhas, hskipped, hmismatch⟩
    obtain ⟨hsat, hspecial⟩ := Bool.or_eq_false_iff.1 hskipped
    exact absurd hmismatch (Bool.eq_false_iff.1 (hsums hhas hsat (bne_eq_false_iff_eq.1 hspecial)))
  have htwin : ¬ (pDup r.desc = true ∧ true = false) := fun ⟨_, hdiffers⟩ => nomatch hdiffers
  exact (if_neg hagree).trans (if_neg htwin)

/-! ## Rerun -/

/-- An abandoned chain starts again from its first pass on a half that is free for it and neither reruns nor keeps another,
where no higher pass waits (03 R79). -/
theorem rerunOn_of_free {e : Nat} {h : Bool} {ue : Option Nat} {w : Work} {r : PassReq} {rest : List PassReq}
    (hruns : engineRuns w.toBlk e = true) (hnext : nextRerun w.toBlk (halfOf (engineOf w.toBlk e) h) = some (r :: rest))
    (hfirst : (halfOf (engineOf w.toBlk e) h).second = false) (hkept : (halfOf (engineOf w.toBlk e) h).kept = none)
    (hfree : halfFree (engineOf w.toBlk e) h r.desc = true)
    (hhigher : (waitingNext (engineOf w.toBlk e)).any (fun p => above w.toBlk p.ctx r.ctx) = false) :
    rerunOn e h ue w =
      let w := doIf (pDup r.desc) (quadAdd (quadOf (partnerOf e)) 0x25 1) (quadAdd (quadOf e) 0x25 1 w)
      retireUpdate e r.desc (runPass e h r ue (modHalf e h (fun y =>
        { y with waiting := y.waiting.erase (r :: rest), rerun := rest, second := true, chain := [], loaded := [] }) w)) := by
  simp only [rerunOn, hnext, hruns, hfirst, hkept, hfree, hhigher, Option.isNone_none, Bool.not_false, Bool.and_self, if_true]

/-! ## The tile queues -/

/-- An engine with no pass to issue takes the entry served first of those open to it, out of the queue that holds it (04
R102). -/
theorem takeTile_of_first {e q : Nat} {h : Bool} {w : Work} {r : PassReq} (hruns : engineRuns w.toBlk e = true)
    (hidle : noPassToIssue w e = true)
    (hserved : firstServed w.toBlk ((w.tileq.flatMap (·.2)).filter (mayTake w.toBlk e)) = some r) (hquad : quadOf r.owner = q)
    (hhalf : halfFor w.toBlk (engineOf w.toBlk e) r.ctx r.desc = some h) :
    takeTile e q w = placeNext e h r { w with tileq := tabMod [] w.tileq q (fun l => l.erase r) } := by
  have hplaced : ¬ quadOf r.owner ≠ q := fun hother => hother hquad
  simp only [takeTile, hruns, hidle, Bool.and_self, if_true, hserved, if_neg hplaced, hhalf]

/-! ## The commands -/

/-- Settles O13: each clause is the branch that its conditions lead to. -/
theorem arrayCommands : Obligations.ArrayCommands := by
  intro s e q h r rest run acc he hthere g x place held
  have hengine : isEngine e s = true := decide_eq_true hthere
  have hcomplete : exec (.passComplete e h .clean) s = nextOf s (completeOn e h .clean) :=
    perform_of_accepted (by simp [Instr.wf, Upset.wf, he]) hengine
  refine ⟨?_, ?_, ?_, ?_, ?_⟩
  · intro hruns hfirst hwaits hnext hchain hmay hlength hwindow hroom hbudget
    have hexec : exec (.passStart e h none []) s = nextOf s (withCorrected [] (startOn e h none)) :=
      perform_of_accepted (by simp [Instr.wf, he]) hengine
    rw [hexec, withCorrected_nil]
    exact nextOf_congr (((startOn_of_first (w := workOf s) hruns hfirst).trans
      (startNext_of_mayStart hwaits hnext hchain hmay)).trans (startPass_of_covered hlength hwindow hroom hbudget))
  · intro hrun hacc hkeeps hlive
    rw [hcomplete]
    refine nextOf_congr ((completeOn_of_clean (w := workOf s) hrun hacc).trans ?_)
    rw [if_pos hkeeps, keepRun_of_live hacc hlive]
  · intro hrun hacc hdrains hsums
    rw [hcomplete]
    refine nextOf_congr ((completeOn_of_clean (w := workOf s) hrun hacc).trans ?_)
    rw [if_neg hdrains, drainRun_of_agreed hsums]
    rfl
  · intro hruns hnext hfirst hkept hfree hhigher
    have hexec : exec (.passRerun e h none []) s = nextOf s (withCorrected [] (rerunOn e h none)) :=
      perform_of_accepted (by simp [Instr.wf, he]) hengine
    rw [hexec, withCorrected_nil]
    exact nextOf_congr (rerunOn_of_free (w := workOf s) hruns hnext hfirst hkept hfree hhigher)
  · intro hq hgrade hruns hidle hserved hquad hhalf
    have hexec : exec (.tileTake e q) s = nextOf s (takeTile e q) :=
      perform_of_accepted (by simp [Instr.wf, he, hq]) (by simp [hengine, hgrade])
    rw [hexec]
    exact nextOf_congr (takeTile_of_first (w := workOf s) hruns hidle hserved hquad hhalf)

end Sys2Proof.Proofs
end

section
/-! The issue of an instruction (04 R80, R82, R86): what every row of the sequencers has in common, and the control
instructions, which hand no work to a unit. -/

namespace Sys2Proof.Proofs

open Sys2Proof.Machine

/-! ## Issue -/

/-- Where the slot that the sequencer picks stands at a sound instruction of the row's kind, the row charges the issue and
does the instruction's own work. -/
theorem issueRow_of_sound {e k i : Nat} {sel : Work → Slot → Nat → Bool} {f : Nat → Slot → Nat → Work → Work} {w : Work}
    (hpick : pickSlot w e = some k) (hword : fetchWord w e (slotOf (engineOf w.toBlk e) k).pc = i)
    (hfetch : fetchOk w.toBlk e (slotOf (engineOf w.toBlk e) k).pc = true) (hsound : iCheck i = none)
    (hsel : sel w (slotOf (engineOf w.toBlk e) k) i = true) :
    issueRow e sel f w = f k (slotOf (engineOf w.toBlk e) k) i (issued e k w) := by
  simp only [issueRow, hpick, hword, hsel, hfetch, hsound, if_true]
  rfl

/-- Where its word is refused by its own bits, the row refuses the program and issues nothing (04 R106). -/
theorem issueRow_of_refused {e k i c : Nat} {sel : Work → Slot → Nat → Bool} {f : Nat → Slot → Nat → Work → Work} {w : Work}
    (hpick : pickSlot w e = some k) (hword : fetchWord w e (slotOf (engineOf w.toBlk e) k).pc = i)
    (hfetch : fetchOk w.toBlk e (slotOf (engineOf w.toBlk e) k).pc = true) (hrefused : iCheck i = some c)
    (hsel : sel w (slotOf (engineOf w.toBlk e) k) i = true) :
    issueRow e sel f w = refuseProgram e (slotOf (engineOf w.toBlk e) k).ctx c w := by
  simp only [issueRow, hpick, hword, hsel, hfetch, hrefused, if_true]

/-- A command that runs an instruction row has the effect of the instruction, where the sequencer issues one of its kind. -/
theorem exec_of_issues {s : State} {e k i : Nat} {c : Instr} {ok : Bool} {sel : Work → Slot → Nat → Bool}
    {f : Nat → Slot → Nat → Work → Work} {g : Work → Work} (hissues : Issues s e k i)
    (hexec : exec c s = perform ok (isEngine e s) (issueRow e sel f) s) (hok : ok = true)
    (hsel : sel (workOf s) (slotOf (engineOf (start s) e) k) i = true)
    (heffect : f k (slotOf (engineOf (start s) e) k) i (issued e k (workOf s)) = g (workOf s)) :
    exec c s = nextOf s g := by
  obtain ⟨-, hthere, hpick, hword, hfetch, hsound⟩ := hissues
  have hengine : isEngine e s = true := decide_eq_true hthere
  rw [hexec, perform_of_accepted hok hengine]
  exact nextOf_congr ((issueRow_of_sound hpick hword hfetch hsound hsel).trans heffect)

theorem isOp_of_eq {op i : Nat} (hop : iOp i = op) (w : Work) (sl : Slot) : isOp op w sl i = true := beq_iff_eq.2 hop

/-! ## The control instructions -/

/-- The slot's last pass keeps its accumulators, so that its chain is still open (04 R93). -/
def chainOpen (sl : Slot) : Bool :=
  match sl.last with
  | some l => !l.drains
  | none => false

theorem issueEnd_of_closed {e k i : Nat} {sl : Slot} {w : Work} (hclosed : chainOpen sl = false) :
    issueEnd e k sl i w = modSlot e k (fun x => { x with wait := .ending }) w :=
  if_neg (Bool.eq_false_iff.1 hclosed)

/-- A loop opens whose counter is free and whose body lies inside the open loops and the store (04 R84). -/
theorem issueLoop_of_inside {e k i : Nat} {sl : Slot} {w : Work} (hfree : nth none sl.loops (iLc i) = none)
    (hinside : insideLoops sl (sl.pc + iBody i) = true) (hstore : fetchOk w.toBlk e (sl.pc + iBody i) = true) :
    issueLoop e k sl i w =
      let l : LoopCtr := { left := iCount i - 1, first := sl.pc + 1, last := sl.pc + iBody i }
      modSlot e k (fun x => { x with loops := setNth x.loops (iLc i) (some l) }) w :=
  if_neg (by simp [hfree, hinside, hstore])

theorem issueWait_of_named {e k i : Nat} {sl : Slot} {w : Work}
    (hnamed : syncIssueOk w.toBlk sl.ctx (iSync i) .semaphore = true) :
    issueWait e k sl i w =
      modSlot e k (fun x => { x with wait := .sem (iSync i) (iAmount i), charge := x.charge + syncCycles e i })
        (addWaiter (iSync i) { engine := e, ctx := sl.ctx, amount := iAmount i } w) :=
  if_neg (by simp [hnamed])

theorem issueSignal_of_named {e k i : Nat} {sl : Slot} {w : Work}
    (hnamed : syncIssueOk w.toBlk sl.ctx (iSync i) .semaphore = true) :
    issueSignal e k sl i w = signalSync e (iSync i) (iAmount i) w :=
  if_neg (by simp [hnamed])

theorem issueBarrier_of_named {e k i : Nat} {sl : Slot} {w : Work}
    (hnamed : syncIssueOk w.toBlk sl.ctx (iSync i) .barrier = true) :
    issueBarrier e k sl i w =
      modSlot e k (fun x => { x with wait := .barrier (iSync i), charge := x.charge + syncCycles e i })
        { w with syncs := tabMod none w.syncs (iSync i) (fun o =>
            o.map (fun o => o.arrive { engine := e, ctx := sl.ctx, amount := 0 })) } :=
  if_neg (by simp [hnamed])

/-- A branch whose pass has drained with a known status, and whose target lies inside the open loops and the store, is
taken where its condition holds (04 R85). -/
theorem issueBrs_of_known {e k i st : Nat} {sl : Slot} {l : LastPass} {w : Work} (hlast : sl.last = some l)
    (hdrains : l.drains = true) (hstatus : l.status = some st) (hinside : insideLoops sl (sl.pc + iOffset i + 1) = true)
    (hstore : fetchOk w.toBlk e (sl.pc + iOffset i + 1) = true) :
    issueBrs e k sl i w =
      doIf (brsHolds (iCond i) st) (modSlot e k (fun x => { x with pc := sl.pc + iOffset i + 1 })) w := by
  have htarget : ¬ (insideLoops sl (sl.pc + iOffset i + 1) = false ∨ fetchOk w.toBlk e (sl.pc + iOffset i + 1) = false) := by
    simp [hinside, hstore]
  simp only [issueBrs, hlast, hdrains, hstatus, if_true, if_neg htarget]
  rfl

/-- Settles O9: each row issues the instruction that the sequencer stands at, and its effect is the branch that the
conditions lead to. -/
theorem controlInstructions : Obligations.ControlInstructions := by
  intro s e k i hissues sl b
  have hok : decide (e < 256) = true := decide_eq_true hissues.1
  refine ⟨?_, ?_, ?_, ?_, ?_, ?_, ?_, ?_, ?_, ?_⟩
  · intro hop
    exact exec_of_issues (f := issueNop) hissues rfl hok (isOp_of_eq hop _ _) rfl
  · intro hop
    exact exec_of_issues (f := issueSetdp e) hissues rfl hok (isOp_of_eq hop _ _) rfl
  · intro hop
    exact exec_of_issues (f := issueMark e) hissues rfl hok (isOp_of_eq hop _ _) rfl
  · intro hop
    exact exec_of_issues (f := issueFence e) hissues rfl hok (isOp_of_eq hop _ _) rfl
  · intro hop hclosed
    exact exec_of_issues hissues rfl hok (isOp_of_eq hop _ _) (issueEnd_of_closed hclosed)
  · intro hop hfree hinside hstore
    exact exec_of_issues hissues rfl hok (isOp_of_eq hop _ _) (issueLoop_of_inside hfree hinside hstore)
  · intro hop hnamed
    exact exec_of_issues hissues rfl hok (isOp_of_eq hop _ _) (issueWait_of_named hnamed)
  · intro hop hnamed
    exact exec_of_issues hissues rfl hok (isOp_of_eq hop _ _) (issueSignal_of_named hnamed)
  · intro hop hnamed
    exact exec_of_issues hissues rfl hok (isOp_of_eq hop _ _) (issueBarrier_of_named hnamed)
  · intro l st hop hlast hdrains hstatus hinside hstore
    exact exec_of_issues hissues rfl hok (isOp_of_eq hop _ _) (issueBrs_of_known hlast hdrains hstatus hinside hstore)

/-! ## Reserved opcodes -/

theorem iCheck_of_reserved {i : Nat} (hreserved : 0x0E ≤ iOp i) : iCheck i = some 0x02 := if_pos hreserved

/-- Settles O10: the word's own check refuses every opcode that is not listed, before the issue is charged. -/
theorem reservedOpcodesRefused : Obligations.ReservedOpcodesRefused := by
  intro s e k i he hthere hpick hword hfetch hreserved
  have hexec : exec (.reservedOpcode e) s = nextOf s (issueRow e reservedSel issueNop) :=
    perform_of_accepted (decide_eq_true he) (decide_eq_true hthere)
  refine ⟨iCheck_of_reserved hreserved, ?_⟩
  rw [hexec]
  exact nextOf_congr
    (issueRow_of_refused hpick hword hfetch (iCheck_of_reserved hreserved) (decide_eq_true hreserved))

end Sys2Proof.Proofs
end

section
/-! The instructions that hand work to the array, the vector engine and DMA (04 R82, R92, R98, R101, 06 R138): a descriptor
that passes its checks takes its place in the order of issue. -/

namespace Sys2Proof.Proofs

open Sys2Proof.Machine

/-- A PASS whose descriptor passes its checks and the chain rule, with room on a half, becomes the half's next pass and the
slot's last (04 R93). -/
theorem issuePass_of_placed {e k i : Nat} {h : Bool} {sl : Slot} {w : Work}
    (hrange : spmRangeOk w.toBlk sl.ctx e (descAddr sl i) 32 = true)
    (hcheck : passCheck w.toBlk sl.ctx (activePlace w.toBlk sl.ctx) e (descAt w e sl i) false false = none)
    (hrule : chainRule sl (descAt w e sl i) = true)
    (hheld : pStart (descAt w e sl i) = true ∨ (chainHalf (engineOf w.toBlk e) sl.ctx).isSome = true)
    (hhalf : halfFor w.toBlk (engineOf w.toBlk e) sl.ctx (descAt w e sl i) = some h) :
    issuePass e k sl i w =
      let d := descAt w e sl i
      let r : PassReq := { owner := e, ctx := sl.ctx, desc := d, queued := false, mark := 0, cur := none, charged := false,
                           ord := sl.charge, stamp := w.issues }
      let l : LastPass := { drains := pDrainKind d != 0, lsb := pAccLsb d, bf := pBf d, split := pSplit d, status := none,
                            ord := sl.charge }
      useDp e k i (modSlot e k (fun x => { x with last := some l }) (placeNext e h r (issueStamp w))) := by
  have hcontinues : ¬ (chainRule sl (descAt w e sl i) = false ∨
      (pStart (descAt w e sl i) = false ∧ (chainHalf (engineOf w.toBlk e) sl.ctx).isNone = true)) := by
    rintro (hbroken | ⟨hcontinued, hnone⟩)
    · exact absurd hrule (Bool.eq_false_iff.1 hbroken)
    · rcases hheld with hstart | hsome
      · exact absurd hstart (Bool.eq_false_iff.1 hcontinued)
      · exact absurd hsome (by simpa using hnone)
  simp only [issuePass, hrange, Bool.true_eq_false, if_false, hcheck, if_neg hcontinues, hhalf]

/-- A PASSQ whose descriptor passes its checks, on a slot without an open chain, joins the tile queue of its quad (04 R101). -/
theorem issuePassq_of_closed {e k i : Nat} {sl : Slot} {w : Work}
    (hrange : spmRangeOk w.toBlk sl.ctx e (descAddr sl i) 32 = true)
    (hcheck : passCheck w.toBlk sl.ctx (activePlace w.toBlk sl.ctx) e (descAt w e sl i) true false = none)
    (hclosed : chainOpen sl = false) :
    issuePassq e k sl i w =
      let d := descAt w e sl i
      let r : PassReq := { owner := e, ctx := sl.ctx, desc := d, queued := true, mark := effectiveMark w.toBlk sl.ctx i d,
                           cur := none, charged := false, ord := sl.charge, stamp := w.issues }
      let l := tabGet [] w.tileq (quadOf e) ++ [r]
      let w := { issueStamp w with tileq := tabSet [] w.tileq (quadOf e) l }
      useDp e k i (quadPut (quadOf e) 0x30 (max (quadGet w.toBlk (quadOf e) 0x30) l.length) w) := by
  simp only [issuePassq, hrange, Bool.true_eq_false, if_false, hcheck]
  exact if_neg (Bool.eq_false_iff.1 hclosed)

/-- A VCHAIN whose descriptor passes its checks joins the chains issued (06 R138). -/
theorem issueVchain_of_checked {e k i : Nat} {sl : Slot} {w : Work}
    (hrange : spmRangeOk w.toBlk sl.ctx e (descAddr sl i) 32 = true)
    (hcheck : chainCheck w sl.ctx (activePlace w.toBlk sl.ctx) e (descAt w e sl i) false = none) :
    issueVchain e k sl i w =
      useDp e k i (modEngine e (fun g => { g with vec.issued := g.vec.issued ++
        [{ ctx := sl.ctx, desc := descAt w e sl i, stamp := w.issues }] }) (issueStamp w)) := by
  simp only [issueVchain, hrange, Bool.true_eq_false, if_false, hcheck]

/-- What a transfer does as it is issued: its output is noted, its use counted, its rows written up to the first that must
wait (log 24), and the rest kept with the transfers of the engine. -/
def transferIssued (e n f : Nat) (w : Work) : Work :=
  let targets := dmaTargets w.toBlk n (activePlace w.toBlk n) f
  let job : DmaJob := { ctx := n, desc := f, stamp := w.issues, next := 0, targets, held := [] }
  let w := doIf (dDst f == 3) (modSlice n (fun x => { x with outs := Nat.lor x.outs (2 ^ outBit e (dDstAddr f)) })) w
  let r := dmaRows e (dRows f) job (issueStamp (countDma e n f targets w))
  modEngine e (fun g => { g with dma := g.dma ++ [r.1] }) r.2

/-- A DMA whose descriptor passes its checks, with no uncorrectable word in its source, is issued (04 R98, R99). -/
theorem issueDma_of_checked {e k i : Nat} {sl : Slot} {w : Work}
    (hrange : spmRangeOk w.toBlk sl.ctx e (32 * iAddr i) 32 = true)
    (hcheck : dmaCheck w.toBlk sl.ctx (activePlace w.toBlk sl.ctx) e (rdNat w (spmKey e (32 * iAddr i)) 32) false = none) :
    issueDma e none k sl i w = transferIssued e sl.ctx (rdNat w (spmKey e (32 * iAddr i)) 32) w := by
  simp only [issueDma, hrange, Bool.true_eq_false, if_false, hcheck]
  rfl

/-- A copy or a broadcast that meets no correctable word runs its row alone. -/
theorem perform_dmaRow_clean (ok there : Bool) (kind e : Nat) (s : State) :
    perform ok there (withCorrected [] (dmaRow kind e none)) s =
      perform ok there (issueRow e (dmaSel e kind) (issueDma e none)) s := by
  rw [withCorrected_nil]
  rfl

/-- Settles O11: each row issues the instruction that the sequencer stands at; its descriptor passes every check, so its work
takes its place. That a transfer's rows are written at issue up to the first that must wait is log 24 (and 25). -/
theorem workInstructions : Obligations.WorkInstructions := by
  intro s e k i hissues sl v n d f place
  have he : e < 256 := hissues.1
  have hok : decide (e < 256) = true := decide_eq_true he
  refine ⟨?_, ?_, ?_, ?_⟩
  · intro h hop hrange hcheck hrule hheld hhalf issue
    have hplaced := issuePass_of_placed (k := k) hrange hcheck hrule hheld hhalf
    have hrow : ∀ {c : Instr} {kind : Nat}, exec c s = perform (decide (e < 256)) (isEngine e s) (passRow kind e) s →
        passSel e kind (workOf s) sl i = true → exec c s = issue := fun hexec hsel =>
      exec_of_issues hissues hexec hok hsel hplaced
    exact ⟨hrow rfl, hrow rfl, hrow rfl, hrow rfl, hrow rfl⟩
  · intro hop hrange hcheck hclosed
    exact exec_of_issues hissues rfl hok (isOp_of_eq hop _ _) (issuePassq_of_closed hrange hcheck hclosed)
  · intro hop hrange hcheck
    exact exec_of_issues hissues rfl hok (isOp_of_eq hop _ _) (issueVchain_of_checked hrange hcheck)
  · intro hrange hcheck move
    have hmoved := issueDma_of_checked (k := k) hrange hcheck
    have hclean : (decide (e < 256) && ([] : List Nat).all (fun x => decide (x < 256))) = true := by simp [he]
    refine ⟨fun hsel => ?_, fun hsel => ?_, fun hsel => ?_⟩
    · exact exec_of_issues hissues (perform_dmaRow_clean _ _ 0 e s) hclean hsel hmoved
    · exact exec_of_issues hissues (perform_dmaRow_clean _ _ 1 e s) hclean hsel hmoved
    · exact exec_of_issues hissues rfl hok hsel hmoved

end Sys2Proof.Proofs
end

section
/-! The moments at which a slot that waits goes on, and at which it is free again (04 R82, R96, R97). -/

namespace Sys2Proof.Proofs

open Sys2Proof.Machine

/-- The first waiter of a semaphore whose count suffices takes its amount and goes on. -/
theorem waitReturn_of_first {e n k o a : Nat} {x : SyncObj} {first : Waiter} {rest : List Waiter} {w : Work}
    (hslot : slotIx w.toBlk e n = some k) (hwait : (slotOf (engineOf w.toBlk e) k).wait = .sem o a)
    (hobj : syncOf w.toBlk o = some x) (hwaiters : x.waiters = first :: rest) (hengine : first.engine = e)
    (hctx : first.ctx = n) (hcount : a ≤ x.count) :
    waitReturn e n w =
      modSlot e k (fun y => { y with wait := .ready })
        { w with syncs := tabSet none w.syncs o (some { x with count := x.count - a, waiters := rest }) } := by
  have hfirst : first.engine = e ∧ first.ctx = n ∧ a ≤ x.count := ⟨hengine, hctx, hcount⟩
  simp only [waitReturn, hslot, hwait, hobj, hwaiters, if_pos hfirst]

theorem barrierRelease_of_obj {o : Nat} {x : SyncObj} {w : Work} (hobj : syncOf w.toBlk o = some x) :
    barrierRelease o w =
      forAll x.freed wakeWaiter { w with syncs := tabSet none w.syncs o (some { x with freed := [] }) } := by
  simp only [barrierRelease, hobj]

/-- A FENCE returns when nothing of the kinds that it selects is outstanding. -/
theorem fenceReturn_of_done {e n k m : Nat} {w : Work} (hslot : slotIx w.toBlk e n = some k)
    (hwait : (slotOf (engineOf w.toBlk e) k).wait = .fence m) (hpasses : bit m 0 = true → passesOut w.toBlk e n = false)
    (hchains : bit m 1 = true → chainsOut w.toBlk e n = false) (hdma : bit m 2 = true → dmaOut w.toBlk e n = false) :
    fenceReturn e n w = modSlot e k (fun y => { y with wait := .ready }) w := by
  have hdone : ((bit m 0 && passesOut w.toBlk e n) || (bit m 1 && chainsOut w.toBlk e n) ||
      (bit m 2 && dmaOut w.toBlk e n)) = false := by
    simpa [and_assoc] using ⟨hpasses, hchains, hdma⟩
  simp only [fenceReturn, hslot, hwait, hdone, Bool.false_eq_true, if_false]

/-- A slice whose END has issued, with nothing outstanding and no entry left on the engine, frees its slot there. -/
theorem sliceEnd_of_done {e n k : Nat} {w : Work} (hslot : slotIx w.toBlk e n = some k)
    (hwait : (slotOf (engineOf w.toBlk e) k).wait = .ending) (hpasses : passesOut w.toBlk e n = false)
    (hchains : chainsOut w.toBlk e n = false) (hdma : dmaOut w.toBlk e n = false) (hentries : entriesOf w.toBlk e n = []) :
    sliceEnd e n w =
      let w := modSlot e k (fun _ => { Slot.idle with ctx := n }) (freeEntries e n w)
      let w := modSlice n (fun y => { y with open_ := y.open_.filter (· != e) }) w
      if (sliceOf w.toBlk n).open_.isEmpty then sliceDone n w else w := by
  have hended : (Waiting.ending == Waiting.ending) = true := rfl
  simp only [sliceEnd, hslot, hwait, hended, hpasses, hchains, hdma, hentries, Bool.not_false, Bool.and_self, if_true]
  rfl

/-- Settles O12: each clause is the branch that its conditions lead to. -/
theorem slotReturns : Obligations.SlotReturns := by
  intro s e n k o x he hn hthere hctx
  have hok : (decide (e < 256) && decide (n < 1024)) = true := by simp [he, hn]
  have hunit : (isEngine e s && ctxExists s.blk.fuses n) = true := by
    rw [isEngine, decide_eq_true hthere, hctx, Bool.and_self]
  refine ⟨?_, ?_, ?_, ?_⟩
  · intro a first rest hslot hwait hobj hwaiters hengine hfirst hcount
    have hexec : exec (.waitReturn e n) s = nextOf s (waitReturn e n) := perform_of_accepted hok hunit
    rw [hexec]
    exact nextOf_congr (waitReturn_of_first (w := workOf s) hslot hwait hobj hwaiters hengine hfirst hcount)
  · intro ho hdie hobj _ _
    have hexec : exec (.barrierRelease o) s = nextOf s (barrierRelease o) :=
      perform_of_accepted (decide_eq_true ho) (decide_eq_true hdie)
    rw [hexec]
    exact nextOf_congr (barrierRelease_of_obj (w := workOf s) hobj)
  · intro m hslot hwait hpasses hchains hdma
    have hexec : exec (.fenceReturn e n) s = nextOf s (fenceReturn e n) := perform_of_accepted hok hunit
    rw [hexec]
    exact nextOf_congr (fenceReturn_of_done (w := workOf s) hslot hwait hpasses hchains hdma)
  · intro hslot hwait hpasses hchains hdma hentries
    have hexec : exec (.sliceEnd e n) s = nextOf s (sliceEnd e n) := perform_of_accepted hok hunit
    rw [hexec]
    exact nextOf_congr (sliceEnd_of_done (w := workOf s) hslot hwait hpasses hchains hdma hentries)

end Sys2Proof.Proofs
end

section
/-! The vector engine and the transfers (04 R99, 05 R110, 06 R149, R150, R152): a chain starts and completes, a transfer goes
on and completes. -/

namespace Sys2Proof.Proofs

open Sys2Proof.Machine

/-! ## Chains -/

/-- The one chain that is ready, of which no higher slice holds the engine, starts where its entries fit it and its budget
covers it, and reads its fill (06 R149, R150). -/
theorem startChain_of_covered {e : Nat} {c : ChainReq} {w : Work} (hruns : engineRuns w.toBlk e = true)
    (hidle : (engineOf w.toBlk e).vec.running = none)
    (hready : (firstChains (engineOf w.toBlk e).vec.issued).filter
      (fun y => chainReady w.toBlk e y && noHigher w.toBlk e y.ctx) = [c])
    (hentries : entriesOk c.desc (chainEntries w.toBlk e c) = true)
    (hbudget : chargeOf w.toBlk e c.ctx + chainLength c.desc (stagesOf w e c.desc) ≤
      ctxGet w.toBlk c.ctx (0x11 + 16 * activePlace w.toBlk c.ctx)) :
    startChain e w =
      let len := chainLength c.desc (stagesOf w e c.desc)
      fillChain e (modSlice c.ctx (fun y => { y with quads := Nat.lor y.quads (2 ^ quadOf e) })
        (modEngine e (fun g => { g with vec.issued := g.vec.issued.erase c, vec.running := some { req := c, len, fill := none } })
          (charge e c.ctx len w))) := by
  simp only [startChain, hruns, hidle, hready, hentries, List.foldl_cons, List.foldl_nil, Option.isSome_none,
    Bool.true_eq_false, Bool.false_eq_true, or_self, if_false, if_neg (Nat.not_lt.2 hbudget)]

/-- A chain whose fill has been read keeps it. -/
theorem fillChain_of_filled {e : Nat} {w : Work} {run : ChainRun} {fill : List (Nat × List Byte)}
    (hrun : (engineOf w.toBlk e).vec.running = some run) (hfill : run.fill = some fill) : fillChain e w = w := by
  simp [fillChain, hrun, hfill]

section Filled

variable {e : Nat} {w : Work} {run : ChainRun} {fill : List (Nat × List Byte)}
  (hrun : (engineOf w.toBlk e).vec.running = some run) (hfill : run.fill = some fill)
  (hfree : heldBack w.toBlk e run.req.stamp (tileReads run.req.desc (fill.map (·.1))) = false)

include hrun hfill hfree

/-- A running chain with its fill, whose operands no pass holds back, ends (06 R152). -/
theorem completeChain_of_filled : completeChain e none w = endChain e run.req fill w := by
  simp only [completeChain, fillChain_of_filled hrun hfill, hrun, hfill, hfree, Bool.false_eq_true, if_false]

/-- One that meets an uncorrectable word is reported and abandoned instead (06 R154). -/
theorem completeChain_of_struck (a : Nat) :
    completeChain e (some a) w = abandonChain e (raiseBy e 1 0x030 e (a / 8 * 8) (quadAdd (quadOf e) 0x64 1 w)) := by
  simp only [completeChain, fillChain_of_filled hrun hfill, hrun, hfill, hfree, Bool.false_eq_true, if_false]

end Filled

theorem exec_chainComplete {s : State} {e : Nat} (ue : Option Nat) (he : e < 256) (hthere : e < engineCount s.blk.fuses) :
    exec (.chainComplete e ue []) s = nextOf s (completeChain e ue) := by
  have hexec : exec (.chainComplete e ue []) s = nextOf s (withCorrected [] (completeChain e ue)) :=
    perform_of_accepted (by simp [Instr.wf, he]) (decide_eq_true hthere)
  rw [hexec, withCorrected_nil]

/-! ## Transfers -/

/-- A transfer that its port does not hold, of which every row can be written, writes them, leaves the engine and signals (04
R99). -/
theorem dmaComplete_of_written {e j : Nat} {job : DmaJob} {w : Work} (hjob : (engineOf w.toBlk e).dma[j]? = some job)
    (hheld : job.held = []) (hclear : (dmaRows e (dRows job.desc) job w).1.held = [])
    (hrows : dRows (dmaRows e (dRows job.desc) job w).1.desc ≤ (dmaRows e (dRows job.desc) job w).1.next) :
    dmaComplete e j w =
      let r := dmaRows e (dRows job.desc) job w
      doIf (dSemEn r.1.desc) (signalSync e (dSem r.1.desc) 1)
        (progress e r.1.ctx (modEngine e (fun g => { g with dma := g.dma.eraseIdx j })
          (modEngine e (fun g => { g with dma := setNth g.dma j r.1 }) r.2))) := by
  simp only [dmaComplete, hjob, hheld, List.isEmpty_nil, if_true, hclear, decide_eq_true hrows, Bool.and_self]

/-- Settles O14: each clause is the branch that its conditions lead to. That held rows go on at the completion and at
LB_HELD_WRITE_RESUME is log 24 and log 25. -/
theorem vectorAndTransferCommands : Obligations.VectorAndTransferCommands := by
  intro s e j a len c run fill job he hthere
  have hok : decide (e < 256) = true := decide_eq_true he
  have hengine : isEngine e s = true := decide_eq_true hthere
  refine ⟨?_, ?_, ?_, ?_⟩
  · rintro hruns hidle hready hentries rfl hbudget
    have hexec : exec (.chainStart e) s = nextOf s (startChain e) := perform_of_accepted hok hengine
    rw [hexec]
    exact nextOf_congr (startChain_of_covered (w := workOf s) hruns hidle hready hentries hbudget)
  · intro hrun hfill hfree
    refine ⟨?_, ?_⟩
    · rw [exec_chainComplete none he hthere]
      exact nextOf_congr (completeChain_of_filled (w := workOf s) hrun hfill hfree)
    · rw [exec_chainComplete (some a) he hthere]
      exact nextOf_congr (completeChain_of_struck (w := workOf s) hrun hfill hfree a)
  · intro hjob hheld hclear hrows
    have hexec : exec (.dmaComplete e j) s = nextOf s (dmaComplete e j) := perform_of_accepted hok hengine
    rw [hexec]
    exact nextOf_congr (dmaComplete_of_written (w := workOf s) hjob hheld hclear hrows)
  · exact perform_of_accepted (f := fun w => dmaResume e j (writersResume w)) hok hengine

end Sys2Proof.Proofs
end

section
/-! The addressed stores (07 R156, R163): their canonical form, and what a command reads under its own stores. -/

namespace Sys2Proof.Proofs

open Sys2Proof.Machine

/-! ## The canonical form -/

/-- What a command that answers a next state has done: its effect on the command's work, whose stores are then applied. -/
theorem exec_next_eq_commitWork {c : Instr} {s t : State} (hnext : exec c s = .next t) : ∃ w : Work, t = commitWork s w := by
  obtain ⟨f, hexec⟩ := exec_eq_perform c s
  obtain ⟨-, -, ht⟩ := Laws.perform_cases (hexec ▸ hnext)
  exact ⟨f (workOf s), ht⟩

/-- What a step that answers a next state has done: nothing where no command waits, or the work of the one at the front. -/
theorem step_next_cases {s t : State} (hnext : step s = .next t) :
    (s.pending = [] ∧ t = s) ∨ ∃ c rest w, s.pending = c :: rest ∧ t = commitWork { s with pending := rest } w := by
  unfold step at hnext
  split at hnext
  case h_1 hidle =>
    cases hnext
    exact .inl ⟨hidle, rfl⟩
  case h_2 c rest hfront =>
    obtain ⟨w, ht⟩ := exec_next_eq_commitWork hnext
    exact .inr ⟨c, rest, w, hfront, ht⟩

/-- Settles O48: whatever a command works out, it changes memory only as its stores are applied, and that keeps the form. -/
theorem memoryStaysCanonical : Obligations.MemoryStaysCanonical := by
  intro s t hinv hstep
  obtain ⟨-, rfl⟩ | ⟨c, rest, w, -, rfl⟩ := step_next_cases hstep
  · exact hinv
  · exact Laws.commitWork_wf hinv w

/-! ## Reading under a command's own stores -/

/-- Entries of memory away from the address read make no difference. -/
theorem memLook_filter_mem (m : List Host.Cell) (ws : List (Nat × List Byte)) (keep : Host.Cell → Bool) (x : Nat)
    (hkeep : ∀ p ∈ m, p.1 = x → keep p = true) : memLook (m.filter keep) ws x = memLook m ws x := by
  induction ws with
  | nil => exact Laws.memByte_filter m keep x hkeep
  | cons store older ih => simp only [memLook, ih]

/-- Neither do stores that do not cover it. -/
theorem memLook_filter_stores (m : List Host.Cell) (ws : List (Nat × List Byte)) (keep : Nat × List Byte → Bool) (x : Nat)
    (hkeep : ∀ p ∈ ws, p.1 ≤ x ∧ x < p.1 + p.2.length → keep p = true) : memLook m (ws.filter keep) x = memLook m ws x := by
  induction ws with
  | nil => rfl
  | cons store older ih =>
    have ih := ih (fun p hp => hkeep p (List.mem_cons_of_mem store hp))
    by_cases hkept : keep store = true
    · rw [List.filter_cons_of_pos hkept, memLook, memLook, ih]
    · have hmisses : ¬ (store.1 ≤ x ∧ x < store.1 + store.2.length) := fun hcovers =>
        hkept (hkeep store List.mem_cons_self hcovers)
      rw [List.filter_cons_of_neg hkept, memLook, if_neg hmisses, ih]

/-- A read is byte for byte what its addresses hold under the stores: `memRange` only leaves out what it does not touch. -/
theorem rd_eq_map_memLook (w : Work) (a k : Nat) : rd w a k = (List.range k).map (fun i => memLook w.mem w.wr (a + i)) := by
  refine List.map_congr_left fun i hi => ?_
  have hi : i < k := List.mem_range.1 hi
  rw [memLook_filter_mem, memLook_filter_stores]
  · intro p _ hcovers
    simp only [Bool.and_eq_true, decide_eq_true_eq]
    omega
  · intro p _ hp
    simp only [Bool.and_eq_true, decide_eq_true_eq]
    omega

/-- Settles O52: the stores applied to memory leave each byte as the command read it under them. -/
theorem commandReadsItsStores : Obligations.CommandReadsItsStores := by
  intro s w a k hmem
  rw [rd_eq_map_memLook, rd_eq_map_memLook, Laws.workOf_mem, Laws.workOf_wr, Laws.commitWork_mem, hmem]
  exact List.map_congr_left fun i _ => (Laws.memByte_memPutAll s.mem w.wr (a + i)).symm

end Sys2Proof.Proofs
end

section
/-! The host's memory access (07 R175): a frame that completes its message is served, and what a host write stores. -/

namespace Sys2Proof.Proofs

open Sys2Proof.Machine

/-! ## A frame that completes its message (12 R313, R314) -/

@[simp] theorem sessionOf_modSession (link : Nat) (f : Session → Session) (w : Work) :
    sessionOf (modSession link f w).toBlk link = f (sessionOf w.toBlk link) := by
  unfold sessionOf modSession
  split <;> rfl

/-- Noting a frame's time opens no answer to a TAG and closes none. -/
@[simp] theorem heldAnswer_heard (link : Nat) (hd : Hdr) (w : Work) :
    heldAnswer (heard link w).toBlk hd = heldAnswer w.toBlk hd := by
  unfold heard modSession
  split <;> rfl

/-- A frame that its session's checks find right is not refused. -/
theorem frameRefused_of_valid {rtype : Nat} {hd : Hdr} {w : Work} (hlink : linkServes w.toBlk hd.link hd.port = true)
    (hsender : stranger w.toBlk hd = false) (hup : (sessionOf w.toBlk hd.link).up = true)
    (hversion : hd.version = (sessionOf w.toBlk hd.link).version) (hreserved : hd.reserved = 0) (hflags : hd.flags < 4) :
    frameRefused rtype hd w = none := by
  have hright : ¬ (hd.version ≠ (sessionOf w.toBlk hd.link).version ∨ hd.reserved ≠ 0 ∨ 4 ≤ hd.flags) := by
    simp [← hversion, hreserved, hflags]
  rw [frameRefused, if_neg (by simp [hlink]), if_neg (by simp [hsender]), if_neg (by simp [hup]), if_neg hright]

/-- A frame with LAST that goes on where its message stands completes it. -/
theorem assemble_of_last {ftype rtype : Nat} {hd : Hdr} {payload : List Byte} {f : List Byte → Work → Work} {w : Work}
    (hlength : payload.length ≤ frameMax hd) (hoffset : hd.offset = (heldBytes w.toBlk hd ftype).length)
    (hlast : hd.flags.testBit 0 = true) :
    assemble ftype rtype hd payload f w = f (heldBytes w.toBlk hd ftype ++ payload) (dropPartial hd.link ftype hd.tag w) := by
  have hfits : ¬ (frameMax hd < payload.length ∨ hd.offset ≠ (heldBytes w.toBlk hd ftype).length) := by
    simp [hoffset, hlength]
  exact (if_neg hfits).trans (if_pos hlast)

/-- The frame that completes a message has it served. -/
theorem crino_of_frameServed {ftype rtype : Nat} {hd : Hdr} {payload m : List Byte} {s : State}
    (hframe : FrameServed hd ftype payload m s) (f : List Byte → Work → Work) :
    crino ftype rtype hd payload f (workOf s) = f m (served hd ftype (workOf s)) := by
  obtain ⟨-, hlink, hsender, hup, hversion, hreserved, hflags, hheld, hlength, hoffset, rfl⟩ := hframe
  have hflag : hd.flags < 4 ∧ hd.flags.testBit 0 = true := by
    rcases hflags with hflags | hflags <;> rw [hflags] <;> decide
  have hvalid : frameRefused rtype hd (workOf s) = none :=
    frameRefused_of_valid hlink hsender hup hversion hreserved hflag.1
  have hanswer : heldAnswer (heard hd.link (workOf s)).toBlk hd = none := (heldAnswer_heard hd.link hd (workOf s)).trans hheld
  have hbytes : heldBytes (heard hd.link (workOf s)).toBlk hd ftype = heldBytes (start s) hd ftype := by
    rw [heldBytes, heard, sessionOf_modSession, heldBytes]
  simp only [crino, hvalid, hanswer]
  rw [assemble_of_last hlength (hbytes ▸ hoffset) hflag.2, hbytes]
  rfl

/-! ## MEM_READ and MEM_WRITE -/

/-- A MEM_READ that is allowed, and meets no uncorrectable word, answers the bytes. -/
theorem memReadMsg_of_allowed {link tag : Nat} {m : List Byte} {w : Work} (hlength : m.length = 12)
    (hallowed : memStatus w.toBlk (leAt m 0 8) (leAt m 8 4) hostReadOk = 0) :
    memReadMsg link tag none m w = answer link tag 0x31 0 (rd w (leAt m 0 8) (leAt m 8 4)) w := by
  simp [memReadMsg, hlength, hallowed]

/-- One that meets an uncorrectable word counts and reports it, and answers no data (07 R179). -/
theorem memReadMsg_of_uncorrectable {link tag : Nat} (x : Nat) {m : List Byte} {w : Work} (hlength : m.length = 12)
    (hallowed : memStatus w.toBlk (leAt m 0 8) (leAt m 8 4) hostReadOk = 0) :
    memReadMsg link tag (some x) m w =
      let ch := memChannel x
      answer link tag 0x31 6 []
        (quadAdd (chanQuad ch) (0x74 + ch % 3) 1 (raiseBy (hostMaster link) 0 0x041 ch (memOffset x) w)) := by
  simp [memReadMsg, hlength, hallowed]

/-- A MEM_WRITE that is allowed stores its bytes. -/
theorem memWriteMsg_of_allowed {link tag : Nat} {m : List Byte} {w : Work} (hlength : 8 ≤ m.length)
    (hallowed : memStatus w.toBlk (leAt m 0 8) (m.length - 8) hostWriteOk = 0) :
    memWriteMsg link tag m w = answer link tag 0x33 0 [] (hostStore (leAt m 0 8) (m.drop 8) w) := by
  have hwhole : ¬ m.length < 8 := Nat.not_lt.2 hlength
  simp [memWriteMsg, hwhole, hallowed]

theorem exec_memRead_of_served {s : State} {hd : Hdr} {p m : List Byte} (ue : Option Nat) (hframe : FrameServed hd 0x30 p m s) :
    exec (.memRead hd p ue) s = nextOf s (fun w => memReadMsg hd.link hd.tag ue m (served hd 0x30 w)) := by
  have hexec : exec (.memRead hd p ue) s = nextOf s (crino 0x30 0x31 hd p (fun m => memReadMsg hd.link hd.tag ue m)) :=
    perform_of_accepted hframe.1 rfl
  rw [hexec]
  exact nextOf_congr (crino_of_frameServed hframe _)

theorem exec_memWrite_of_allowed {s : State} {hd : Hdr} {p m : List Byte} (hframe : FrameServed hd 0x32 p m s)
    (hlength : 8 ≤ m.length)
    (hallowed : memStatus (served hd 0x32 (workOf s)).toBlk (leAt m 0 8) (m.length - 8) hostWriteOk = 0) :
    exec (.memWrite hd p) s =
      nextOf s (fun w => answer hd.link hd.tag 0x33 0 [] (hostStore (leAt m 0 8) (m.drop 8) (served hd 0x32 w))) := by
  have hexec : exec (.memWrite hd p) s = nextOf s (crino 0x32 0x33 hd p (memWriteMsg hd.link hd.tag)) :=
    perform_of_accepted hframe.1 rfl
  rw [hexec]
  exact nextOf_congr ((crino_of_frameServed hframe _).trans (memWriteMsg_of_allowed hlength hallowed))

/-- Settles O18: the frame completes its message, and the message is served as it is allowed. -/
theorem hostMemoryCommands : Obligations.HostMemoryCommands := by
  intro s hd p m x
  refine ⟨fun hframe hlength hallowed => ⟨?_, ?_⟩, exec_memWrite_of_allowed⟩
  · rw [exec_memRead_of_served none hframe]
    exact nextOf_congr (memReadMsg_of_allowed hlength hallowed)
  · rw [exec_memRead_of_served (some x) hframe]
    exact nextOf_congr (memReadMsg_of_uncorrectable x hlength hallowed)

/-! ## What a host write leaves -/

/-- What O53 speaks of: the stores, the slices, the contexts, time and the object dictionary. -/
def storeView (w : Work) : List (Nat × List Byte) × Tab Slice × Tab CtxRun × TimeBase × Tab Nat :=
  (w.wr, w.slices, w.ctxs, w.time, w.od)

theorem storeView_modSession (link : Nat) (f : Session → Session) (w : Work) :
    storeView (modSession link f w) = storeView w := by
  unfold modSession
  split <;> rfl

theorem storeView_answer (link tag rtype status : Nat) (body : List Byte) (w : Work) :
    storeView (answer link tag rtype status body w) = storeView w := by
  unfold answer
  split
  · exact storeView_modSession 1 _ _
  · rfl

theorem storeView_served (hd : Hdr) (ftype : Nat) (w : Work) : storeView (served hd ftype w) = storeView w := by
  rw [served, dropPartial, storeView_modSession, heard, storeView_modSession]

/-- The lines that the cache parts give up are the engines' own (07 R162). -/
theorem storeView_cacheDrop (a : Nat) (w : Work) : storeView (cacheDrop a w) = storeView w := rfl

theorem storeView_modChan (c : Nat) (f : Chan → Chan) (w : Work) : storeView (modChan c f w) = storeView w := rfl

/-- Cancelled write-backs concern the channels alone (07 R178). -/
theorem storeView_cancelBack (a len : Nat) (w : Work) : storeView (cancelBack a len w) = storeView w := by
  unfold cancelBack
  exact Laws.forAll_keeps storeView _ (fun c => storeView_modChan c _) _ w

/-- A host write adds its bytes to the stores. -/
theorem storeView_hostStore (a : Nat) (bs : List Byte) (w : Work) :
    storeView (hostStore a bs w) = ((a, bs) :: w.wr, w.slices, w.ctxs, w.time, w.od) := by
  have hdropped := fun l => Laws.forAll_keeps storeView (fun i w => cacheDrop (a + 64 * i) w)
    (fun i => storeView_cacheDrop (a + 64 * i)) l w
  rw [hostStore, memStore, storeView_cancelBack]
  exact congrArg (fun v => ((a, bs) :: v.1, v.2)) (hdropped _)

/-- Settles O53: the command stores once, and a store is read back with every other byte as before. -/
theorem hostWriteStores : Obligations.HostWriteStores := by
  intro s hd p m hframe hlength hallowed
  refine (completes_iff_of_nextOf (exec_memWrite_of_allowed hframe hlength hallowed) _).2 ?_
  have hview := (storeView_answer hd.link hd.tag 0x33 0 [] _).trans
    (storeView_hostStore (leAt m 0 8) (m.drop 8) (served hd 0x32 (workOf s)))
  have hserved := storeView_served hd 0x32 (workOf s)
  simp only [storeView, Prod.mk.injEq] at hview hserved
  obtain ⟨hwr, hslices, hctxs, htime, hod⟩ := hview
  obtain ⟨hwr', hslices', hctxs', htime', hod'⟩ := hserved
  refine ⟨fun x => ?_, hslices.trans hslices', hctxs.trans hctxs', htime.trans htime', hod.trans hod'⟩
  rw [Laws.commitWork_mem, hwr, hwr', Laws.workOf_wr]
  exact (Laws.memByte_memPut s.mem _ _ x).trans (by rw [List.length_drop])

end Sys2Proof.Proofs
end

section
/-! The commands of a memory channel and its background work (07 R166 to R168, R181 to R183). -/

namespace Sys2Proof.Proofs

open Sys2Proof.Machine

/-! ## The host's commands (07 R166) -/

theorem readRun_of_planned {c a n st held k hit : Nat} {met : RunMet} {errs : List (Nat × Nat × Nat)} {x : Chan} {w : Work}
    (hplan : planRun w.toBlk c a n st held met.low = some (k, hit, x)) :
    readRun c a n st held met errs w =
      let w := protocol c a (held % 2 ^ k) hit met.silent (setChan c x w)
      if met.silent then w
      else forAll (List.range k) (fun i w =>
        let ws := burstWords w (burstKey c (a + i)) ((errs.filter (fun p => p.1 == i)).map (·.2))
        reportBurst none16 c (a + i) false ws (send (.channel c (ws.flatMap (fun y => leBytes 8 y.1))) w)) w := by
  simp only [readRun, hplan]

theorem writeRun_of_planned {c a st held k hit : Nat} {met : RunMet} {data : List Byte} {x : Chan} {w : Work}
    (hplan : planRun w.toBlk c a (data.length / 64) st held met.low = some (k, hit, x)) :
    writeRun c a st held met data w =
      let w := protocol c a (held % 2 ^ k) hit met.silent (setChan c x w)
      if met.silent then w else memStore (burstKey c a) (data.take (64 * k)) w := by
  simp only [writeRun, hplan]

/-- A die that stays silent is reported; READ_TRAINING and READ_STATUS have no burst address to report (log 137). -/
theorem dieSilent_eq_raise (c : Nat) (w : Work) :
    dieSilent c w = raise 0x042 c (Config.freeValue w.free % 2 ^ 21) { w with free := w.free + 1 } := rfl

theorem readTraining_of_answering {c : Nat} {w : Work} (hworks : chanWorks w.toBlk c = true) :
    readTraining { chan := c, silent := false } w = send (.channel c trainingBytes) w :=
  (if_neg (by simp [hworks])).trans (if_neg Bool.false_ne_true)

theorem readTraining_of_silent {c : Nat} {w : Work} (hworks : chanWorks w.toBlk c = true) :
    readTraining { chan := c, silent := true } w =
      raise 0x042 c (Config.freeValue w.free % 2 ^ 21) { w with free := w.free + 1 } :=
  (if_neg (by simp [hworks])).trans ((if_pos rfl).trans (dieSilent_eq_raise c w))

theorem readStatus_of_answering {c : Nat} {w : Work} (hworks : chanWorks w.toBlk c = true) :
    readStatus { chan := c, silent := false } w =
      send (.channel c (leBytes 1 (chanOf w.toBlk c).ops ++ leBytes 7 (Config.freeValue w.free))) { w with free := w.free + 1 } :=
  (if_neg (by simp [hworks])).trans (if_neg Bool.false_ne_true)

theorem readStatus_of_silent {c : Nat} {w : Work} (hworks : chanWorks w.toBlk c = true) :
    readStatus { chan := c, silent := true } w =
      raise 0x042 c (Config.freeValue w.free % 2 ^ 21) { w with free := w.free + 1 } :=
  (if_neg (by simp [hworks])).trans ((if_pos rfl).trans (dieSilent_eq_raise c w))

theorem setRefresh_of_works {c : Nat} {r : RefreshSet} {w : Work} (hworks : chanWorks w.toBlk c = true) :
    setRefresh c r w =
      let phase := (1728 + 1800 - r.clock) % 1800
      let past := ((tickClocks phase (r.rate == 2)).filter (fun t => decide (t ≤ r.clock))).length
      quadPut (chanQuad c) (0x84 + c % 3) (r.rate - 1) (setChan c { chanNow w.toBlk c with phase := phase, ticks := past } w) :=
  if_neg (by simp [hworks])

/-- Settles O16: on a channel that works each command is its effect. That a silent die has a free address where its command
has none is log 137. -/
theorem channelCommands : Obligations.ChannelCommands := by
  intro s c a n st held k hit x met errs data r hc hthere
  refine ⟨fun hwf hplan => ?_, fun hwf hplan => ?_, fun hworks => ?_⟩
  · have hexec : exec (.readRun c a n st held met errs) s = nextOf s (readRun c a n st held met errs) :=
      perform_of_accepted hwf hthere
    rw [hexec]
    exact nextOf_congr (readRun_of_planned (w := workOf s) hplan)
  · have hexec : exec (.writeRun c a st held met data) s = nextOf s (writeRun c a st held met data) :=
      perform_of_accepted hwf hthere
    rw [hexec]
    exact nextOf_congr (writeRun_of_planned (w := workOf s) hplan)
  · have htraining : ∀ silent, exec (.readTraining { chan := c, silent }) s = nextOf s (readTraining { chan := c, silent }) :=
      fun _ => perform_of_accepted (decide_eq_true hc) hthere
    have hstatus : ∀ silent, exec (.readStatus { chan := c, silent }) s = nextOf s (readStatus { chan := c, silent }) :=
      fun _ => perform_of_accepted (decide_eq_true hc) hthere
    refine ⟨?_, ?_, fun hwf => ?_, ?_, ?_⟩
    · rw [htraining]
      exact nextOf_congr (readTraining_of_answering (w := workOf s) hworks)
    · rw [htraining]
      exact nextOf_congr (readTraining_of_silent (w := workOf s) hworks)
    · have hexec : exec (.setRefresh c r) s = nextOf s (setRefresh c r) := perform_of_accepted hwf hthere
      rw [hexec]
      exact nextOf_congr (setRefresh_of_works (w := workOf s) hworks)
    · rw [hstatus]
      exact nextOf_congr (readStatus_of_answering (w := workOf s) hworks)
    · rw [hstatus]
      exact nextOf_congr (readStatus_of_silent (w := workOf s) hworks)

/-! ## What a channel does by itself (07 R167, R181 to R183) -/

/-- A tick that is still to come in the beat starts the next operation. -/
theorem refreshTick_of_due {c t : Nat} {w : Work} (hworks : chanWorks w.toBlk c = true)
    (hdue : (tickClocks (chanNow w.toBlk c).phase (isHot w.toBlk c))[(chanNow w.toBlk c).ticks]? = some t) :
    refreshTick c w =
      let x := chanNow w.toBlk c
      setChan c { x with ops := x.ops + 1, ticks := x.ticks + 1, refresh := some (x.ops % 16, t) } w := by
  simp only [refreshTick, hworks, hdue]

/-- From 80 degrees on the rate is two ticks per beat. -/
theorem rateSwitch_of_hot {c : Nat} {w : Work} (hworks : chanWorks w.toBlk c = true)
    (hhot : fLt (quadGet w.toBlk (chanQuad c) 0x90) 0x42A00000 = false) :
    rateSwitch c w = quadPut (chanQuad c) (0x84 + c % 3) 1 (modChan c (fun x => { x with cool := none }) w) :=
  (if_neg (by simp [hworks])).trans (if_pos (by simp [hhot]))

/-- Below 70 for 4,096 beats it is one again. -/
theorem rateSwitch_of_cooled {c f : Nat} {w : Work} (hworks : chanWorks w.toBlk c = true)
    (hbelow : fLt (quadGet w.toBlk (chanQuad c) 0x90) 0x42A00000 = true)
    (hcool : fLt (quadGet w.toBlk (chanQuad c) 0x90) 0x428C0000 = true) (hsince : (chanOf w.toBlk c).cool = some f)
    (hlong : f + 4096 ≤ w.time.beat) :
    rateSwitch c w = quadPut (chanQuad c) (0x84 + c % 3) 0 (modChan c (fun x => { x with cool := some f }) w) := by
  have hstays : ¬ (!fLt (quadGet w.toBlk (chanQuad c) 0x90) 0x42A00000) = true := by simp [hbelow]
  refine (if_neg (by simp [hworks])).trans ((if_neg hstays).trans ((if_pos hcool).trans ?_))
  rw [hsince]
  exact if_pos hlong

/-- The channel once slot 40 of the present beat is used; the scrub pass counts from its first slot at the latest (07 R182). -/
def slotTaken (b : Blk) (c : Nat) : Chan :=
  { chanNow b c with slot := true, scrubFrom := some ((chanNow b c).scrubFrom.getD b.time.beat) }

section Slot

variable {c : Nat} {w : Work} (r : SlotReport) (step : Int) (errs : List (Nat × Nat)) (hworks : chanWorks w.toBlk c = true)
  (hunused : (chanNow w.toBlk c).slot = false)

include hworks hunused

/-- A slot that a working channel has not used carries one background burst (07 R181). -/
theorem backgroundSlot_of_unused :
    backgroundSlot c r step errs w =
      let taken := setChan c (slotTaken w.toBlk c) w
      if (w.time.beat + c) % 64 = 0 then (if r.silent then dieSilent c taken else calibrate c r.agrees step taken)
      else match (chanNow w.toBlk c).queue with
        | _ :: rest => modChan c (fun x => { x with queue := rest }) taken
        | [] => if r.silent then raise 0x042 c (chanNow w.toBlk c).scrub taken else scrubRead c r.queued errs taken :=
  if_neg (by simp [hworks, hunused])

/-- In one beat of 64 it calibrates. -/
theorem backgroundSlot_calibrates (hbeat : (w.time.beat + c) % 64 = 0) :
    backgroundSlot c r step errs w =
      let taken := setChan c (slotTaken w.toBlk c) w
      if r.silent then dieSilent c taken else calibrate c r.agrees step taken :=
  (backgroundSlot_of_unused r step errs hworks hunused).trans (if_pos hbeat)

/-- Otherwise it writes back the oldest corrected burst. -/
theorem backgroundSlot_writes_back (hbeat : (w.time.beat + c) % 64 ≠ 0) (hqueue : (chanNow w.toBlk c).queue ≠ []) :
    backgroundSlot c r step errs w =
      modChan c (fun x => { x with queue := (chanNow w.toBlk c).queue.tail }) (setChan c (slotTaken w.toBlk c) w) := by
  refine (backgroundSlot_of_unused r step errs hworks hunused).trans ((if_neg hbeat).trans ?_)
  obtain ⟨burst, rest, hfront⟩ := List.exists_cons_of_ne_nil hqueue
  rw [hfront]
  rfl

/-- With none to write back it scrubs. -/
theorem backgroundSlot_scrubs (hbeat : (w.time.beat + c) % 64 ≠ 0) (hqueue : (chanNow w.toBlk c).queue = []) :
    backgroundSlot c r step errs w =
      let taken := setChan c (slotTaken w.toBlk c) w
      if r.silent then raise 0x042 c (chanNow w.toBlk c).scrub taken else scrubRead c r.queued errs taken := by
  refine (backgroundSlot_of_unused r step errs hworks hunused).trans ((if_neg hbeat).trans ?_)
  rw [hqueue]

end Slot

/-- A scrub pass that takes too long, and has not been reported yet, is reported. -/
theorem scrubStarved_of_late {c f : Nat} {w : Work} (hworks : chanWorks w.toBlk c = true)
    (hfrom : (chanOf w.toBlk c).scrubFrom = some f) (hlate : f + 4260882 ≤ w.time.beat)
    (hfirst : (chanOf w.toBlk c).starved = false) :
    scrubStarved c w = raise 0x044 c (chanOf w.toBlk c).scrub (modChan c (fun x => { x with starved := true }) w) := by
  simp only [scrubStarved, hfrom, if_pos (And.intro hlate (And.intro hfirst hworks))]

/-- Settles O17: each clause is the branch that its conditions lead to. That a calibration on which the die stays silent is
reported at a free address, and a scrub at the burst it reads, is log 137. -/
theorem channelBackground : Obligations.ChannelBackground := by
  intro s c f t r step errs hc hthere hworks
  have hok : decide (c < 192) = true := decide_eq_true hc
  have hswitch : exec (.refreshRateSwitch c) s = nextOf s (rateSwitch c) := perform_of_accepted hok hthere
  refine ⟨fun hdue => ?_, fun hhot => ?_, fun hbelow hcool hsince hlong => ?_, fun hunused => ?_,
    fun hfrom hlate hfirst => ?_⟩
  · have hexec : exec (.refreshTick c) s = nextOf s (refreshTick c) := perform_of_accepted hok hthere
    rw [hexec]
    exact nextOf_congr (refreshTick_of_due (w := workOf s) hworks hdue)
  · rw [hswitch]
    exact nextOf_congr (rateSwitch_of_hot (w := workOf s) hworks hhot)
  · rw [hswitch]
    exact nextOf_congr (rateSwitch_of_cooled (w := workOf s) hworks hbelow hcool hsince hlong)
  · have hexec : exec (.backgroundSlot c r step errs) s = nextOf s (backgroundSlot c r step errs) :=
      perform_of_accepted hok hthere
    rw [hexec]
    refine ⟨fun hbeat => ?_, fun hbeat hqueue => ?_, fun hbeat hqueue => ?_⟩
    · exact nextOf_congr (backgroundSlot_calibrates (w := workOf s) r step errs hworks hunused hbeat)
    · exact nextOf_congr (backgroundSlot_writes_back (w := workOf s) r step errs hworks hunused hbeat hqueue)
    · exact nextOf_congr (backgroundSlot_scrubs (w := workOf s) r step errs hworks hunused hbeat hqueue)
  · have hexec : exec (.scrubStarved c) s = nextOf s (scrubStarved c) := perform_of_accepted hok hthere
    rw [hexec]
    exact nextOf_congr (scrubStarved_of_late (w := workOf s) hworks hfrom hlate hfirst)

end Sys2Proof.Proofs
end

section
/-! The check byte of a word of memory (07 R176): each of its bits is the parity of a count of set bits. -/

namespace Sys2Proof.Proofs

open Sys2Proof.Machine

/-! ## Counts and their parity -/

theorem foldl_add_b2n {α : Type} (g : α → Bool) (l : List α) (n : Nat) :
    l.foldl (fun s a => s + b2n (g a)) n = n + (l.filter g).length := by
  induction l generalizing n with
  | nil => rfl
  | cons a l ih =>
    rw [List.foldl_cons, ih]
    cases hg : g a with
    | true => rw [List.filter_cons_of_pos hg, List.length_cons, b2n, if_pos rfl]; omega
    | false => rw [List.filter_cons_of_neg (by simp [hg]), b2n, if_neg Bool.false_ne_true, Nat.add_zero]

/-- The elements that just one of two tests picks are, but for an even number, those that each of them picks. -/
theorem length_filter_xor_mod_two {α : Type} (g h : α → Bool) (l : List α) :
    (l.filter (fun a => g a ^^ h a)).length % 2 = ((l.filter g).length + (l.filter h).length) % 2 := by
  induction l with
  | nil => rfl
  | cons a l ih => cases hg : g a <;> cases hh : h a <;> simp [hg, hh] <;> omega

theorem popCount_xor_mod_two (n a b : Nat) : popCount n (a ^^^ b) % 2 = (popCount n a + popCount n b) % 2 := by
  rw [popCount, maskList, funext (Nat.testBit_xor (x := a) (y := b)), length_filter_xor_mod_two]
  rfl

theorem decide_odd_add (m n : Nat) : decide ((m + n) % 2 = 1) = (decide (m % 2 = 1) ^^ decide (n % 2 = 1)) := by
  rcases Nat.mod_two_eq_zero_or_one m with hm | hm <;> rcases Nat.mod_two_eq_zero_or_one n with hn | hn <;>
    simp [Nat.add_mod, hm, hn]

/-- A number formed bit by bit from the parities of counts. -/
def parities (k : Nat → Nat) (n : Nat) : Nat := (List.range n).foldl (fun c i => c + 2 ^ i * (k i % 2)) 0

theorem parities_succ (k : Nat → Nat) (n : Nat) : parities k (n + 1) = 2 ^ n * (k n % 2) + parities k n := by
  rw [parities, List.range_succ, List.foldl_append, Nat.add_comm]
  rfl

theorem parities_lt (k : Nat → Nat) (n : Nat) : parities k n < 2 ^ n := by
  induction n with
  | zero => exact Nat.one_pos
  | succ n ih =>
    have hbit : 2 ^ n * (k n % 2) ≤ 2 ^ n * 1 := Nat.mul_le_mul_left _ (by omega)
    rw [parities_succ, Nat.pow_succ]
    omega

theorem testBit_parities (k : Nat → Nat) (n i : Nat) (hi : i < n) : (parities k n).testBit i = decide (k i % 2 = 1) := by
  induction n with
  | zero => exact absurd hi (Nat.not_lt_zero i)
  | succ n ih =>
    rw [parities_succ, Nat.testBit_two_pow_mul_add _ (parities_lt k n)]
    split
    · next hbelow => exact ih hbelow
    · next htop =>
      have htop : i = n := by omega
      rw [htop, Nat.sub_self, Nat.testBit_zero, Nat.mod_mod]

theorem eq_of_testBit_eq_below {a b n : Nat} (ha : a < 2 ^ n) (hb : b < 2 ^ n) (heq : ∀ i < n, a.testBit i = b.testBit i) :
    a = b := by
  refine Nat.eq_of_testBit_eq fun i => ?_
  by_cases hi : i < n
  · exact heq i hi
  · have hpow : 2 ^ n ≤ 2 ^ i := Nat.pow_le_pow_right Nat.two_pos (Nat.not_lt.1 hi)
    rw [Nat.testBit_lt_two_pow (Nat.lt_of_lt_of_le ha hpow), Nat.testBit_lt_two_pow (Nat.lt_of_lt_of_le hb hpow)]

/-! ## The check byte -/

/-- How many set data bits stand at a position that has bit i. -/
def covered (i x : Nat) : Nat := ((List.range 64).filter (fun d => (nth 0 bitPlaces d).testBit i && x.testBit d)).length

theorem zip_bitPlaces : List.zip (List.range 64) bitPlaces = (List.range 64).map (fun d => (d, nth 0 bitPlaces d)) := by
  decide +kernel

theorem checkSeven_eq_parities (x : Nat) : checkSeven x = parities (fun i => covered i x) 7 := by
  simp only [checkSeven, zip_bitPlaces, List.foldl_map, foldl_add_b2n, Nat.zero_add]
  rfl

theorem checkSeven_lt (x : Nat) : checkSeven x < 2 ^ 7 := by
  rw [checkSeven_eq_parities]
  exact parities_lt _ 7

/-- c_i is the parity of the data bits that it covers. -/
theorem testBit_checkSeven (x : Nat) {i : Nat} (hi : i < 7) : (checkSeven x).testBit i = decide (covered i x % 2 = 1) := by
  rw [checkSeven_eq_parities, testBit_parities _ 7 i hi]

theorem checkByte_eq (x : Nat) : checkByte x = 2 ^ 7 * ((popCount 64 x + popCount 7 (checkSeven x)) % 2) + checkSeven x :=
  Nat.add_comm _ _

theorem checkByte_lt (x : Nat) : checkByte x < 256 := by
  have hseven := checkSeven_lt x
  rw [checkByte_eq]
  omega

theorem testBit_checkByte_of_lt (x : Nat) {i : Nat} (hi : i < 7) : (checkByte x).testBit i = (checkSeven x).testBit i := by
  rw [checkByte_eq, Nat.testBit_two_pow_mul_add _ (checkSeven_lt x), if_pos hi]

/-- c_7 is the parity of the data and the other seven. -/
theorem testBit_checkByte_seven (x : Nat) :
    (checkByte x).testBit 7 = decide ((popCount 64 x + popCount 7 (checkSeven x)) % 2 = 1) := by
  rw [checkByte_eq, Nat.testBit_two_pow_mul_add _ (checkSeven_lt x), if_neg (Nat.lt_irrefl 7), Nat.sub_self, Nat.testBit_zero,
    Nat.mod_mod]

theorem checkByte_mod (x : Nat) : checkByte x % 128 = checkSeven x := by
  have hseven := checkSeven_lt x
  rw [checkByte_eq]
  omega

theorem popCount_seven_checkByte (x : Nat) : popCount 7 (checkByte x) = popCount 7 (checkSeven x) :=
  congrArg List.length (List.filter_congr fun _ hi => testBit_checkByte_of_lt x (List.mem_range.1 hi))

theorem bitPlaces_rising : bitPlaces.Pairwise (· < ·) := List.pairwise_lt_range.filter _

theorem mem_bitPlaces_iff (p : Nat) : p ∈ bitPlaces ↔ 3 ≤ p ∧ p ≤ 71 ∧ ∀ k, p ≠ 2 ^ k := by
  have hpow : isPow2 p = true ↔ ∃ k, p = 2 ^ k := by
    simp only [isPow2, Bool.and_eq_true, bne_iff_ne, beq_iff_eq]
    constructor
    · rintro ⟨-, hlog⟩
      exact ⟨p.log2, hlog.symm⟩
    · rintro ⟨k, rfl⟩
      exact ⟨Nat.ne_of_gt (Nat.two_pow_pos k), by rw [Nat.log2_two_pow]⟩
  simp only [bitPlaces, List.mem_filter, List.mem_range, Bool.and_eq_true, decide_eq_true_eq, Bool.not_eq_true',
    ← Bool.not_eq_true, hpow, not_exists]
  exact ⟨fun ⟨htop, hlow, hnone⟩ => ⟨hlow, Nat.le_of_lt_succ htop, hnone⟩,
    fun ⟨hlow, htop, hnone⟩ => ⟨Nat.lt_succ_of_le htop, hlow, hnone⟩⟩

/-- Settles O54: the places are a filtered range, and each bit of the check byte is the parity of the count it was formed from. -/
theorem checkByteOfAWord : Obligations.CheckByteOfAWord := by
  refine ⟨bitPlaces_rising, mem_bitPlaces_iff, by decide +kernel, fun x _ => ⟨checkByte_lt x, fun i hi => ?_, ?_⟩⟩
  · exact (testBit_checkByte_of_lt x hi).trans (testBit_checkSeven x hi)
  · rw [testBit_checkByte_seven, ← popCount_seven_checkByte]
    rfl

end Sys2Proof.Proofs
end

section
/-! The code of a word of memory (07 R177). The syndrome and the parity of a word are parities of counts, so both are linear: of
a word that is read, they are those of its errors alone. -/

namespace Sys2Proof.Proofs

open Sys2Proof.Machine

/-! ## The syndrome and the parity of a word that is read -/

theorem covered_xor_mod_two (i x y : Nat) : covered i (x ^^^ y) % 2 = (covered i x + covered i y) % 2 := by
  simp only [covered, Nat.testBit_xor, Bool.and_xor_distrib_left, length_filter_xor_mod_two]

theorem checkSeven_xor (x y : Nat) : checkSeven (x ^^^ y) = checkSeven x ^^^ checkSeven y := by
  refine eq_of_testBit_eq_below (checkSeven_lt _) (Nat.xor_lt_two_pow (checkSeven_lt x) (checkSeven_lt y)) fun i hi => ?_
  rw [Nat.testBit_xor, testBit_checkSeven _ hi, testBit_checkSeven _ hi, testBit_checkSeven _ hi, covered_xor_mod_two,
    decide_odd_add]

/-- The syndrome s of R177, of 64 data bits and a check byte. -/
def syndrome (x c : Nat) : Nat := c % 2 ^ 7 ^^^ checkSeven x

/-- Its p, the parity of all 72 bits. -/
def wordParity (x c : Nat) : Nat := (popCount 64 x + popCount 8 c) % 2

theorem syndrome_xor (x c y d : Nat) : syndrome (x ^^^ y) (c ^^^ d) = syndrome x c ^^^ syndrome y d := by
  rw [syndrome, checkSeven_xor, Nat.xor_mod_two_pow, syndrome, syndrome]
  ac_rfl

theorem wordParity_xor (x c y d : Nat) : wordParity (x ^^^ y) (c ^^^ d) = (wordParity x c + wordParity y d) % 2 := by
  have hdata := popCount_xor_mod_two 64 x y
  have hcheck := popCount_xor_mod_two 8 c d
  simp only [wordParity]
  omega

/-- A word as it is written has syndrome 0. -/
theorem syndrome_checkByte (x : Nat) : syndrome x (checkByte x) = 0 := by
  rw [syndrome, show checkByte x % 2 ^ 7 = checkSeven x from checkByte_mod x, Nat.xor_self]

theorem popCount_succ (n m : Nat) : popCount (n + 1) m = popCount n m + b2n (m.testBit n) := by
  rw [popCount, maskList, List.range_succ, List.filter_append, List.length_append]
  cases hm : m.testBit n <;> simp [popCount, maskList, b2n, hm]

/-- A word as it is written has even parity, which is what c_7 is for. -/
theorem wordParity_checkByte (x : Nat) : wordParity x (checkByte x) = 0 := by
  rw [wordParity, popCount_succ 7, popCount_seven_checkByte, testBit_checkByte_seven]
  by_cases hodd : (popCount 64 x + popCount 7 (checkSeven x)) % 2 = 1
  · rw [b2n, if_pos (decide_eq_true hodd)]
    omega
  · rw [b2n, if_neg (by simp [hodd])]
    omega

/-- The syndrome of a mask of errors over the 72 stored bits: the data bits, then the check byte. -/
def maskSyndrome (mask : Nat) : Nat := syndrome (mask % 2 ^ 64) (mask / 2 ^ 64 % 2 ^ 8)

def maskParity (mask : Nat) : Nat := wordParity (mask % 2 ^ 64) (mask / 2 ^ 64 % 2 ^ 8)

theorem maskSyndrome_xor (m n : Nat) : maskSyndrome (m ^^^ n) = maskSyndrome m ^^^ maskSyndrome n := by
  rw [maskSyndrome, Nat.xor_mod_two_pow, Nat.xor_div_two_pow, Nat.xor_mod_two_pow, syndrome_xor]
  rfl

theorem maskParity_xor (m n : Nat) : maskParity (m ^^^ n) = (maskParity m + maskParity n) % 2 := by
  rw [maskParity, Nat.xor_mod_two_pow, Nat.xor_div_two_pow, Nat.xor_mod_two_pow, wordParity_xor]
  rfl

/-! ## The classes of R177 -/

/-- The data bit that stands at a position, with the position. -/
def dataBitAt (s : Nat) : Option (Nat × Nat) := (List.zip (List.range 64) bitPlaces).find? (fun q => q.2 == s)

/-- What is read is classed by the errors alone, whatever the word. -/
theorem readWord_eq (x mask : Nat) :
    readWord x mask =
      if maskSyndrome mask = 0 ∧ maskParity mask = 0 then (x ^^^ mask % 2 ^ 64, 0)
      else if maskParity mask = 0 ∨ 72 ≤ maskSyndrome mask then (x ^^^ mask % 2 ^ 64, 2)
      else match dataBitAt (maskSyndrome mask) with
        | some q => ((x ^^^ mask % 2 ^ 64) ^^^ 2 ^ q.1, 1)
        | none => (x ^^^ mask % 2 ^ 64, 1) := by
  have hsyndrome : syndrome (x ^^^ mask % 2 ^ 64) (checkByte x ^^^ mask / 2 ^ 64 % 2 ^ 8) = maskSyndrome mask := by
    rw [syndrome_xor, syndrome_checkByte, Nat.zero_xor, maskSyndrome]
  have hparity : wordParity (x ^^^ mask % 2 ^ 64) (checkByte x ^^^ mask / 2 ^ 64 % 2 ^ 8) = maskParity mask := by
    rw [wordParity_xor, wordParity_checkByte, Nat.zero_add, maskParity, wordParity, Nat.mod_mod]
  rw [← hsyndrome, ← hparity]
  rfl

/-! ## Where the 72 stored bits stand -/

/-- Where the bits of the check byte stand: c_0 to c_6 at the powers of two, c_7 at 0. -/
def checkPlaces : List Nat := [1, 2, 4, 8, 16, 32, 64, 0]

/-- The positions of the stored bits: the data bits, then the check byte. -/
def storedPlaces : List Nat := bitPlaces ++ checkPlaces

theorem bitPlaces_length : bitPlaces.length = 64 := by decide +kernel

theorem storedPlaces_length : storedPlaces.length = 72 := by
  rw [storedPlaces, List.length_append, bitPlaces_length]
  rfl

theorem nth_storedPlaces_of_data {d : Nat} (hd : d < 64) : nth 0 storedPlaces d = nth 0 bitPlaces d := by
  rw [nth, storedPlaces, List.getElem?_append_left (bitPlaces_length.symm ▸ hd), nth]

theorem nth_storedPlaces_of_check (k : Nat) : nth 0 storedPlaces (64 + k) = nth 0 checkPlaces k := by
  rw [nth, storedPlaces, List.getElem?_append_right (by rw [bitPlaces_length]; omega), bitPlaces_length, Nat.add_sub_cancel_left,
    nth]

theorem nth_storedPlaces_mem {i : Nat} (hi : i < 72) : nth 0 storedPlaces i ∈ storedPlaces := by
  rw [nth, List.getElem?_eq_getElem (storedPlaces_length.symm ▸ hi)]
  exact List.getElem_mem _

/-- No data bit stands where a check bit does. -/
theorem storedPlaces_nodup : storedPlaces.Nodup := by
  refine List.nodup_append.2 ⟨bitPlaces_rising.imp Nat.ne_of_lt, by decide, ?_⟩
  rintro p hdata q hcheck rfl
  obtain ⟨hlow, -, hpow⟩ := (mem_bitPlaces_iff p).1 hdata
  have hplaces : ∀ c ∈ checkPlaces, c < 3 ∨ ∃ k < 7, c = 2 ^ k := by decide
  obtain hsmall | ⟨k, -, hk⟩ := hplaces p hcheck
  · omega
  · exact hpow k hk

theorem storedPlaces_lt {p : Nat} (hp : p ∈ storedPlaces) : p < 72 := by
  obtain hdata | hcheck := List.mem_append.1 hp
  · exact Nat.lt_succ_of_le ((mem_bitPlaces_iff p).1 hdata).2.1
  · revert p
    decide

theorem nth_storedPlaces_inj {i j : Nat} (hi : i < 72) (hj : j < 72) (heq : nth 0 storedPlaces i = nth 0 storedPlaces j) :
    i = j := by
  rw [← storedPlaces_length] at hi hj
  rw [nth, nth, List.getElem?_eq_getElem hi, List.getElem?_eq_getElem hj, Option.getD_some, Option.getD_some] at heq
  have hdiffer := List.pairwise_iff_getElem.1 storedPlaces_nodup
  obtain hlt | rfl | hgt := Nat.lt_trichotomy i j
  · exact absurd heq (hdiffer i j hi hj hlt)
  · rfl
  · exact absurd heq.symm (hdiffer j i hj hi hgt)

/-- The position of a data bit names it. -/
theorem dataBitAt_of_data {d : Nat} (hd : d < 64) :
    dataBitAt (nth 0 storedPlaces d) = some (d, nth 0 storedPlaces d) := by
  have hfind : (List.range 64).find? (fun e => nth 0 bitPlaces e == nth 0 storedPlaces d) = some d := by
    refine List.find?_range_eq_some.2 ⟨?_, List.mem_range.2 hd, fun e he => ?_⟩
    · rw [nth_storedPlaces_of_data hd, beq_self_eq_true]
    · rw [← nth_storedPlaces_of_data (Nat.lt_trans he hd), Bool.not_eq_true', beq_eq_false_iff_ne]
      exact fun heq => Nat.ne_of_lt he (nth_storedPlaces_inj (by omega) (by omega) heq)
  rw [dataBitAt, zip_bitPlaces, List.find?_map, Function.comp_def, hfind, nth_storedPlaces_of_data hd]
  rfl

/-- The position of a check bit names no data bit. -/
theorem dataBitAt_of_check {i : Nat} (hlow : 64 ≤ i) (hi : i < 72) : dataBitAt (nth 0 storedPlaces i) = none := by
  rw [dataBitAt, zip_bitPlaces, List.find?_map, Function.comp_def, Option.map_eq_none_iff, List.find?_eq_none]
  intro e he
  have he : e < 64 := List.mem_range.1 he
  rw [← nth_storedPlaces_of_data he, beq_iff_eq]
  exact fun heq => absurd (nth_storedPlaces_inj (by omega) hi heq) (by omega)

/-! ## One and two bits in error -/

theorem filter_eq_range {n d : Nat} (hd : d < n) : (List.range n).filter (fun e => decide (d = e)) = [d] := by
  induction n with
  | zero => exact absurd hd (Nat.not_lt_zero d)
  | succ n ih =>
    rw [List.range_succ, List.filter_append]
    by_cases htop : d = n
    · have hbelow : (List.range n).filter (fun e => decide (d = e)) = [] :=
        List.filter_eq_nil_iff.2 fun e he heq => Nat.ne_of_gt (List.mem_range.1 he) (htop.symm.trans (of_decide_eq_true heq))
      have hlast : [n].filter (fun e => decide (d = e)) = [n] := List.filter_eq_self.2 fun e he =>
        decide_eq_true (htop.trans (List.mem_singleton.1 he).symm)
      rw [hbelow, hlast, htop, List.nil_append]
    · have hlast : [n].filter (fun e => decide (d = e)) = [] := List.filter_eq_nil_iff.2 fun e he heq =>
        htop ((of_decide_eq_true heq).trans (List.mem_singleton.1 he))
      rw [ih (by omega), hlast, List.append_nil]

theorem popCount_two_pow {n d : Nat} (hd : d < n) : popCount n (2 ^ d) = 1 := by
  simp only [popCount, maskList, Nat.testBit_two_pow, filter_eq_range hd, List.length_singleton]

/-- One data bit is covered by the check bits that its position names. -/
theorem covered_two_pow (i : Nat) {d : Nat} (hd : d < 64) : covered i (2 ^ d) = b2n ((nth 0 bitPlaces d).testBit i) := by
  simp only [covered, Nat.testBit_two_pow]
  rw [← List.filter_filter, filter_eq_range hd]
  cases hplace : (nth 0 bitPlaces d).testBit i <;> simp [hplace, b2n]

/-- So the check bits of one data bit spell its position. -/
theorem checkSeven_two_pow {d : Nat} (hd : d < 64) : checkSeven (2 ^ d) = nth 0 bitPlaces d := by
  have hplace : nth 0 bitPlaces d < 72 := by
    rw [← nth_storedPlaces_of_data hd]
    exact storedPlaces_lt (nth_storedPlaces_mem (by omega))
  refine eq_of_testBit_eq_below (checkSeven_lt _) (by omega) fun i hi => ?_
  rw [testBit_checkSeven _ hi, covered_two_pow i hd]
  cases (nth 0 bitPlaces d).testBit i <;> rfl

theorem checkSeven_zero : checkSeven 0 = 0 := by
  have hself := checkSeven_xor 0 0
  rwa [Nat.xor_self, Nat.xor_self] at hself

theorem mask_of_data_bit {d : Nat} (hd : d < 64) : maskSyndrome (2 ^ d) = nth 0 bitPlaces d ∧ maskParity (2 ^ d) = 1 := by
  have hdata : 2 ^ d < 2 ^ 64 := Nat.pow_lt_pow_right Nat.one_lt_two hd
  have hchecks : 2 ^ d / 2 ^ 64 % 2 ^ 8 = 0 := (congrArg (· % 2 ^ 8) (Nat.div_eq_of_lt hdata)).trans (Nat.zero_mod _)
  constructor
  · rw [maskSyndrome, Nat.mod_eq_of_lt hdata, hchecks, syndrome, checkSeven_two_pow hd]
    exact (congrArg (· ^^^ nth 0 bitPlaces d) (Nat.zero_mod (2 ^ 7))).trans (Nat.zero_xor _)
  · rw [maskParity, Nat.mod_eq_of_lt hdata, hchecks, wordParity, popCount_two_pow hd]
    rfl

theorem mask_of_check_bit {k : Nat} (hk : k < 8) :
    maskSyndrome (2 ^ (64 + k)) = nth 0 checkPlaces k ∧ maskParity (2 ^ (64 + k)) = 1 := by
  have hplace : ∀ k < 8, 2 ^ k % 2 ^ 7 = nth 0 checkPlaces k := by decide
  have hdata : 2 ^ (64 + k) % 2 ^ 64 = 0 := Nat.mod_eq_zero_of_dvd (Nat.pow_dvd_pow 2 (Nat.le_add_right 64 k))
  have hcheck : 2 ^ (64 + k) / 2 ^ 64 % 2 ^ 8 = 2 ^ k := by
    rw [Nat.pow_add, Nat.mul_div_cancel_left _ (Nat.two_pow_pos 64), Nat.mod_eq_of_lt (Nat.pow_lt_pow_right Nat.one_lt_two hk)]
  constructor
  · rw [maskSyndrome, hdata, hcheck, syndrome, checkSeven_zero, Nat.xor_zero]
    exact hplace k hk
  · rw [maskParity, hdata, hcheck, wordParity, popCount_two_pow hk]
    rfl

/-- One bit in error: the syndrome is its position, the parity odd. -/
theorem mask_of_one {i : Nat} (hi : i < 72) : maskSyndrome (2 ^ i) = nth 0 storedPlaces i ∧ maskParity (2 ^ i) = 1 := by
  by_cases hdata : i < 64
  · rw [nth_storedPlaces_of_data hdata]
    exact mask_of_data_bit hdata
  · obtain ⟨k, rfl⟩ := Nat.exists_eq_add_of_le (Nat.not_lt.1 hdata)
    rw [nth_storedPlaces_of_check]
    exact mask_of_check_bit (by omega)

theorem maskSyndrome_zero : maskSyndrome 0 = 0 := by
  have hself := maskSyndrome_xor 0 0
  rwa [Nat.xor_self, Nat.xor_self] at hself

theorem maskParity_zero : maskParity 0 = 0 := by
  have hself := maskParity_xor 0 0
  rw [Nat.xor_self] at hself
  omega

theorem readWord_zero (x : Nat) : readWord x 0 = (x, 0) := by
  rw [readWord_eq, if_pos ⟨maskSyndrome_zero, maskParity_zero⟩, Nat.zero_mod, Nat.xor_zero]

theorem xor_xor_self (a b : Nat) : a ^^^ b ^^^ b = a := by rw [Nat.xor_assoc, Nat.xor_self, Nat.xor_zero]

/-- One bit in error is corrected. -/
theorem readWord_of_one (x : Nat) {i : Nat} (hi : i < 72) : readWord x (2 ^ i) = (x, 1) := by
  obtain ⟨hsyndrome, hparity⟩ := mask_of_one hi
  have hplace : nth 0 storedPlaces i < 72 := storedPlaces_lt (nth_storedPlaces_mem hi)
  have hbad : ¬ (1 = 0 ∨ 72 ≤ nth 0 storedPlaces i) := by omega
  rw [readWord_eq, hsyndrome, hparity, if_neg (fun h => absurd h.2 Nat.one_ne_zero), if_neg hbad]
  by_cases hdata : i < 64
  · rw [dataBitAt_of_data hdata, Nat.mod_eq_of_lt (Nat.pow_lt_pow_right Nat.one_lt_two hdata)]
    exact congrArg (·, 1) (xor_xor_self x (2 ^ i))
  · rw [dataBitAt_of_check (Nat.not_lt.1 hdata) hi, Nat.mod_eq_zero_of_dvd (Nat.pow_dvd_pow 2 (Nat.not_lt.1 hdata))]
    exact congrArg (·, 1) (Nat.xor_zero x)

/-- Two different bits together. -/
theorem two_pow_add_eq_xor_of_lt {i j : Nat} (hlt : j < i) : 2 ^ i + 2 ^ j = 2 ^ i ^^^ 2 ^ j := by
  have hbelow : 2 ^ j < 2 ^ i := Nat.pow_lt_pow_right Nat.one_lt_two hlt
  have hsum : 2 ^ i + 2 ^ j = 2 ^ i * 2 ^ 0 + 2 ^ j := congrArg (· + 2 ^ j) (Nat.mul_one (2 ^ i)).symm
  refine Nat.eq_of_testBit_eq fun k => ?_
  rw [hsum, Nat.testBit_two_pow_mul_add _ hbelow, Nat.testBit_xor, Nat.testBit_two_pow, Nat.testBit_two_pow,
    Nat.testBit_two_pow]
  split
  · next hk => rw [decide_eq_false (Nat.ne_of_gt hk), Bool.false_xor]
  · next hk =>
    have hjk : j ≠ k := by omega
    rw [decide_eq_false hjk, Bool.xor_false]
    exact decide_eq_decide.2 (by omega)

theorem two_pow_add_eq_xor {i j : Nat} (hne : i ≠ j) : 2 ^ i + 2 ^ j = 2 ^ i ^^^ 2 ^ j := by
  rcases Nat.lt_or_gt_of_ne hne with hlt | hgt
  · rw [Nat.add_comm, Nat.xor_comm]
    exact two_pow_add_eq_xor_of_lt hlt
  · exact two_pow_add_eq_xor_of_lt hgt

/-- Two bits in error leave a syndrome, since their positions differ, and even parity. -/
theorem mask_of_two {i j : Nat} (hi : i < 72) (hj : j < 72) (hne : i ≠ j) :
    maskSyndrome (2 ^ i + 2 ^ j) ≠ 0 ∧ maskParity (2 ^ i + 2 ^ j) = 0 := by
  obtain ⟨hsyndrome, hparity⟩ := mask_of_one hi
  obtain ⟨hsyndrome', hparity'⟩ := mask_of_one hj
  rw [two_pow_add_eq_xor hne, maskSyndrome_xor, maskParity_xor, hsyndrome, hsyndrome', hparity, hparity']
  refine ⟨fun hzero => hne (nth_storedPlaces_inj hi hj ?_), rfl⟩
  rw [← xor_xor_self (nth 0 storedPlaces i) (nth 0 storedPlaces j), hzero, Nat.zero_xor]

/-- Two bits in error are found uncorrectable. -/
theorem readWord_of_two (x : Nat) {i j : Nat} (hi : i < 72) (hj : j < 72) (hne : i ≠ j) :
    (readWord x (2 ^ i + 2 ^ j)).2 = 2 := by
  obtain ⟨hsyndrome, hparity⟩ := mask_of_two hi hj hne
  rw [readWord_eq, if_neg (fun h => hsyndrome h.1), if_pos (Or.inl hparity)]

/-- Settles O55: the code is linear, so what becomes of a word rests on its errors alone; the syndrome of one error is the
position of the bit, and no two bits share a position. -/
theorem singleErrorsCorrected : Obligations.SingleErrorsCorrected := by
  intro x _
  exact ⟨readWord_zero x, fun i hi => readWord_of_one x hi, fun i j hi hj hne => readWord_of_two x hi hj hne⟩

end Sys2Proof.Proofs
end

section
/-! Committed pins, unpins and resets of a temporal slot (08 R193, R209). -/

namespace Sys2Proof.Proofs

open Sys2Proof.Machine

/-- The work of a row once it has taken a committed effect. -/
def effectTaken (e : Effect) (w : Work) : Work := { w with links.effects := w.links.effects.erase e }

/-- A row whose committed effect is found takes it and runs it. -/
theorem nextOf_effectRow_of_find {ok : Effect → Bool} {e : Effect} {s : State} {f : Work → Work}
    (hfind : s.blk.links.effects.find? ok = some e)
    (hrun : runEffect e (effectTaken e (workOf s)) = f (effectTaken e (workOf s))) :
    nextOf s (effectRow ok) = nextOf s (f ∘ effectTaken e) :=
  nextOf_congr ((effectRow_of_find (w := workOf s) hfind).trans hrun)

/-! ## Pins -/

section Pins

variable {t lp f : Nat} {p : Page} {w : Work} (hresident : residentOf w.toBlk t lp = some (f, p))

include hresident

/-- A resident page is pinned where the limits allow it. -/
theorem pinPage_of_allowed {glob : Bool} (hlimits : pinOk w.toBlk t lp glob = true) :
    pinPage t lp glob w = countPins t (setPage t f (some { p with pinned := true, glob := p.glob || glob }) w) := by
  simp only [pinPage, hresident, if_pos hlimits]

/-- Where they do not, it stays as it was. -/
theorem pinPage_of_refused {glob : Bool} (hlimits : pinOk w.toBlk t lp glob = false) : pinPage t lp glob w = w := by
  simp only [pinPage, hresident, hlimits, Bool.false_eq_true, if_false]

theorem unpinPage_of_resident :
    unpinPage t lp w = countPins t (setPage t f (some { p with pinned := false, glob := false }) w) := by
  simp only [unpinPage, hresident]

end Pins

/-! ## Resets -/

/-- TM_STATE of each of the 32 slots is an object of the dictionary, so it holds at least a byte. -/
theorem odBytes_tmState_pos : ∀ t < 32, 0 < odBytes (0x26E0 + t) 0x13 := by decide +kernel

theorem tmGet_tmPut_state {t : Nat} (ht : t < 32) (w : Work) : tmGet (tmPut t 0x13 1 w).toBlk t 0x13 = 1 := by
  have hbits : 8 * odBytes (0x26E0 + t) 0x13 ≠ 0 := by
    have hbytes := odBytes_tmState_pos t ht
    omega
  exact (Laws.odGet_odPut_self _ _ _ w).trans (Nat.one_mod_two_pow_eq_one.2 (Nat.pos_of_ne_zero hbits))

/-- After a reset the slot is in service, with no page of it resident. -/
theorem tmReset_pages (t : Nat) (w : Work) : (tmReset t w).tm.pages = w.tm.pages.filter (fun q => q.1 / 32768 != t) := rfl

theorem tmGet_tmReset_state {t : Nat} (ht : t < 32) (w : Work) : tmGet (tmReset t w).toBlk t 0x13 = 1 :=
  tmGet_tmPut_state ht _

/-- A reset stores nothing and leaves the engines alone. -/
theorem tmReset_frame (t : Nat) (w : Work) : (tmReset t w).wr = w.wr ∧ (tmReset t w).engines = w.engines := by
  simp only [tmReset, tmPut, modTm, Laws.odPut_wr, Laws.odPut_engines, and_self]

/-- Settles O19: each row takes the committed effect that it finds and runs it; a pin and an unpin meet a resident page. -/
theorem temporalCommits : Obligations.TemporalCommits := by
  intro s t lp f glob p ht
  refine ⟨fun hresident hfind => ⟨fun hlimits => ?_, fun hlimits => ?_⟩, fun hresident hfind => ?_, fun hfind => ?_⟩
  · exact nextOf_effectRow_of_find (f := fun w => countPins t (setPage t f _ w)) hfind
      (pinPage_of_allowed (w := effectTaken _ (workOf s)) hresident hlimits)
  · exact nextOf_effectRow_of_find (f := id) hfind (pinPage_of_refused (w := effectTaken _ (workOf s)) hresident hlimits)
  · exact nextOf_effectRow_of_find (f := fun w => countPins t (setPage t f _ w)) hfind
      (unpinPage_of_resident (w := effectTaken _ (workOf s)) hresident)
  · have hexec : exec .tmReset s = nextOf s (tmReset t ∘ effectTaken (.tmReset t)) := nextOf_effectRow_of_find hfind rfl
    obtain ⟨hstores, hengines⟩ := tmReset_frame t (effectTaken (.tmReset t) (workOf s))
    refine ⟨hexec, (completes_iff_of_nextOf hexec _).2 ⟨tmReset_pages t _, tmGet_tmReset_state ht _, ?_, hengines⟩⟩
    rw [Laws.commitWork_mem, Function.comp_apply, hstores]
    rfl

end Sys2Proof.Proofs
end

section
/-! The walk of a temporal slot (08 R198, R201, R205, R207). A phase that is due works from the page map, or meets an entry of
it that is uncorrectable. -/

namespace Sys2Proof.Proofs

open Sys2Proof.Machine

/-- The phase that a slot's walk has reached, for its backward or for its forward slice. -/
def walkReached (b : Blk) (t : Nat) (back : Bool) : Nat := if back then (tmSlot b t).back else (tmSlot b t).phase

/-- The context of that slice. -/
def walkCtx (b : Blk) (t : Nat) (back : Bool) : Nat := if back then tmBack b t else tmFwd b t

/-! ## The two phases -/

section Walk

variable {t e : Nat} {ue : Option Nat} {w : Work} (hengine : tmEngine w.toBlk t = some e)

section Due

variable {back : Bool} (hruns : sliceRuns w.toBlk (walkCtx w.toBlk t back) = true)

include hruns

/-- What WALK_PHASE1 asks for. -/
theorem walkPhase1_due (hphase : walkReached w.toBlk t back = 1) :
    ¬ (walkReached w.toBlk t back ≠ 1 ∨ sliceRuns w.toBlk (walkCtx w.toBlk t back) = false) := by
  simp [hphase, hruns]

include hengine

/-- Phase 1 from a map without errors: translations, header and fixed descriptors, signal (R198, R199). -/
theorem walkPhase1_of_sound (hphase : walkReached w.toBlk t back = 1) (hsound : ue.bind (residentOf w.toBlk t) = none) :
    walkPhase1 t back ue w =
      let es := if back then (tmSlot w.toBlk t).list else tmList w.toBlk t (tmSlot w.toBlk t).pos none
      modTm t (fun x => if back then { x with back := 2 } else { x with phase := 2 })
        (signalDone t e (tmPhase1 t e back (labLooks (e / 128) t es w))) := by
  simp only [walkPhase1, hengine, hsound]
  exact if_neg (walkPhase1_due hruns hphase)

/-- Phase 1 ends at an entry that is uncorrectable (R207). -/
theorem walkPhase1_of_uncorrectable {f : Nat} {p : Page} (hphase : walkReached w.toBlk t back = 1)
    (hbad : ue.bind (residentOf w.toBlk t) = some (f, p)) :
    walkPhase1 t back ue w = mapUncorrectable t (walkCtx w.toBlk t back) p.logical w := by
  simp only [walkPhase1, hengine, hbad]
  exact if_neg (walkPhase1_due hruns hphase)

/-- And so does phase 2. -/
theorem walkPhase2_of_uncorrectable {f : Nat} {p : Page} (hphase : walkReached w.toBlk t back = 2)
    (htrigger : back = false → triggerOf w.toBlk t ≠ 0) (hbad : ue.bind (residentOf w.toBlk t) = some (f, p)) :
    walkPhase2 t back ue w = mapUncorrectable t (walkCtx w.toBlk t back) p.logical w := by
  have hdue : ¬ (walkReached w.toBlk t back ≠ 2 ∨ sliceRuns w.toBlk (walkCtx w.toBlk t back) = false ∨
      (back = false ∧ triggerOf w.toBlk t = 0)) := by simpa [hphase, hruns] using htrigger
  simp only [walkPhase2, hengine, hbad]
  exact if_neg hdue

end Due

include hengine

/-- Phase 2 of a backward slice uses the list of the forward one (R205). -/
theorem walkPhase2_backward_of_sound (hphase : (tmSlot w.toBlk t).back = 2)
    (hruns : sliceRuns w.toBlk (tmBack w.toBlk t) = true) (hsound : ue.bind (residentOf w.toBlk t) = none) :
    walkPhase2 t true ue w =
      signalDone t e (modTm t (fun x => { x with back := 3 }) (tmPhase2 t e (tmSlot w.toBlk t).list w)) := by
  simp only [walkPhase2, hengine, hsound]
  exact (if_neg (by simp [hphase, hruns])).trans (if_pos trivial)

/-- Phase 2 of a forward slice takes the trigger; pair 4 has staged its list, or the scores at that moment rank it (R198,
R201). -/
theorem walkPhase2_forward_of_sound (hphase : (tmSlot w.toBlk t).phase = 2)
    (hruns : sliceRuns w.toBlk (tmFwd w.toBlk t) = true) (htrigger : triggerOf w.toBlk t ≠ 0)
    (hsound : ue.bind (residentOf w.toBlk t) = none) :
    walkPhase2 t false ue w =
      let b := w.toBlk
      let w := takeTrigger t w
      let l := if pair4Mode b t then (tmSlot b t).list else tmList b t (tmSlot b t).pos (some (tmScoresAt w t e))
      let w := labLooks (e / 128) t (l.filter (fun x => x.source == 1)) w
      let keep := if pair4Mode b t then some (tmScoresAt w t e) else none
      signalDone t e (modTm t (fun x => { x with phase := 3, list := l, scores := keep }) (tmPhase2 t e l w)) := by
  simp only [walkPhase2, hengine, hsound]
  exact (if_neg (by simp [hphase, hruns, htrigger])).trans (if_neg Bool.false_ne_true)

/-- The masses are read at the second trigger, while the slice lives. -/
theorem massRead_of_due (hphase : (tmSlot w.toBlk t).phase = 3)
    (hlive : (sliceOf w.toBlk (tmFwd w.toBlk t)).live = true) (htrigger : triggerOf w.toBlk t ≠ 0) :
    massRead t w =
      let ms := (List.range (tmA w.toBlk t)).map (fun i => rdNat w (spmKey e (tmPart w.toBlk t 5 + 4 * i)) 4)
      modTm t (fun x => { x with phase := 4, masses := ms }) (takeTrigger t w) := by
  simp only [massRead, hengine]
  exact if_neg (by simp [hphase, hlive, htrigger])

end Walk

/-! ## The list of pair 4 -/

section Build

variable {t : Nat} {ue : Option Nat} {w : Work} (hmode : pair4Mode w.toBlk t = true) (hserves : tmGet w.toBlk t 0x13 = 1)
  (hlive : (sliceOf w.toBlk (tmFwd w.toBlk t)).live = false) (hpair : pairRuns w.toBlk 4 = true)

include hmode hserves hlive hpair

/-- Pair 4 builds for a slot in service, between two slices of its forward context. -/
theorem pair4Build_due :
    ¬ (pair4Mode w.toBlk t = false ∨ tmGet w.toBlk t 0x13 ≠ 1 ∨ (sliceOf w.toBlk (tmFwd w.toBlk t)).live = true ∨
      pairRuns w.toBlk 4 = false) := by
  simp [hmode, hserves, hlive, hpair]

/-- From a map without errors it stages the list. -/
theorem pair4Build_of_sound (hsound : ue.bind (residentOf w.toBlk t) = none) :
    pair4Build t ue w =
      modTm t (fun x => { x with staged := some (tmList (tmAllocate t w).toBlk t (tmGet w.toBlk t 0x15) x.scores) }) w := by
  simp only [pair4Build, hsound]
  exact if_neg (pair4Build_due hmode hserves hlive hpair)

/-- Where an entry is uncorrectable it stages none (log 142). -/
theorem pair4Build_of_uncorrectable {f : Nat} {p : Page} (hbad : ue.bind (residentOf w.toBlk t) = some (f, p)) :
    pair4Build t ue w = modTm t (fun x => { x with staged := none }) (mapClear t p.logical w) := by
  simp only [pair4Build, hbad]
  exact if_neg (pair4Build_due hmode hserves hlive hpair)

end Build

/-- Settles O20: each clause is a step that is due, on a page map that is sound or on one with an entry that is not. -/
theorem temporalWalk : Obligations.TemporalWalk := by
  intro s t e ue ht
  have hok : decide (t < 32) = true := decide_eq_true ht
  have hphase1 : ∀ back, exec (.walkPhase1 t back ue) s = nextOf s (walkPhase1 t back ue) := fun _ =>
    perform_of_accepted hok rfl
  have hphase2 : ∀ back, exec (.walkPhase2 t back ue) s = nextOf s (walkPhase2 t back ue) := fun _ =>
    perform_of_accepted hok rfl
  have hread : exec (.massRead t) s = nextOf s (massRead t) := perform_of_accepted hok rfl
  have hbuild : exec (.pair4ListBuild { slot := t, ue }) s = nextOf s (pair4Build t ue) := perform_of_accepted hok rfl
  simp only [hphase1, hphase2, hread, hbuild]
  refine ⟨fun hengine => ⟨fun hsound => ⟨?_, ?_, ?_, ?_⟩, fun f p hbad => ⟨?_, ?_, ?_, ?_⟩, ?_⟩,
    fun hmode hserves hlive hpair => ⟨fun hsound => ?_, fun f p hbad => ?_⟩⟩
  · rintro ⟨hphase, hruns⟩
    exact nextOf_congr (walkPhase1_of_sound (w := workOf s) (back := false) hengine hruns hphase hsound)
  · rintro ⟨hphase, hruns⟩
    exact nextOf_congr (walkPhase1_of_sound (w := workOf s) (back := true) hengine hruns hphase hsound)
  · rintro ⟨hphase, hruns⟩
    exact nextOf_congr (walkPhase2_backward_of_sound (w := workOf s) hengine hphase hruns hsound)
  · rintro ⟨hphase, hruns, htrigger⟩
    exact nextOf_congr (walkPhase2_forward_of_sound (w := workOf s) hengine hphase hruns htrigger hsound)
  · rintro ⟨hphase, hruns⟩
    exact nextOf_congr (walkPhase1_of_uncorrectable (w := workOf s) (back := false) hengine hruns hphase hbad)
  · rintro ⟨hphase, hruns⟩
    exact nextOf_congr (walkPhase1_of_uncorrectable (w := workOf s) (back := true) hengine hruns hphase hbad)
  · rintro ⟨hphase, hruns, htrigger⟩
    exact nextOf_congr
      (walkPhase2_of_uncorrectable (w := workOf s) (back := false) hengine hruns hphase (fun _ => htrigger) hbad)
  · rintro ⟨hphase, hruns⟩
    exact nextOf_congr (walkPhase2_of_uncorrectable (w := workOf s) (back := true) hengine hruns hphase nofun hbad)
  · intro hphase hlive htrigger
    exact nextOf_congr (massRead_of_due (w := workOf s) hengine hphase hlive htrigger)
  · exact nextOf_congr (pair4Build_of_sound (w := workOf s) hmode hserves hlive hpair hsound)
  · exact nextOf_congr (pair4Build_of_uncorrectable (w := workOf s) hmode hserves hlive hpair hbad)

end Sys2Proof.Proofs
end

section
/-! Camera packets (09 R218, R219): what a receiver does with a long packet that has found its place, and with a short one. -/

namespace Sys2Proof.Proofs

open Sys2Proof.Machine

/-! ## Long packets -/

section LongPacket

variable {n vc dt t : Nat} {payload : List Byte} {met : PipeMet} {w : Work} (hon : cameraOn (atTime t w).toBlk n = true)

include hon

/-- A packet of another channel or type only names the moment. -/
theorem longPacket_of_other (crcOk : Bool) (hother : vc ≠ inGet (atTime t w).toBlk n 7 ∨ dt ≠ inGet (atTime t w).toBlk n 8) :
    longPacket n vc dt t false false crcOk met payload w = atTime t w := by
  rw [longPacket, if_neg (by simp [hon])]
  exact if_pos ⟨rfl, hother⟩

section Placed

variable {f : SFrame} {pos : Nat} {v : Work} (hvc : vc = inGet (atTime t w).toBlk n 7) (hdt : dt = inGet (atTime t w).toBlk n 8)
  (hplace : placeAt n (moment t w) none (atTime t w) = (some (f, pos), v))

include hvc hdt hplace

/-- A packet of the stream's channel and type whose place is found: its CRC-16, its length, and then its record's way. -/
theorem longPacket_of_placed (crcOk : Bool) :
    longPacket n vc dt t false false crcOk met payload w =
      if crcOk = false then decide_ n f.idx pos (.lost 1 0xFFFFFF) (inAdd n 0x44 1 v)
      else if payload.length * 8 ≠ imgW v.toBlk n * csiBits dt then
        decide_ n f.idx pos (.lost 2 0xFFFFFF) (inAdd n 0x44 1 v)
      else admitRecord n f.idx pos payload.length (pipeCheck n f.idx pos met.ue (met.crc || met.writer) (fun w =>
        decide_ n f.idx pos (.good (rowRec w.toBlk n dt (rowTime w.toBlk n f pos) 0 payload)) w)) v := by
  have hown : ¬ (false = false ∧ (vc ≠ inGet (atTime t w).toBlk n 7 ∨ dt ≠ inGet (atTime t w).toBlk n 8)) := by
    simp [← hvc, ← hdt]
  rw [longPacket, if_neg (by simp [hon])]
  refine (if_neg hown).trans ?_
  simp only [Laws.doIf_false, hplace, Bool.false_eq_true, false_or]

end Placed

end LongPacket

/-! ## Short packets -/

section ShortPacket

variable {n : Nat} {h : ShortHead} {w : Work} (f : Work → Work) (hon : cameraOn w.toBlk n = true)

include hon

/-- A short packet of the stream's channel whose header holds acts. -/
theorem shortPacket_of_valid (hbad : h.bad = false) (hvc : h.vc = inGet (doIf h.fixed (inAdd n 0x45 1) w).toBlk n 7) :
    shortPacket n h f w = f (doIf h.fixed (inAdd n 0x45 1) w) := by
  rw [shortPacket, if_neg (by simp [hon])]
  exact if_pos ⟨hbad, hvc⟩

/-- One whose header fails, or of another channel, only counts the bit that its header's ECC corrected (log 149). -/
theorem shortPacket_of_other
    (hother : h.bad = true ∨ h.vc ≠ inGet (doIf h.fixed (inAdd n 0x45 1) w).toBlk n 7) :
    shortPacket n h f w = doIf h.fixed (inAdd n 0x45 1) w := by
  rw [shortPacket, if_neg (by simp [hon])]
  exact if_neg (by rintro ⟨hgood, hvc⟩; simp [hgood, hvc] at hother)

/-- A short packet that has no effect of its own counts the corrected bit, whatever its header says. -/
theorem shortPacket_id : shortPacket n h id w = doIf h.fixed (inAdd n 0x45 1) w := by
  rw [shortPacket, if_neg (by simp [hon])]
  exact ite_self _

end ShortPacket

/-- Settles O21. That an uncorrectable word of the row stores is unit 0x400 is log 160, and that a corrected header counts
whatever its channel is log 149: the model's own choices. -/
theorem cameraPackets : Obligations.CameraPackets := by
  intro s n vc dt t payload f pos v met h hn hvcLt hdtLt hheadLt
  have hlongOk : (decide (n < 16) && decide (vc < 16) && decide (dt < 64)) = true := by simp [hn, hvcLt, hdtLt]
  have hshortOk : (decide (n < 16) && decide (h.vc < 16)) = true := by simp [hn, hheadLt]
  have hlong : ∀ crcOk, exec (.csi2LongPacket n vc dt t false false crcOk met payload) s =
      nextOf s (longPacket n vc dt t false false crcOk met payload) := fun _ => perform_of_accepted hlongOk rfl
  have hstart : exec (.csi2FrameStart n h t) s = nextOf s (frameStart n h t) := perform_of_accepted hshortOk rfl
  have hend : exec (.csi2FrameEnd n h t) s = nextOf s (frameEndPacket n h t) := perform_of_accepted hshortOk rfl
  have hline : exec (.csi2LineShortPacket n h) s = nextOf s (linePacket n h) := perform_of_accepted hshortOk rfl
  simp only [hlong, hstart, hend, hline]
  refine ⟨fun hon => ⟨fun hvc hdt hplace => ?_, fun hother crcOk => ?_⟩, fun hon => ⟨fun hbad hvc => ?_, fun hother => ?_, ?_⟩,
    fun hon => ?_⟩
  · have hplaced := longPacket_of_placed (met := met) (payload := payload) (w := workOf s) hon hvc hdt hplace
    refine ⟨fun hlength => ?_, fun hlength => ?_, ?_⟩
    · exact nextOf_congr ((hplaced true).trans (if_neg (not_not_intro hlength)))
    · exact nextOf_congr ((hplaced true).trans (if_pos hlength))
    · exact nextOf_congr (hplaced false)
  · exact nextOf_congr (longPacket_of_other (w := workOf s) hon crcOk hother)
  · exact nextOf_congr (shortPacket_of_valid _ hon hbad hvc)
  · exact nextOf_congr (shortPacket_of_other _ hon hother)
  · exact nextOf_congr (shortPacket_id hon)
  · exact nextOf_congr (shortPacket_id hon)

end Sys2Proof.Proofs
end

section
/-! Ethernet frames (09 R216, R220, R226): where a frame that is received on a port that is up goes. -/

namespace Sys2Proof.Proofs

open Sys2Proof.Machine

section EtherFrame

variable {p t0 t : Nat} {x : FrameMet} {m : List Byte} {w : Work} (hruns : inRuns (atTime t w).toBlk = true)
  (hup : odGet (atTime t w).toBlk (0x2820 + p) 0xB = 1)

include hruns hup

/-- A port that is up takes frames while the pipeline runs. -/
theorem etherFrame_taken : ¬ (inRuns (atTime t w).toBlk = false ∨ odGet (atTime t w).toBlk (0x2820 + p) 0xB ≠ 1) := by
  simp [hruns, hup]

theorem etherFrame_of_bad_fcs (hfcs : x.fcs = false) :
    etherFrame p t0 t x m w = odAdd (0x2820 + p) 0xE 1 (atTime t w) := by
  rw [etherFrame, if_neg (etherFrame_taken hruns hup), if_pos hfcs]

section Sound

variable (hother : otherRow (atTime t w).toBlk p m = false) (hfcs : x.fcs = true)

include hother hfcs

/-- Of the frames whose FCS holds and that have no row of their own, one without a datagram is counted and dropped. -/
theorem etherFrame_of_no_datagram (hnone : udpOf m = none) :
    etherFrame p t0 t x m w = odAdd (0x2820 + p) 0xC 1 (atTime t w) := by
  rw [etherFrame, if_neg (etherFrame_taken hruns hup)]
  simp [hfcs, hother, hnone]

section WithDatagram

variable {d : Datagram} (hdatagram : udpOf m = some d)

include hdatagram

theorem etherFrame_of_no_stream (hnone : matchStream (atTime t w).toBlk p m d.src d.port = none) :
    etherFrame p t0 t x m w = odAdd (0x2820 + p) 0xC 1 (atTime t w) := by
  rw [etherFrame, if_neg (etherFrame_taken hruns hup)]
  simp [hfcs, hother, hdatagram, hnone]

/-- A stream's datagram is checked, and goes by the stream's type. -/
theorem etherFrame_of_stream {n : Nat} (hstream : matchStream (atTime t w).toBlk p m d.src d.port = some n) :
    etherFrame p t0 t x m w =
      if d.good = false then inAdd n 0x44 1 (atTime t w)
      else if inType (atTime t w).toBlk n = 3 then rtpPacket n (moment t w) d.body (atTime t w)
      else datagram n t0 (moment t w) x.met d.body (atTime t w) := by
  rw [etherFrame, if_neg (etherFrame_taken hruns hup)]
  simp only [hfcs, hother, hdatagram, hstream, Bool.true_eq_false, Bool.false_eq_true, if_false]

end WithDatagram

end Sound

end EtherFrame

end Sys2Proof.Proofs
end

section
/-! The JPEG XS decoders (09 R226, R227): a slice's decode starts, completes, or runs out of its budget. -/

namespace Sys2Proof.Proofs

open Sys2Proof.Machine

/-- A record in which the pipeline finds nothing wrong goes on. -/
@[simp] theorem pipeCheck_of_clean (n idx pos : Nat) (f : Work → Work) (w : Work) : pipeCheck n idx pos none false f w = f w := rfl

/-- The work of a decoder that has taken a slice from its queue, the slices of `rest` still waiting. -/
def sliceTaken (n t : Nat) (rest : List JxsJob) (w : Work) : Work := modIn n (fun x => { x with queue := rest }) (atTime t w)

section Start

variable {n t : Nat} {h : JxsHead} {j : JxsJob} {rest : List JxsJob} {w : Work} (hruns : inRuns (atTime t w).toBlk = true)
  (hqueue : (inOf (atTime t w).toBlk n).queue = j :: rest) (hidle : (inOf (atTime t w).toBlk n).run = none)
  (hue : h.met.ue = none) (hcrc : h.met.crc = false)

include hruns hqueue hidle hue hcrc

/-- An idle decoder takes the next slice, whose codestream's header decides whether it is decoded. -/
theorem decodeStart_of_waiting :
    decodeStart n t h w =
      if isOutside (sliceTaken n t rest w).toBlk n j.idx = true ∨ jxsInside (sliceTaken n t rest w).toBlk n h = false then
        decide_ n j.idx j.pos (.lost 7 0xFFFFFF) (jxsOutside n j.idx (sliceTaken n t rest w))
      else
        modIn n (fun x => { x with run := some { j with start := moment t w, depth := h.depth, tall := h.tall } })
          (sliceTaken n t rest w) := by
  simp only [decodeStart, hqueue, hidle, hruns, hue, hcrc, Bool.true_eq_false, if_false]
  rfl

end Start

section Run

variable {n t : Nat} {j : JxsJob} {w : Work} (hrun : (inOf (atTime t w).toBlk n).run = some j)

include hrun

/-- Rows that come within the budget, and in which the pipeline finds nothing wrong, make the slice's record. -/
theorem decodeComplete_of_rows {depth : Nat} {met : PipeMet} {rows : List PRow}
    (hrows : rowsFit (atTime t w).toBlk n j depth rows = true)
    (hbudget : moment t w ≤ j.start + inGet (atTime t w).toBlk n 0x16) (hue : met.ue = none) (hcrc : met.crc = false)
    (hwriter : met.writer = false) :
    decodeComplete n t depth met rows w =
      decide_ n j.idx j.pos (.good { j.rec_ with rows := rows.map (fun r => r.map (fun p => p.map (fun v => v * 2 ^ (16 - depth)))) })
        (modIn n (fun x => { x with run := none }) (atTime t w)) := by
  simp [decodeComplete, hrun, hrows, Nat.not_lt.2 hbudget, hue, hcrc, hwriter]

/-- A decode whose budget has run out is abandoned where it stands. -/
theorem decodeExpired_of_due {off : Nat} (hdue : j.start + inGet (atTime t w).toBlk n 0x16 ≤ moment t w) :
    decodeExpired n t off w = abandonDecode n j off (atTime t w) := by
  simp only [decodeExpired, hrun]
  exact if_neg (Nat.not_lt.2 hdue)

end Run

section Exec

variable {s : State} {n t : Nat} (hlow : 16 ≤ n) (hhigh : n < 32)

include hlow hhigh

theorem exec_jxsDecodeStart {h : JxsHead} : exec (.jxsDecodeStart n t h) s = nextOf s (decodeStart n t h) := by
  have hok : (decide (16 ≤ n) && decide (n < 32)) = true := by simp [hlow, hhigh]
  exact perform_of_accepted hok rfl

theorem exec_jxsDecodeComplete {depth : Nat} {met : PipeMet} {rows : List PRow} (hmin : 8 ≤ depth) (hmax : depth ≤ 12) :
    exec (.jxsDecodeComplete n t depth met rows) s = nextOf s (decodeComplete n t depth met rows) := by
  have hok : (decide (16 ≤ n) && decide (n < 32) && decide (8 ≤ depth) && decide (depth ≤ 12)) = true := by
    simp [hlow, hhigh, hmin, hmax]
  exact perform_of_accepted hok rfl

theorem exec_jxsDecodeBudgetExpired {off : Nat} (hoff : off < 2 ^ 24) :
    exec (.jxsDecodeBudgetExpired n t off) s = nextOf s (decodeExpired n t off) := by
  have hok : (decide (16 ≤ n) && decide (n < 32) && decide (off < 2 ^ 24)) = true := by simpa [hlow, hhigh] using hoff
  exact perform_of_accepted hok rfl

end Exec

end Sys2Proof.Proofs
end

section
/-! Silent sensors, deadlines and replayed records (09 R213, R215, R235), and the commands of Ethernet ingest as a whole. -/

namespace Sys2Proof.Proofs

open Sys2Proof.Machine

section Stream

variable {n t : Nat} {w : Work} (henabled : inEnabled (atTime t w).toBlk n = true) (hruns : inRuns (atTime t w).toBlk = true)
  (hbound : inFree (atTime t w).toBlk n = false)

include henabled hruns hbound

/-- A stream without TRIGGER whose next frame has not begun by its time is silent: the frame begins, is reported and is given
up. -/
theorem sensorSilent_of_due {r : Nat} (hlast : (inOf (atTime t w).toBlk n).lastRef = some r)
    (htrigger : inTrigger (atTime t w).toBlk n = 0xFF)
    (hdue : r + inGet (atTime t w).toBlk n 0x11 + inGet (atTime t w).toBlk n 0x14 ≤ moment t w) :
    sensorSilent n t w =
      let next := (inOf (atTime t w).toBlk n).next
      goneFrame n next (raise 0x060 n (next % 65536) (inAdd n 0x42 1
        (beginFrame n (r + inGet (atTime t w).toBlk n 0x11) none (atTime t w)))) := by
  simp only [sensorSilent, hlast]
  exact if_neg (by simp [henabled, hruns, hbound, htrigger, Nat.not_lt.2 hdue])

/-- The open positions of a frame that no record has reached by their deadline. -/
def overdue (n now : Nat) (b : Blk) (f : SFrame) : List Nat :=
  (List.range (inRecords b n)).filter (fun r => decide (f.closed ≤ r) && (tabGet none f.ready r).isNone &&
    !f.busy.contains r && decide (deadlineOf b n f r ≤ now))

/-- Every frame's overdue positions are lost, and those whose turn has come close. -/
theorem positionDeadline_of_bound :
    positionDeadline n t w =
      closeReady n (forAll (inOf (atTime t w).toBlk n).frames (fun f v =>
        modFrame n f.idx (fun g => { g with
          ready := (overdue n (moment t w) v.toBlk f).foldl (fun tab r => tabSet none tab r (some (Fate.lost 8 0xFFFFFF))) g.ready }) v)
        (atTime t w)) :=
  if_neg (by simp [henabled, hruns, hbound])

end Stream

/-- Settles O22: each clause is the meaning of its command where the command is due. -/
theorem streamCommands : Obligations.StreamCommands := by
  intro s n p t0 t depth off r x m h met rows j rest a now
  refine ⟨fun hp hruns hup => ?_, fun hlow hhigh hruns hqueue hidle => ?_, ?_, ?_, ?_, ?_, ?_⟩
  · have hexec : ∀ x, exec (.ethernetFrameReceived p t0 t x m) s = nextOf s (etherFrame p t0 t x m) := fun _ =>
      perform_of_accepted (decide_eq_true hp) rfl
    simp only [hexec]
    refine ⟨nextOf_congr (etherFrame_of_bad_fcs (w := workOf s) hruns hup rfl), fun hother hfcs => ⟨fun hnone => ?_, fun d hd =>
      ⟨fun hnone => ?_, fun hstream => ?_⟩⟩⟩
    · exact nextOf_congr (etherFrame_of_no_datagram (w := workOf s) hruns hup hother hfcs hnone)
    · exact nextOf_congr (etherFrame_of_no_stream (w := workOf s) hruns hup hother hfcs hd hnone)
    · have hgoes := etherFrame_of_stream (t0 := t0) (w := workOf s) hruns hup hother hfcs hd hstream
      refine ⟨fun hbad => ?_, fun hgood htype => ?_, fun hgood htype => ?_⟩
      · exact nextOf_congr (hgoes.trans (if_pos hbad))
      · exact nextOf_congr (hgoes.trans ((if_neg (by simp [hgood])).trans (if_pos htype)))
      · exact nextOf_congr (hgoes.trans ((if_neg (by simp [hgood])).trans (if_neg htype)))
  · intro taken hue hcrc
    have hstart := decodeStart_of_waiting (w := workOf s) hruns hqueue hidle hue hcrc
    rw [exec_jxsDecodeStart hlow hhigh]
    refine ⟨fun hknown hinside => ?_, fun hout => ?_⟩
    · exact nextOf_congr (hstart.trans (if_neg (not_or.2 ⟨Bool.eq_false_iff.1 hknown, Bool.ne_false_iff.2 hinside⟩)))
    · exact nextOf_congr (hstart.trans (if_pos hout))
  · intro hlow hhigh hmin hmax hrun hrows hbudget hue hcrc hwriter
    rw [exec_jxsDecodeComplete hlow hhigh hmin hmax]
    exact nextOf_congr (decodeComplete_of_rows (w := workOf s) hrun hrows hbudget hue hcrc hwriter)
  · intro hlow hhigh hoff hrun hdue
    rw [exec_jxsDecodeBudgetExpired hlow hhigh hoff]
    exact nextOf_congr (decodeExpired_of_due (w := workOf s) hrun hdue)
  · intro hn hlast henabled hruns hbound htrigger hdue
    have hexec : exec (.sensorSilent n t) s = nextOf s (sensorSilent n t) := perform_of_accepted (decide_eq_true hn) rfl
    rw [hexec]
    exact nextOf_congr (sensorSilent_of_due (w := workOf s) henabled hruns hbound hlast htrigger hdue)
  · intro hn henabled hruns hbound
    have hexec : exec (.positionDeadline n t) s = nextOf s (positionDeadline n t) := perform_of_accepted (decide_eq_true hn) rfl
    rw [hexec]
    exact nextOf_congr (positionDeadline_of_bound (w := workOf s) henabled hruns hbound)
  · intro hd y q hframe
    have hexec : exec (.replayRecord hd y q) s = nextOf s (replayFrame hd y q) := perform_of_accepted hframe.1 rfl
    rw [hexec]
    exact nextOf_congr (crino_of_frameServed hframe _)

end Sys2Proof.Proofs
end

section
/-! How an accepted command answers, once its effect is known on the state that it finds. -/

namespace Sys2Proof.Proofs

open Sys2Proof.Machine

/-- A command that is accepted, and whose effect is `g` on the state it finds, answers as one whose effect is `g`. -/
theorem perform_eq_nextOf {ok there : Bool} {f g : Work → Work} {s : State} (hok : ok = true) (hthere : there = true)
    (heq : f (workOf s) = g (workOf s)) : perform ok there f s = nextOf s g :=
  (perform_of_accepted hok hthere).trans (nextOf_congr heq)

end Sys2Proof.Proofs
end

section
/-! The messages of 802.1AS (11 R275, R277): what the port that follows takes from them, and what a master port sends. -/

namespace Sys2Proof.Proofs

open Sys2Proof.Machine

section Follower

variable {port : Nat} {w : Work} (hfollows : follows w.toBlk port 0 = true)

include hfollows

/-- A Sync waits, with its moment, for its Follow_Up. -/
theorem gptpSync_of_follower (seq t : Nat) :
    gptpSync port 0 seq t w = { atTime t w with time.openSync := some (seq, moment t w) } :=
  if_pos hfollows

theorem gptpPdelay_of_follower (t1 t2 t3 t4 : Int) :
    gptpPdelay port t1 t2 t3 t4 w = { w with time.pathDelay := ((t4 - t1) - (t3 - t2)) / 2 } :=
  if_pos hfollows

/-- The Follow_Up of the Sync that waits makes a sample: the Sync's moment, and the network time that it carries with the
path's delay. -/
theorem gptpFollowUp_of_open {seq t : Nat} (origin corr : Int) (hopen : w.time.openSync = some (seq, t)) :
    gptpFollowUp port 0 seq origin corr w =
      let delay : Int := if odGet w.toBlk 0x2101 6 = 1 then (odGet w.toBlk 0x2101 7 : Int) else w.time.pathDelay
      servoSample 2 { dev := t, net := origin + corr + delay } { w with time.openSync := none } := by
  simp only [gptpFollowUp, hopen]
  exact if_pos ⟨hfollows, trivial⟩

end Follower

section Master

variable {port t : Nat} {w : Work} (hsends : sends (atTime t w).toBlk port = true)

include hsends

theorem gptpAnnounceSend_of_master :
    gptpAnnounceSend port t w =
      send (.ether port 3 []) { atTime t w with pins.annSent := tabInsert (atTime t w).pins.annSent port (moment t w) } :=
  if_pos hsends

/-- A Sync and its Follow_Up leave unless the last one is less than an interval old. -/
theorem gptpSyncSend_of_due (hdue : ∀ l, tabFind (atTime t w).pins.syncSent port = some l →
      l + syncInterval (atTime t w).toBlk ≤ moment t w) :
    gptpSyncSend port t w =
      let noted := { atTime t w with pins.syncSent := tabInsert (atTime t w).pins.syncSent port (moment t w) }
      send (.ether port 2 (leBytes 8 (mapNet noted.time (moment t w)).toNat)) (send (.ether port 1 []) noted) := by
  refine (if_neg (by simp [hsends])).trans ?_
  cases hlast : tabFind (atTime t w).pins.syncSent port with
  | none => rfl
  | some l => exact if_neg (by simpa using hdue l hlast)

end Master

/-- Settles O23: each message meets a port that takes it or sends it. That a peer delay exchange gives half of what the link adds
both ways is log 46. -/
theorem gptpCommands : Obligations.GptpCommands := by
  intro s port seq t origin corr t1 t2 t3 t4 hport hseq
  have hok : (decide (port < 5) && decide (0 < 256) && decide (seq < 65536)) = true := by simp [hport, hseq]
  refine ⟨fun hfollows => ⟨?_, ?_, fun hopen => ?_⟩, perform_of_accepted (decide_eq_true hport) rfl,
    fun hsends => ⟨?_, fun hdue => ?_⟩⟩
  · exact perform_eq_nextOf hok rfl (gptpSync_of_follower (w := workOf s) hfollows seq t)
  · exact perform_eq_nextOf (decide_eq_true hport) rfl (gptpPdelay_of_follower (w := workOf s) hfollows t1 t2 t3 t4)
  · exact perform_eq_nextOf hok rfl (gptpFollowUp_of_open (w := workOf s) hfollows origin corr hopen)
  · exact perform_eq_nextOf (decide_eq_true hport) rfl (gptpAnnounceSend_of_master (w := workOf s) hsends)
  · exact perform_eq_nextOf (decide_eq_true hport) rfl (gptpSyncSend_of_due (w := workOf s) hsends hdue)

end Sys2Proof.Proofs
end

section
/-! The map of network time and its states (11 R273 to R276, 17 R437). -/

namespace Sys2Proof.Proofs

open Sys2Proof.Machine

/-! ## The map that waits -/

/-- Network time at the present boundary under the map that waits: from the first sample, or from the map in force. -/
def boundaryNet (m : NewMap) (t : TimeBase) : Int :=
  match m.first with
  | some (ti, ni) => ni + (t.ns - ti) + (t.ns - ti) * m.rate / 2 ^ 40
  | none => mapNet t t.ns + m.delta

/-- The work once the map that waits is taken; a grandmaster's own brings its state. -/
def mapTaken (m : NewMap) (w : Work) : Work :=
  { w with time.newMap := none, time.sync := if m.own.isSome then 5 else w.time.sync }

/-- The map's T0, N0 and RATE. -/
def mapValues (m : NewMap) (t : TimeBase) : Nat × Int × Int :=
  match m.own with
  | some n => (0, n, 0)
  | none => (t.ns, boundaryNet m t, m.rate)

section Waiting

variable {m : NewMap} {w : Work} (hwaits : w.time.newMap = some m)

include hwaits

theorem mapUpdate_of_early (hearly : w.time.beat < m.due) : mapUpdate w = w := by
  simp only [mapUpdate, hwaits]
  exact if_pos (Or.inr hearly)

section Due

variable (hboundary : w.time.ns = 2000 * w.time.beat) (hdue : m.due ≤ w.time.beat)

include hboundary hdue

/-- At its boundary the map takes effect here, or is given to the members of the cascade, who set it two beats later. -/
theorem mapUpdate_of_due :
    mapUpdate w =
      let map := mapValues m w.time
      if odGet w.toBlk 0x2700 4 = 2 then
        { mapTaken m w with casc.map := some (w.time.beat + 2, map.1, map.2.1, map.2.2, (w.time.gen + 1) % 2 ^ 32) }
      else setMap map.1 map.2.1 map.2.2 (mapTaken m w) := by
  have hnow : ¬ (w.time.ns ≠ 2000 * w.time.beat ∨ w.time.beat < m.due) := by omega
  simp only [mapUpdate, hwaits, if_neg hnow]
  rfl

/-- The servo's map keeps the state. -/
theorem mapUpdate_of_servo (hown : m.own = none) :
    mapUpdate w =
      if odGet w.toBlk 0x2700 4 = 2 then
        { w with
          time.newMap := none,
          casc.map := some (w.time.beat + 2, w.time.ns, boundaryNet m w.time, m.rate, (w.time.gen + 1) % 2 ^ 32) }
      else setMap w.time.ns (boundaryNet m w.time) m.rate { w with time.newMap := none } := by
  rw [mapUpdate_of_due hwaits hboundary hdue]
  simp only [mapValues, mapTaken, hown, Option.isSome_none, Bool.false_eq_true, if_false]

/-- A grandmaster's own map brings its state. -/
theorem mapUpdate_of_own {g : Int} (hown : m.own = some g) :
    mapUpdate w =
      if odGet w.toBlk 0x2700 4 = 2 then
        { w with
          time.newMap := none, time.sync := 5,
          casc.map := some (w.time.beat + 2, 0, g, 0, (w.time.gen + 1) % 2 ^ 32) }
      else setMap 0 g 0 { w with time.newMap := none, time.sync := 5 } := by
  rw [mapUpdate_of_due hwaits hboundary hdue]
  simp only [mapValues, mapTaken, hown, Option.isSome_some, if_true]

end Due

end Waiting

/-! ## The states -/

/-- Holdover that was not the state already begins now. -/
theorem holdover_of_locked {w : Work} (hlocked : w.time.sync ≠ 4) :
    holdover w = { w with time.sync := 4, time.holdoverFrom := w.time.ns } := by
  rw [holdover, if_neg hlocked]

/-- Three intervals without an accepted sample, or 3 s with PPS, end the lock. -/
theorem syncTimeout_of_silent {w : Work}
    (hsilent : (w.time.sync = 2 ∧ w.time.lastSample + 3 * syncInterval w.toBlk ≤ w.time.ns) ∨
      (w.time.sync = 3 ∧ w.time.lastSample + 3000000000 ≤ w.time.ns)) :
    syncTimeout w = raise 0x091 (timePort w.toBlk) 0 { w with time.sync := 4, time.holdoverFrom := w.time.ns } := by
  rcases hsilent with ⟨hsync, hlimit⟩ | ⟨hsync, hlimit⟩
  · rw [← holdover_of_locked (by omega), syncTimeout, hsync]
    exact if_pos ⟨Or.inl rfl, hlimit⟩
  · rw [← holdover_of_locked (by omega), syncTimeout, hsync]
    exact if_pos ⟨Or.inr rfl, hlimit⟩

theorem holdoverExpire_of_over {w : Work} (harrives : mapArrives w.toBlk = false) (hsync : w.time.sync = 4)
    (hover : w.time.holdoverFrom + odGet w.toBlk 0x2100 0xD * 1000000000 ≤ w.time.ns) :
    holdoverExpire w = { w with time := { w.time with sync := 0, samples := [], good := 0, bad := 0 } } :=
  if_pos ⟨harrives, hsync, hover⟩

/-- Settles O24: the map that waits takes effect at its boundary, each state ends where its time is over, and the two rows of
committed effects run the effect that they find. -/
theorem timeMapCommands : Obligations.TimeMapCommands := by
  intro s m v g
  refine ⟨fun hwaits => ⟨fun hearly => ?_, fun hboundary hdue => ⟨?_, ?_, ?_, ?_⟩⟩, fun hsilent => ?_, ?_,
    fun hmem => ?_, fun hfind => ?_⟩
  · exact nextOf_congr (f := mapUpdate) (mapUpdate_of_early (w := workOf s) hwaits hearly)
  · intro halone hown
    exact nextOf_congr (f := mapUpdate) ((mapUpdate_of_servo (w := workOf s) hwaits hboundary hdue hown).trans (if_neg halone))
  · intro halone hown
    exact nextOf_congr (f := mapUpdate) ((mapUpdate_of_own (w := workOf s) hwaits hboundary hdue hown).trans (if_neg halone))
  · intro hformed hown
    exact nextOf_congr (f := mapUpdate) ((mapUpdate_of_servo (w := workOf s) hwaits hboundary hdue hown).trans (if_pos hformed))
  · intro hformed hown
    exact nextOf_congr (f := mapUpdate) ((mapUpdate_of_own (w := workOf s) hwaits hboundary hdue hown).trans (if_pos hformed))
  · exact nextOf_congr (f := syncTimeout) (syncTimeout_of_silent (w := workOf s) hsilent)
  · intro harrives hsync hover
    exact nextOf_congr (f := holdoverExpire) (holdoverExpire_of_over (w := workOf s) harrives hsync hover)
  · exact nextOf_congr (f := effectRow (· == .mapReset)) (effectRow_of_mem (w := workOf s) hmem)
  · exact nextOf_congr (f := effectRow isPpsSeconds) (effectRow_of_find (w := workOf s) hfind)

end Sys2Proof.Proofs
end

section
/-! What the commands of the time base leave alone: no sample, map or message stores, or touches engines, slices, contexts,
quads or the device state. -/

namespace Sys2Proof.Proofs

open Sys2Proof.Machine

/-- What the time base's commands leave alone: stores, engines, slices, contexts, quads, the device state and the beat. -/
def outsideTime (w : Work) :
    List (Nat × List Byte) × Tab Engine × Tab Slice × Tab CtxRun × Tab QuadRun × DevState × Nat :=
  (w.wr, w.engines, w.slices, w.ctxs, w.quads, w.dev.state, w.time.beat)

/-! ## The shared operations -/

theorem outsideTime_ite {c : Prop} [Decidable c] {u v w : Work} (hthen : outsideTime u = outsideTime w)
    (helse : outsideTime v = outsideTime w) : outsideTime (if c then u else v) = outsideTime w := by
  split
  · exact hthen
  · exact helse

theorem outsideTime_raise (source unit detail : Nat) (w : Work) : outsideTime (raise source unit detail w) = outsideTime w := by
  simp [outsideTime]

theorem outsideTime_atTime (t : Nat) (w : Work) : outsideTime (atTime t w) = outsideTime w := outsideTime_ite rfl rfl

/-! ## The commands

Each branch of an effect either leaves the work as it was, but for time, objects, pins and outputs, or reports a fault. -/

/-- A sample is refused, for the third time in a row or not, or accepted. -/
theorem outsideTime_servoSample (st : Nat) (i : Sample) (w : Work) : outsideTime (servoSample st i w) = outsideTime w :=
  outsideTime_ite (outsideTime_ite (outsideTime_raise _ _ _ _) rfl) rfl

theorem outsideTime_gptpSync (port domain seq t : Nat) (w : Work) : outsideTime (gptpSync port domain seq t w) = outsideTime w :=
  outsideTime_ite (outsideTime_atTime t w) rfl

theorem outsideTime_gptpFollowUp (port domain seq : Nat) (origin corr : Int) (w : Work) :
    outsideTime (gptpFollowUp port domain seq origin corr w) = outsideTime w := by
  unfold gptpFollowUp
  split
  · exact outsideTime_ite (outsideTime_servoSample _ _ _) rfl
  · rfl

theorem outsideTime_gptpPdelay (port : Nat) (t1 t2 t3 t4 : Int) (w : Work) :
    outsideTime (gptpPdelay port t1 t2 t3 t4 w) = outsideTime w :=
  outsideTime_ite rfl rfl

theorem outsideTime_gptpSyncSend (port t : Nat) (w : Work) : outsideTime (gptpSyncSend port t w) = outsideTime w :=
  have hsends : outsideTime (gptpSyncSend port t w) = outsideTime (atTime t w) := outsideTime_ite rfl (outsideTime_ite rfl rfl)
  hsends.trans (outsideTime_atTime t w)

theorem outsideTime_gptpAnnounceSend (port t : Nat) (w : Work) : outsideTime (gptpAnnounceSend port t w) = outsideTime w :=
  have hsends : outsideTime (gptpAnnounceSend port t w) = outsideTime (atTime t w) := outsideTime_ite rfl rfl
  hsends.trans (outsideTime_atTime t w)

theorem outsideTime_mapUpdate (w : Work) : outsideTime (mapUpdate w) = outsideTime w := by
  unfold mapUpdate
  split
  · rfl
  · exact outsideTime_ite rfl (outsideTime_ite rfl rfl)

theorem outsideTime_syncTimeout (w : Work) : outsideTime (syncTimeout w) = outsideTime w :=
  outsideTime_ite (outsideTime_raise _ _ _ _) rfl

theorem outsideTime_holdoverExpire (w : Work) : outsideTime (holdoverExpire w) = outsideTime w := outsideTime_ite rfl rfl

/-- A command whose effect leaves all that alone leaves it so in the next state. -/
theorem outsideTime_of_perform {ok there : Bool} {f : Work → Work} {s t : State} (hnext : perform ok there f s = .next t)
    (hkeeps : ∀ w, outsideTime (f w) = outsideTime w) :
    t.mem = s.mem ∧ t.blk.engines = s.blk.engines ∧ t.blk.slices = s.blk.slices ∧ t.blk.ctxs = s.blk.ctxs ∧
    t.blk.quads = s.blk.quads ∧ t.blk.dev.state = s.blk.dev.state ∧ t.blk.time.beat = s.blk.time.beat := by
  obtain ⟨-, -, rfl⟩ := Laws.perform_cases hnext
  have hsame := hkeeps (workOf s)
  simp only [outsideTime, Prod.mk.injEq] at hsame
  obtain ⟨hstores, hrest⟩ := hsame
  exact ⟨by rw [Laws.commitWork_mem, hstores]; rfl, hrest⟩

/-- Settles O59: every command of the time base leaves all of it alone, so the next state does. -/
theorem timeCommandsFrame : Obligations.TimeCommandsFrame := by
  intro c s t p seq at_ dom o r t1 t2 t3 t4 hmem hnext
  simp only [List.mem_cons, List.not_mem_nil, or_false] at hmem
  rcases hmem with rfl | rfl | rfl | rfl | rfl | rfl | rfl | rfl | rfl
  · exact outsideTime_of_perform hnext (outsideTime_gptpSync p dom seq at_)
  · exact outsideTime_of_perform hnext (outsideTime_gptpFollowUp p dom seq o r)
  · exact outsideTime_of_perform hnext (outsideTime_gptpPdelay p t1 t2 t3 t4)
  · exact outsideTime_of_perform (f := id) hnext (fun _ => rfl)
  · exact outsideTime_of_perform hnext (outsideTime_gptpSyncSend p at_)
  · exact outsideTime_of_perform hnext (outsideTime_gptpAnnounceSend p at_)
  · exact outsideTime_of_perform (ok := true) (there := true) hnext outsideTime_mapUpdate
  · exact outsideTime_of_perform (ok := true) (there := true) hnext outsideTime_syncTimeout
  · exact outsideTime_of_perform (ok := true) (there := true) hnext outsideTime_holdoverExpire

end Sys2Proof.Proofs
end

section
/-! Triggers and PPS_OUT (11 R280, R281, 09 R213): an output's first edge, the schedule of the next one, the edge itself and the
end of its pulse. -/

namespace Sys2Proof.Proofs

open Sys2Proof.Machine

/-- The state of an output after a change of one of them. -/
theorem trigOf_modTrig (k m : Nat) (f : Trig → Trig) (w : Work) :
    trigOf (modTrig k f w).toBlk m = if m = k then f (trigOf w.toBlk m) else trigOf w.toBlk m :=
  tabGet_tabMod Trig.idle w.pins.trigs k f m

/-- An enabled output without a next edge finds the first one, once network time is there where it needs it. -/
theorem trigStart_of_enabled {k c : Nat} {w : Work} (hsince : (trigOf w.toBlk k).since = some c) (hon : trigOn w.toBlk k = true)
    (hnext : (trigOf w.toBlk k).next = none)
    (hsync : trigNet w.toBlk k = true → w.time.sync = 2 ∨ w.time.sync = 3 ∨ w.time.sync = 5) :
    trigStart k w =
      let x : Int := if trigNet w.toBlk k then mapNet w.time (max c w.time.ns : Nat) else (c : Int)
      modTrig k (fun y => { y with
        next := some (ceilDiv ((x + 4000 - trigPhase w.toBlk k) * 65536).toNat (trigStep w.toBlk k)) }) w := by
  have htime : (!trigNet w.toBlk k || w.time.sync == 2 || w.time.sync == 3 || w.time.sync == 5) = true := by
    cases hnet : trigNet w.toBlk k with
    | false => rfl
    | true => simpa [or_assoc] using hsync hnet
  simp only [trigStart, hsince]
  exact if_neg (by simp [hon, hnext, htime])

/-! ## The schedule -/

/-- The REFCLK edge in device time of an output's edge i. -/
def deviceEdge (k i : Nat) (w : Work) : Nat :=
  refEdge (if trigNet w.toBlk k then (mapDev w.time (trigEdge w.toBlk k i)).toNat else trigEdge w.toBlk k i)

section Schedule

variable {k i : Nat} {w : Work} (hnext : (trigOf w.toBlk k).next = some i) (hon : trigOn w.toBlk k = true)
  (hidle : (trigOf w.toBlk k).sched = none) (hnear : deviceEdge k i w / 2000 ≤ w.time.beat + 2)

include hnext hon hidle hnear

/-- From two beats before an edge it is scheduled; PPS_OUT skips it while it has no network time. -/
theorem trigSchedule_of_near :
    trigSchedule k w =
      if (k != 32 || (decide (2 ≤ w.time.sync) && decide (w.time.sync ≤ 5))) = false then
        modTrig k (fun x => { x with next := some (i + 1) }) w
      else modTrig k (fun x => { x with sched := some (deviceEdge k i w) }) w := by
  have hdue : ¬ ((trigOf w.toBlk k).sched.isSome = true ∨ trigOn w.toBlk k = false ∨
      w.time.beat + 2 < deviceEdge k i w / 2000) := by
    simp [hidle, hon, hnear]
  simp only [trigSchedule, hnext]
  exact if_neg hdue

theorem trigSchedule_of_timed (htimed : k = 32 → 2 ≤ w.time.sync ∧ w.time.sync ≤ 5) :
    trigSchedule k w = modTrig k (fun x => { x with sched := some (deviceEdge k i w) }) w := by
  refine (trigSchedule_of_near hnext hon hidle hnear).trans (if_neg ?_)
  by_cases hpps : k = 32
  · simp [htimed hpps]
  · simp [hpps]

theorem trigSchedule_of_untimed (hpps : k = 32) (huntimed : w.time.sync < 2) :
    trigSchedule k w = modTrig k (fun x => { x with next := some (i + 1) }) w := by
  have hsync : ¬ 2 ≤ w.time.sync := Nat.not_le.2 huntimed
  refine (trigSchedule_of_near hnext hon hidle hnear).trans (if_pos ?_)
  simp only [hpps, hsync, bne_self_eq_false, decide_false, Bool.false_and, Bool.or_self]

end Schedule

/-! ## The edge -/

/-- The pin is driven at d, until the width has passed. -/
def edgeDriven (k d : Nat) (w : Work) : Work :=
  modTrig k (fun x => { x with
      sched := none, next := x.next.map (· + 1), until_ := some (refEdge (d + trigWidth w.toBlk k)) })
    (atTime d w)

/-- A trigger's edge is counted with its time. -/
def edgeCounted (k d : Nat) (w : Work) : Work := odAdd (0x2120 + k) 9 1 (odPut (0x2120 + k) 0xA d (edgeDriven k d w))

/-- Once it is driven no edge is scheduled. -/
theorem sched_edgeCounted (k d : Nat) (w : Work) : (trigOf (edgeCounted k d w).toBlk k).sched = none := by
  have hdriven : trigOf (edgeCounted k d w).toBlk k = trigOf (edgeDriven k d w).toBlk k := rfl
  rw [hdriven, edgeDriven, trigOf_modTrig, if_pos rfl]

section Edge

variable {k d : Nat} {w : Work} (hsched : (trigOf w.toBlk k).sched = some d) (hon : trigOn w.toBlk k = true)
  (hdue : d / 2000 ≤ w.time.beat)

include hsched hon hdue

/-- The scheduled edge is driven in its beat; PPS_OUT counts none. -/
theorem trigDrive_of_due : trigDrive k w = if k = 32 then edgeDriven k d w else edgeCounted k d w := by
  simp only [trigDrive, hsched]
  exact if_neg (by simp [hon, hdue])

/-- A trigger's edge is a frame reference for the streams that name it. -/
theorem triggerEdge_of_due (htrigger : k ≠ 32) : triggerEdge k w = triggerFrames k d (edgeCounted k d w) := by
  have hdriven : trigDrive k w = edgeCounted k d w := (trigDrive_of_due hsched hon hdue).trans (if_neg htrigger)
  simp only [triggerEdge, hsched, hdriven, sched_edgeCounted, Option.isNone_none, if_true]

end Edge

theorem trigEnd_of_over {k t e : Nat} {w : Work} (huntil : (trigOf (atTime t w).toBlk k).until_ = some e)
    (hover : e ≤ moment t w) :
    trigEnd k t w = modTrig k (fun x => { x with until_ := none }) (atTime t w) := by
  simp only [trigEnd, huntil, if_pos hover]

/-- Settles O25: each clause is the branch that its output's state leads to. -/
theorem triggerCommands : Obligations.TriggerCommands := by
  intro s k c i d t e hk
  refine ⟨fun hsince hon hnext hsync => ?_, fun hnext hon hidle => ?_, fun hsched hon hdue => ⟨?_, fun htrigger => ?_⟩,
    fun huntil hover => ?_⟩
  · exact perform_eq_nextOf (decide_eq_true hk) rfl (trigStart_of_enabled (w := workOf s) hsince hon hnext hsync)
  · intro edge at_ hnear
    refine ⟨fun htimed => ?_, fun hpps huntimed => ?_⟩
    · exact perform_eq_nextOf (decide_eq_true hk) rfl (trigSchedule_of_timed (w := workOf s) hnext hon hidle hnear htimed)
    · exact perform_eq_nextOf (decide_eq_true hk) rfl
        (trigSchedule_of_untimed (w := workOf s) hnext hon hidle hnear hpps huntimed)
  · rintro rfl
    exact nextOf_congr (f := trigDrive 32) (trigDrive_of_due (w := workOf s) hsched hon hdue)
  · exact perform_eq_nextOf (decide_eq_true htrigger) rfl
      (triggerEdge_of_due (w := workOf s) hsched hon hdue (Nat.ne_of_lt htrigger))
  · exact perform_eq_nextOf (decide_eq_true hk) rfl (trigEnd_of_over (w := workOf s) huntil hover)

end Sys2Proof.Proofs
end

section
/-! OD_READ (12 R296, R315): a read that its session completes and that no check refuses. -/

namespace Sys2Proof.Proofs

open Sys2Proof.Machine

@[simp] theorem objHead_length (idx sub : Nat) : (objHead idx sub).length = 4 := rfl

/-- The head of a request is read back. -/
theorem leAt_objHead {idx sub : Nat} (hidx : idx < 65536) (hsub : sub < 256) :
    leAt (objHead idx sub) 0 2 = idx ∧ leAt (objHead idx sub) 2 1 = sub ∧ leAt (objHead idx sub) 3 1 = 0 := by
  have hindex : idx % 256 + 256 * (idx / 256 % 256) = idx := by omega
  simp [leAt, objHead, leBytes, leNat, hindex, Nat.mod_eq_of_lt hsub]

/-- A read that is allowed answers the value and takes what it pops. -/
theorem odReadMsg_of_allowed {link tag idx sub : Nat} {w : Work} (hidx : idx < 65536) (hsub : sub < 256)
    (hallowed : readCheck w.toBlk idx sub = 0) :
    odReadMsg link tag (objHead idx sub) w =
      answer link tag 0x11 0 (objHead idx sub ++ leBytes 4 0 ++ leBytes (odBytes idx sub) (odRead w.toBlk link idx sub))
        (odPop idx sub w) := by
  obtain ⟨hindex, hsubindex, hreserved⟩ := leAt_objHead hidx hsub
  simp [odReadMsg, serveRead, hindex, hsubindex, hreserved, hallowed]

end Sys2Proof.Proofs
end

section
/-! Conditioned inputs and the converter (11 R283 to R290). -/

namespace Sys2Proof.Proofs

open Sys2Proof.Machine

@[simp] theorem activeLevel_atTime (t i : Nat) (lv : Bool) (w : Work) :
    activeLevel (atTime t w).toBlk i lv = activeLevel w.toBlk i lv := by
  simp [activeLevel]

/-! ## A change of level -/

/-- The input after a level that stood for the filter's samples: the level with its time, active or not. -/
def levelMoved (i : Nat) (lv : Bool) (t : Nat) (w : Work) : Work :=
  modInput i (fun x => { x with
      level := lv, raw := t, active := if activeLevel w.toBlk i lv then some t else none,
      stuck := x.stuck && activeLevel w.toBlk i lv })
    (atTime (t + 40 * odGet w.toBlk (0x2140 + i) 4) w)

/-- What an accepted change is, at an input that is enabled: an event where the level is active or both edges count, unless it
comes too soon; otherwise it is reported. -/
def changeReported (i : Nat) (active : Bool) (t : Nat) (w : Work) : Work :=
  if (active || odGet w.toBlk (0x2140 + i) 7 == 1) = false then
    inputEffect i active t (modInput i (fun x => { x with reported := active }) w)
  else if tooSoon w.toBlk i t then dropEvent i w
  else acceptEvent i active t w

section Change

variable {i t n : Nat} {lv : Bool} {w : Work} (hclock : clockRuns w.toBlk = true)

include hclock

theorem inputChange_of_glitch (hshort : n < odGet w.toBlk (0x2140 + i) 4) :
    inputChange i lv t n w = odAdd (0x2140 + i) 0x12 1 w :=
  (if_neg (by simp [hclock])).trans (if_pos hshort)

/-- A new level that stands for the filter's samples is accepted. -/
theorem inputChange_of_stable (hstands : odGet w.toBlk (0x2140 + i) 4 ≤ n) (hnew : (inputOf w.toBlk i).level ≠ lv) :
    inputChange i lv t n w =
      if inputOn (levelMoved i lv t w).toBlk i = false then levelMoved i lv t w
      else changeReported i (activeLevel w.toBlk i lv) t (levelMoved i lv t w) := by
  have hsampled : ¬ clockRuns w.toBlk = false := by simp [hclock]
  simp only [inputChange, if_neg hsampled, if_neg (Nat.not_lt.2 hstands), if_neg hnew, activeLevel_atTime]
  rfl

end Change

section Report

variable {i t : Nat} {active : Bool} {w : Work}

theorem changeReported_of_event (hevent : active = true ∨ odGet w.toBlk (0x2140 + i) 7 = 1) :
    changeReported i active t w = if tooSoon w.toBlk i t then dropEvent i w else acceptEvent i active t w := by
  refine if_neg ?_
  rcases hevent with hactive | hboth
  · simp only [hactive, Bool.true_or, Bool.true_eq_false, not_false_eq_true]
  · simp only [hboth, beq_self_eq_true, Bool.or_true, Bool.true_eq_false, not_false_eq_true]

theorem changeReported_of_no_event (hinactive : active = false) (hone : odGet w.toBlk (0x2140 + i) 7 ≠ 1) :
    changeReported i active t w = inputEffect i false t (modInput i (fun x => { x with reported := false }) w) := by
  subst hinactive
  exact if_pos (by simp [hone])

end Report

/-! ## The end of the minimum interval, and an input that stays active -/

theorem intervalExpire_of_withheld {i t : Nat} {w : Work} (hlevel : isLevel (atTime t w).toBlk i = true)
    (hover : tooSoon (atTime t w).toBlk i (moment t w) = false)
    (hwithheld : activeLevel (atTime t w).toBlk i (inputOf (atTime t w).toBlk i).level ≠
      (inputOf (atTime t w).toBlk i).reported)
    (hon : inputOn (atTime t w).toBlk i = true) :
    intervalExpire i t w =
      acceptEvent i (activeLevel (atTime t w).toBlk i (inputOf (atTime t w).toBlk i).level) (inputOf (atTime t w).toBlk i).raw
        (atTime t w) := by
  have hdue : ¬ (isLevel (atTime t w).toBlk i = false ∨ tooSoon (atTime t w).toBlk i (moment t w) = true ∨
      activeLevel (atTime t w).toBlk i (inputOf (atTime t w).toBlk i).level = (inputOf (atTime t w).toBlk i).reported ∨
      inputOn (atTime t w).toBlk i = false) := by
    simp only [hlevel, hover, hwithheld, hon, Bool.false_eq_true, Bool.true_eq_false, or_self, not_false_eq_true]
  exact if_neg hdue

theorem inputStuck_of_held {i t a : Nat} {w : Work} (hactive : (inputOf (atTime t w).toBlk i).active = some a)
    (hfirst : (inputOf (atTime t w).toBlk i).stuck = false) (hon : inputOn (atTime t w).toBlk i = true)
    (hlong : a + odGet (atTime t w).toBlk (0x2140 + i) 6 * 1000000 ≤ moment t w) :
    inputStuck i t w =
      raise 0x093 i 0 (odAdd (0x2140 + i) 0x13 1 (modInput i (fun x => { x with stuck := true }) (atTime t w))) := by
  simp only [inputStuck, hactive]
  exact if_neg (by simpa [hfirst, hon] using hlong)

/-! ## CAP_FIFO_POP

It is an object of the 16 captures, each its own row of the dictionary. -/

theorem odBytes_capFifoPop : ∀ i < 16, odBytes (0x2140 + i) 0x16 = 8 := by decide +kernel

/-- It reads as the oldest capture: no row that names its sub-index stands before the inputs' own. -/
theorem odRead_capFifoPop {i : Nat} (hi : i < 16) (b : Blk) (link : Nat) :
    odRead b link (0x2140 + i) 0x16 = (inputOf b i).fifo.headD 0 := by
  unfold odRead
  split
  any_goals omega
  rw [if_neg (by omega), if_pos (by omega), Nat.add_sub_cancel_left]
  cases (inputOf b i).fifo <;> rfl

/-- It removes the oldest capture. -/
theorem odPop_capFifoPop {i : Nat} (hi : i < 16) (w : Work) : odPop (0x2140 + i) 0x16 w = (capPop i w).2 := by
  unfold odPop
  split
  any_goals omega
  rw [if_pos (by omega), Nat.add_sub_cancel_left]

section Pop

variable {s : State} {i : Nat} {hd : Hdr} (hi : i < 16)
  (hframe : FrameServed hd 0x10 (objHead (0x2140 + i) 0x16) (objHead (0x2140 + i) 0x16) s)
  (hallowed : readCheck (served hd 0x10 (workOf s)).toBlk (0x2140 + i) 0x16 = 0)

include hi hframe hallowed

theorem exec_capFifoPop_of_served :
    exec (.capFifoPop i hd) s = nextOf s (fun w =>
      let v := served hd 0x10 w
      answer hd.link hd.tag 0x11 0
        (objHead (0x2140 + i) 0x16 ++ leBytes 4 0 ++ leBytes 8 ((inputOf v.toBlk i).fifo.headD 0)) (capPop i v).2) := by
  have hok : (decide (i < 20) && hd.wf) = true := by
    rw [hframe.1, Bool.and_true, decide_eq_true_eq]
    omega
  refine perform_eq_nextOf hok rfl ((crino_of_frameServed hframe _).trans ?_)
  rw [odReadMsg_of_allowed (by omega) (by decide) hallowed, odBytes_capFifoPop i hi, odRead_capFifoPop hi, odPop_capFifoPop hi]

end Pop

/-! ## The converter -/

/-- A code is kept with the 15 before it. -/
def codeKept (c code : Nat) (w : Work) : Work :=
  modAdc c (fun x => { x with codes := (code :: x.codes).take 16 }) (odPut (0x2280 + c) 8 code w)

section Convert

variable {c code : Nat} {w : Work} (hclock : clockRuns w.toBlk = true)

include hclock

theorem adcConvert_of_unlimited (hunlimited : 0 < c ∨ odGet (codeKept c code w).toBlk 0x2280 0xC = 0) :
    adcConvert c code w = codeKept c code w := by
  have hnone : c ≠ 0 ∨ odGet (codeKept c code w).toBlk 0x2280 0xC = 0 := hunlimited.imp_left Nat.ne_of_gt
  exact (if_neg (by simp [hclock])).trans (if_pos hnone)

/-- A code of AIN0 below the limit is counted. -/
theorem adcConvert_of_low (hlow : code < odGet (codeKept 0 code w).toBlk 0x2280 0xC) :
    adcConvert 0 code w = modAdc 0 (fun x => { x with low := x.low + 1 }) (codeKept 0 code w) := by
  have hlimit : ¬ ((0 : Nat) ≠ 0 ∨ odGet (codeKept 0 code w).toBlk 0x2280 0xC = 0) := by omega
  exact (if_neg (by simp [hclock])).trans ((if_neg hlimit).trans (if_pos hlow))

end Convert

theorem netLowEvent_of_low {t : Nat} {w : Work} (hlow : 4 ≤ (adcOf (atTime t w).toBlk 0).low)
    (hfirst : (atTime t w).pow.netLow = false) :
    netLowEvent t w = powerFail (moment t w) { atTime t w with pow.netLow := true } :=
  if_pos ⟨hlow, hfirst⟩

/-- Settles O26: each clause is the branch that the input's state leads to. That an accepted change that is no event is reported
is log 119. -/
theorem inputCommands : Obligations.InputCommands := by
  intro s i t n c code a lv
  refine ⟨fun hi hn hclock => ?_, ⟨fun hi hlevel hover hwithheld hon => ?_, fun hi hactive hfirst hon hlong => ?_⟩,
    fun hd hi hframe hallowed => ⟨fun v rest hfifo => ?_, fun hfifo => ?_⟩,
    fun hc hcode hclock => ⟨fun hunlimited => ?_, ?_⟩, fun hlow hfirst => ?_⟩
  · have hok : (decide (i < 20) && decide (n ≤ 255)) = true := by simp [hi, hn]
    refine ⟨fun hshort => perform_eq_nextOf hok rfl (inputChange_of_glitch (w := workOf s) hclock hshort),
      fun hstands hnew => ?_⟩
    have hstable := inputChange_of_stable (t := t) (w := workOf s) hclock hstands hnew
    refine ⟨fun hoff => ?_, fun hon => ?_⟩
    · exact perform_eq_nextOf hok rfl (hstable.trans (if_pos hoff))
    · have hreported := hstable.trans (if_neg (Bool.ne_false_iff.2 hon))
      refine ⟨fun hevent => ⟨fun hlate => ?_, fun hsoon => ?_⟩, fun hinactive hone => ?_⟩
      · exact perform_eq_nextOf hok rfl
          (hreported.trans ((changeReported_of_event hevent).trans (if_neg (Bool.eq_false_iff.1 hlate))))
      · exact perform_eq_nextOf hok rfl (hreported.trans ((changeReported_of_event hevent).trans (if_pos hsoon)))
      · exact perform_eq_nextOf hok rfl (hreported.trans (changeReported_of_no_event hinactive hone))
  · exact perform_eq_nextOf (decide_eq_true hi) rfl (intervalExpire_of_withheld (w := workOf s) hlevel hover hwithheld hon)
  · exact perform_eq_nextOf (decide_eq_true hi) rfl (inputStuck_of_held (w := workOf s) hactive hfirst hon hlong)
  · rw [exec_capFifoPop_of_served hi hframe hallowed]
    refine nextOf_congr ?_
    simp only [capPop, hfifo, List.headD_cons]
  · rw [exec_capFifoPop_of_served hi hframe hallowed]
    refine nextOf_congr ?_
    simp only [capPop, hfifo, List.headD_nil]
  · exact perform_eq_nextOf (by simp [Instr.wf, hc, hcode]) rfl (adcConvert_of_unlimited (w := workOf s) hclock hunlimited)
  · rintro rfl hlow
    exact perform_eq_nextOf (by simp [Instr.wf, hcode]) rfl (adcConvert_of_low (w := workOf s) hclock hlow)
  · exact nextOf_congr (f := netLowEvent t) (netLowEvent_of_low (w := workOf s) hlow hfirst)

end Sys2Proof.Proofs
end

section
/-! What the host's messages have in common: how their bytes are read back (00 R7), and how the command that completes one
answers (12 R313). -/

namespace Sys2Proof.Proofs

open Sys2Proof.Machine

/-! ## Bytes -/

@[simp] theorem leBytes_length (k n : Nat) : (leBytes k n).length = k := by
  induction k generalizing n with
  | zero => rfl
  | succ k ih => rw [leBytes, List.length_cons, ih]

/-- A number reads back from its bytes, cut to them. -/
theorem leNat_leBytes (k n : Nat) : leNat (leBytes k n) = n % 256 ^ k := by
  induction k generalizing n with
  | zero => rw [leBytes, leNat, Nat.pow_zero, Nat.mod_one]
  | succ k ih =>
    calc leNat (leBytes (k + 1) n) = n % 2 ^ 8 + 256 * (n / 256 % 256 ^ k) := by
          rw [leBytes, leNat, ih, BitVec.toNat_ofNat]
      _ = n % 256 ^ (k + 1) := (Nat.mod_mul (a := 256)).symm.trans (by rw [Nat.pow_succ'])

/-- A field inside the first part of a message. -/
theorem leAt_append_left {l r : List Byte} {off k : Nat} (hinside : off + k ≤ l.length) : leAt (l ++ r) off k = leAt l off k := by
  rw [leAt, leAt, List.drop_append_of_le_length (by omega), List.take_append_of_le_length (by rw [List.length_drop]; omega)]

/-- A field after the first part of a message. -/
theorem leAt_append_right (l r : List Byte) (off k : Nat) : leAt (l ++ r) (l.length + off) k = leAt r off k := by
  rw [leAt, leAt, List.drop_length_add_append]

/-- A number that fills a message reads as itself. -/
theorem leAt_leBytes {k n : Nat} (hfits : n < 256 ^ k) : leAt (leBytes k n) 0 k = n := by
  rw [leAt, List.drop_zero, List.take_of_length_le (Nat.le_of_eq (leBytes_length k n)), leNat_leBytes, Nat.mod_eq_of_lt hfits]

/-! ## Commands that are frames -/

/-- A command that is the frame which completes its message has the message served. -/
theorem perform_crino_of_served {ok : Bool} {ftype rtype : Nat} {hd : Hdr} {payload m : List Byte} {s : State}
    {f : List Byte → Work → Work} {g : Work → Work} (hok : ok = true) (hframe : FrameServed hd ftype payload m s)
    (hserved : f m (served hd ftype (workOf s)) = g (workOf s)) :
    perform ok true (crino ftype rtype hd payload f) s = nextOf s g :=
  perform_eq_nextOf hok rfl ((crino_of_frameServed hframe f).trans hserved)

/-- A session's bookkeeping changes the links alone. -/
theorem modSession_keeps (link : Nat) (f : Session → Session) (w : Work) :
    ∃ links : Links, modSession link f w = { w with links := links } := by
  unfold modSession
  split
  · exact ⟨_, rfl⟩
  · exact ⟨_, rfl⟩

/-- The frame that completes a message changes the links alone. -/
theorem served_keeps (hd : Hdr) (ftype : Nat) (w : Work) : ∃ links : Links, served hd ftype w = { w with links := links } := by
  obtain ⟨heardLinks, hheard⟩ := modSession_keeps hd.link (fun x => { x with last := w.time.ns }) w
  obtain ⟨links, hdropped⟩ := modSession_keeps hd.link
    (fun x => { x with partials := x.partials.filter (fun m => !(m.ftype == ftype && m.tag == hd.tag)) })
    { w with links := heardLinks }
  refine ⟨links, ?_⟩
  rw [served, heard, hheard, dropPartial, hdropped]

@[simp] theorem served_dev (hd : Hdr) (ftype : Nat) (w : Work) : (served hd ftype w).dev = w.dev := by
  obtain ⟨links, hserved⟩ := served_keeps hd ftype w
  rw [hserved]

@[simp] theorem activeState_served (hd : Hdr) (ftype : Nat) (w : Work) :
    activeState (served hd ftype w).toBlk = activeState w.toBlk := by
  simp [activeState]

@[simp] theorem served_cores (hd : Hdr) (ftype : Nat) (w : Work) : (served hd ftype w).cores = w.cores := by
  obtain ⟨links, hserved⟩ := served_keeps hd ftype w
  rw [hserved]

@[simp] theorem served_res (hd : Hdr) (ftype : Nat) (w : Work) : (served hd ftype w).res = w.res := by
  obtain ⟨links, hserved⟩ := served_keeps hd ftype w
  rw [hserved]

end Sys2Proof.Proofs
end

section
/-! The object service (12 R296 to R303): reads that are refused, writes into the stage, and the stage's commit. -/

namespace Sys2Proof.Proofs

open Sys2Proof.Machine

/-! ## OD_READ (12 R296) -/

/-- A read that is refused answers its abort code. -/
theorem odReadMsg_of_refused {link tag idx sub : Nat} {w : Work} (hidx : idx < 65536) (hsub : sub < 256)
    (hrefused : readCheck w.toBlk idx sub ≠ 0) :
    odReadMsg link tag (objHead idx sub) w =
      answer link tag 0x11 9 (objHead idx sub ++ leBytes 4 (readCheck w.toBlk idx sub)) w := by
  obtain ⟨hindex, hsubindex, hreserved⟩ := leAt_objHead hidx hsub
  simp [odReadMsg, serveRead, hindex, hsubindex, hreserved, hrefused]

/-! ## OD_WRITE (12 R297, R298) -/

/-- The head of a write is read back before the value's bytes. -/
theorem leAt_objHead_append {idx sub : Nat} (bs : List Byte) (hidx : idx < 65536) (hsub : sub < 256) :
    leAt (objHead idx sub ++ bs) 0 2 = idx ∧ leAt (objHead idx sub ++ bs) 2 1 = sub ∧ leAt (objHead idx sub ++ bs) 3 1 = 0 := by
  rw [leAt_append_left (by simp), leAt_append_left (by simp), leAt_append_left (by simp)]
  exact leAt_objHead hidx hsub

/-- A write is served with the value's bytes; it is answered at once where the service gives a code. -/
theorem odWriteMsg_eq {link tag idx sub : Nat} {bs : List Byte} {w : Work} (hidx : idx < 65536) (hsub : sub < 256) :
    odWriteMsg link tag (objHead idx sub ++ bs) w =
      (serveWrite link idx sub bs (.crino link tag) w).1.elim (serveWrite link idx sub bs (.crino link tag) w).2 (fun c =>
        answer link tag 0x13 (if c = 0 then 0 else 9) (objHead idx sub ++ leBytes 4 c)
          (serveWrite link idx sub bs (.crino link tag) w).2) := by
  obtain ⟨hindex, hsubindex, hreserved⟩ := leAt_objHead_append bs hidx hsub
  have hwhole : ¬ (objHead idx sub ++ bs).length < 4 := by simp
  simp only [odWriteMsg, if_neg hwhole, hreserved, hindex, hsubindex, List.drop_left' (objHead_length idx sub),
    List.take_left' (objHead_length idx sub)]
  cases (serveWrite link idx sub bs (.crino link tag) w).1 <;> rfl

section Serve

variable {link idx sub : Nat} {bs : List Byte} {reply : Reply} {w : Work}

theorem serveWrite_of_refused (hrefused : (expandWrite w.toBlk idx sub bs).1 ≠ 0) :
    serveWrite link idx sub bs reply w = (some (expandWrite w.toBlk idx sub bs).1, w) :=
  if_pos hrefused

/-- A write that no check refuses, and that is none of COMMIT, is entered into the stage. -/
theorem serveWrite_of_staged (hallowed : (expandWrite w.toBlk idx sub bs).1 = 0) (hother : ¬ (idx = 0x2001 ∧ sub = 1)) :
    serveWrite link idx sub bs reply w =
      (some (enterStage link (expandWrite w.toBlk idx sub bs).2 w).1, (enterStage link (expandWrite w.toBlk idx sub bs).2 w).2) :=
  (if_neg (not_not_intro hallowed)).trans (if_neg hother)

/-- A write of 1 to COMMIT asks for the stage's commit. -/
theorem serveWrite_of_commit (hallowed : (expandWrite w.toBlk 0x2001 1 (leBytes 1 1)).1 = 0) :
    serveWrite link 0x2001 1 (leBytes 1 1) reply w = askCommit link reply w :=
  (if_neg (not_not_intro hallowed)).trans ((if_pos ⟨rfl, rfl⟩).trans (if_pos rfl))

/-- A write of 0 to COMMIT discards the stage. -/
theorem serveWrite_of_discard (hallowed : (expandWrite w.toBlk 0x2001 1 (leBytes 1 0)).1 = 0) :
    serveWrite link 0x2001 1 (leBytes 1 0) reply w = (some (discardStage link w).1, (discardStage link w).2) :=
  (if_neg (not_not_intro hallowed)).trans ((if_pos ⟨rfl, rfl⟩).trans (if_neg (by decide)))

end Serve

/-- A commit of staged writes waits for its boundary (12 R299). -/
theorem askCommit_of_staged {link : Nat} {reply : Reply} {w : Work} (hnone : (stageOf w.toBlk link).commitAt = none)
    (hstaged : (stageOf w.toBlk link).writes.isEmpty = false) :
    askCommit link reply w =
      (none, modStage link (fun x => { x with
          commitAt := some (w.time.beat + 2 + ceilDiv (stageBytes (stageOf w.toBlk link)) 2048),
          order := w.links.orders + 1, reply := some reply })
        { w with links.orders := w.links.orders + 1 }) := by
  have hfree : ¬ (stageOf w.toBlk link).commitAt.isSome = true := by simp [hnone]
  exact (if_neg hfree).trans (if_neg (Bool.eq_false_iff.1 hstaged))

/-! ## COMMIT_APPLY (12 R299, R300) -/

/-- The block as a commit would leave it, against which its checks are made. -/
def commitLeaves (link : Nat) (w : Work) : Blk :=
  (mapsAfter (stageOf w.toBlk link) (forAll (stageOf w.toBlk link).writes applyWrite w)).toBlk

/-- A device that escalates, or is in a state without configuration, takes no commit. -/
def commitsTaken (w : Work) : Bool := w.dev.escalate.isNone && (w.dev.state == .config || activeState w.toBlk)

/-- The code of a commit at its boundary: that of its first write which a check refuses, 0 where it applies. -/
def commitCode (link : Nat) (w : Work) : Nat :=
  if commitsTaken w then
    (((stageOf w.toBlk link).writes.map (commitCheck w.toBlk (commitLeaves link w))).find? (· != 0)).getD 0
  else 0x08000022

section Due

variable {link at_ : Nat} {r : Reply} {w : Work} (hpending : (stageOf w.toBlk link).commitAt = some at_)
  (hdue : at_ ≤ w.time.beat) (hreply : (stageOf w.toBlk link).reply = some r)

include hpending hdue hreply

/-- A commit that a check refuses is counted, and its code answered. -/
theorem commitDue_of_refused {c : Nat} (hcode : commitCode link w = c) (hrefused : c ≠ 0) :
    commitDue link w = commitAnswer r c (odAdd 0x2001 5 1 (modStage link (fun _ => Stage.empty) w)) := by
  subst hcode
  simp only [commitDue, hpending, if_neg (Nat.not_lt.2 hdue), hreply]
  exact if_pos hrefused

/-- A commit that every check allows is applied; in a formed cascade a request for a state is answered later (17 R441). -/
theorem commitDue_of_allowed (hcode : commitCode link w = 0) :
    commitDue link w =
      let v := commitApply (stageOf w.toBlk link) (modStage link (fun _ => Stage.empty) w)
      if jointAsked v.toBlk (stageOf w.toBlk link) then { v with links.joint := some (r, odGet w.toBlk 0x2000 2) }
      else commitAnswer r 0 v := by
  simp only [commitDue, hpending, if_neg (Nat.not_lt.2 hdue), hreply]
  exact if_neg (not_not_intro hcode)

end Due

section Code

variable {link : Nat} {w : Work}

theorem commitCode_of_taken (htaken : commitsTaken w = true) :
    commitCode link w =
      (((stageOf w.toBlk link).writes.map (commitCheck w.toBlk (commitLeaves link w))).find? (· != 0)).getD 0 :=
  if_pos htaken

theorem commitCode_of_untaken (huntaken : commitsTaken w = false) : commitCode link w = 0x08000022 :=
  if_neg (Bool.eq_false_iff.1 huntaken)

/-- Where every write passes its checks the commit's code is 0. -/
theorem commitCode_of_passing (htaken : commitsTaken w = true)
    (hpass : ∀ x ∈ (stageOf w.toBlk link).writes, commitCheck w.toBlk (commitLeaves link w) x = 0) : commitCode link w = 0 := by
  have hnone : ((stageOf w.toBlk link).writes.map (commitCheck w.toBlk (commitLeaves link w))).find? (· != 0) = none := by
    simpa using hpass
  rw [commitCode_of_taken htaken, hnone, Option.getD_none]

theorem commitsTaken_of_served (hescalate : w.dev.escalate = none)
    (hstate : w.dev.state = .config ∨ activeState w.toBlk = true) : commitsTaken w = true := by
  simpa [commitsTaken, hescalate] using hstate

theorem commitsTaken_of_closed
    (hclosed : w.dev.escalate.isSome = true ∨ (w.dev.state ≠ .config ∧ activeState w.toBlk = false)) :
    commitsTaken w = false := by
  rcases hclosed with hescalate | ⟨hstate, hactive⟩
  · rw [commitsTaken, ← Option.not_isSome, hescalate]
    rfl
  · simp [commitsTaken, hstate, hactive]

end Code

/-! ## The commands -/

/-- Settles O27: a frame that completes its message is served as its check and its object ask, and a commit that is due ends
with the code of its checks. -/
theorem objectCommands : Obligations.ObjectCommands := by
  intro s hd p bs idx sub link at_ r hidx hsub
  refine ⟨fun hframe => ⟨fun hallowed => ?_, fun hrefused => ?_⟩, fun hframe => ⟨fun hallowed hother => ?_, fun hrefused => ?_⟩,
    ⟨fun hframe hallowed hnone hstaged => ?_, fun hframe hallowed => ?_⟩,
    fun hlink hpending hdue hreply => ⟨fun hescalate hstate => ⟨fun hpass => ?_, fun c hfirst => ?_⟩, fun hclosed => ?_⟩⟩
  · exact perform_crino_of_served hframe.1 hframe (odReadMsg_of_allowed hidx hsub hallowed)
  · exact perform_crino_of_served hframe.1 hframe (odReadMsg_of_refused hidx hsub hrefused)
  · refine perform_crino_of_served hframe.1 hframe ?_
    rw [odWriteMsg_eq hidx hsub, serveWrite_of_staged hallowed hother]
    rfl
  · refine perform_crino_of_served hframe.1 hframe ?_
    rw [odWriteMsg_eq hidx hsub, serveWrite_of_refused hrefused, Option.elim_some, if_neg hrefused]
  · refine perform_crino_of_served hframe.1 hframe ?_
    rw [odWriteMsg_eq (by decide) (by decide), serveWrite_of_commit hallowed, askCommit_of_staged hnone hstaged]
    rfl
  · refine perform_crino_of_served hframe.1 hframe ?_
    rw [odWriteMsg_eq (by decide) (by decide), serveWrite_of_discard hallowed]
    rfl
  · have hcode := commitCode_of_passing (link := link) (w := workOf s) (commitsTaken_of_served hescalate hstate) hpass
    have happlied := commitDue_of_allowed (w := workOf s) hpending hdue hreply hcode
    exact ⟨fun halone => perform_eq_nextOf (decide_eq_true hlink) rfl (happlied.trans (if_neg (Bool.eq_false_iff.1 halone))),
      fun hjoint => perform_eq_nextOf (decide_eq_true hlink) rfl (happlied.trans (if_pos hjoint))⟩
  · have hcode : commitCode link (workOf s) = c :=
      (commitCode_of_taken (commitsTaken_of_served hescalate hstate)).trans (by rw [commitLeaves, hfirst, Option.getD_some])
    have hrefused : c ≠ 0 := by simpa using List.find?_some hfirst
    exact perform_eq_nextOf (decide_eq_true hlink) rfl (commitDue_of_refused (w := workOf s) hpending hdue hreply hcode hrefused)
  · exact perform_eq_nextOf (decide_eq_true hlink) rfl
      (commitDue_of_refused (w := workOf s) hpending hdue hreply (commitCode_of_untaken (commitsTaken_of_closed hclosed))
        (by decide))

end Sys2Proof.Proofs
end

section
/-! CAN FD (12 R307 to R310): the USDO service, NMT commands, heartbeats, safety-status frames and bus-off. -/

namespace Sys2Proof.Proofs

open Sys2Proof.Machine

/-! ## USDO (12 R308) -/

section Usdo

variable {c client : Nat} {w : Work} (hactive : canActive w.toBlk c = true) (hserves : serviceRuns w.toBlk = true)

include hactive hserves

/-- A controller that transmits, and whose service runs, serves its clients. -/
theorem usdo_not_dropped : ¬ (canActive w.toBlk c = false ∨ serviceRuns w.toBlk = false) := by
  rw [hactive, hserves]
  simp

section Idle

variable (hidle : (canOf w.toBlk c).usdo = none)

include hidle

/-! With no transfer open, a request that is no segment is served as it stands. -/

theorem usdoRequest_read (idx sub : Nat) :
    usdoRequest c client (.read idx sub) w =
      let r := serveRead (2 + c) idx sub w
      usdoAnswer c client r.1 r.2.1 r.2.2 := by
  rw [usdoRequest, if_neg (usdo_not_dropped hactive hserves), hidle]

theorem usdoRequest_write (idx sub : Nat) (data : List Byte) :
    usdoRequest c client (.write idx sub data) w = usdoWrite c client idx sub data w := by
  rw [usdoRequest, if_neg (usdo_not_dropped hactive hserves), hidle]

theorem usdoRequest_start (idx sub size : Nat) :
    usdoRequest c client (.start idx sub size) w =
      let o : UsdoOpen := { client, session := 0, write := true, idx, sub, size, bytes := [], last := w.time.ns }
      usdoAnswer c client 0 [] (modCan c (fun x => { x with usdo := some o }) w) := by
  rw [usdoRequest, if_neg (usdo_not_dropped hactive hserves), hidle]

theorem usdoRequest_invalid : usdoRequest c client .invalid w = usdoAnswer c client 0x05040001 [] w := by
  rw [usdoRequest, if_neg (usdo_not_dropped hactive hserves), hidle]

end Idle

section Open

variable {o : UsdoOpen} (hopen : (canOf w.toBlk c).usdo = some o)

include hopen

/-- Another client's request is aborted while a transfer is open. -/
theorem usdoRequest_of_other (hother : o.client ≠ client) (q : UsdoReq) :
    usdoRequest c client q w = usdoAnswer c client 0x08000021 [] w := by
  rw [usdoRequest, if_neg (usdo_not_dropped hactive hserves), hopen]
  exact if_pos hother

/-- The client's own segment joins the transfer. -/
theorem usdoRequest_segment (hclient : o.client = client) (data : List Byte) :
    usdoRequest c client (.segment false data) w =
      usdoAnswer c client 0 []
        (modCan c (fun x => { x with usdo := some { o with bytes := o.bytes ++ data, last := w.time.ns } }) w) := by
  rw [usdoRequest, if_neg (usdo_not_dropped hactive hserves), hopen]
  exact if_neg (not_not_intro hclient)

/-- The last segment closes the transfer, whose bytes are written where they are as many as it announced. -/
theorem usdoRequest_last (hclient : o.client = client) {data : List Byte} (hsize : (o.bytes ++ data).length = o.size) :
    usdoRequest c client (.segment true data) w =
      usdoWrite c client o.idx o.sub (o.bytes ++ data) (modCan c (fun x => { x with usdo := none }) w) := by
  rw [usdoRequest, if_neg (usdo_not_dropped hactive hserves), hopen]
  exact (if_neg (not_not_intro hclient)).trans (if_neg (not_not_intro hsize))

end Open

end Usdo

theorem usdoTimeout_of_stalled {c t : Nat} {o : UsdoOpen} {w : Work} (hopen : (canOf (atTime t w).toBlk c).usdo = some o)
    (hstalled : o.last + 100000000 ≤ moment t w) :
    usdoTimeout c t w = usdoAnswer c o.client 0x05040000 [] (modCan c (fun x => { x with usdo := none }) (atTime t w)) := by
  simp only [usdoTimeout, hopen]
  exact if_pos hstalled

/-! ## Heartbeats and safety-status frames (12 R309, R310) -/

theorem heartbeat_of_due {c t : Nat} {w : Work} (hactive : canActive (atTime t w).toBlk c = true)
    (hdue : (canOf (atTime t w).toBlk c).beatSent = 0 ∨
      (canOf (atTime t w).toBlk c).beatSent + odGet (atTime t w).toBlk 0x1017 0 * 1000000 ≤ moment t w) :
    heartbeat c t w =
      canSend c (0x700 + (atTime t w).dev.nodeId) (leBytes 1 (nmtState (atTime t w).dev.state))
        (modCan c (fun x => { x with beatSent := moment t w }) (atTime t w)) := by
  refine if_neg ?_
  rw [hactive]
  rintro (h | ⟨hsent, hearly⟩)
  · exact Bool.noConfusion h
  · omega

section Safety

variable {w : Work}

/-- At a boundary of the frame's period it goes out, and is counted, where a controller can send it. -/
theorem safetyStatus_of_due (hserved : servedState w.toBlk = true) (hon : odGet w.toBlk 0x2390 1 = 1)
    (hperiod : w.time.beat % odGet w.toBlk 0x2390 3 = 0) (hboundary : w.time.ns = 2000 * w.time.beat)
    (hactive : canActive w.toBlk 0 = true ∨ canActive w.toBlk 1 = true) :
    safetyStatus w =
      let sent := canSend 1 (odGet w.toBlk 0x2390 2) (ssfBytes w.toBlk) (canSend 0 (odGet w.toBlk 0x2390 2) (ssfBytes w.toBlk) w)
      odAdd 0x2390 4 1 { sent with links.ssfCount := (sent.links.ssfCount + 1) % 65536 } := by
  have hdue : ¬ (servedState w.toBlk = false ∨ odGet w.toBlk 0x2390 1 ≠ 1 ∨ w.time.beat % odGet w.toBlk 0x2390 3 ≠ 0 ∨
      w.time.ns ≠ 2000 * w.time.beat) := by simp [hserved, hon, hperiod, hboundary]
  have hsender : [0, 1].any (canActive w.toBlk) = true := by simpa using hactive
  exact (if_neg hdue).trans (if_neg (Bool.ne_false_iff.2 hsender))

/-- Without a controller that can send it nothing goes out. -/
theorem safetyStatus_of_silent (hfirst : canActive w.toBlk 0 = false) (hsecond : canActive w.toBlk 1 = false) :
    safetyStatus w = w := by
  have hsilent : [0, 1].any (canActive w.toBlk) = false := by simp [hfirst, hsecond]
  simp only [safetyStatus, hsilent, if_true, ite_self]

end Safety

/-! ## The commands -/

theorem usdoRequest_wf {c client : Nat} {q : UsdoReq} (hc : c < 2) (hclient : client < 128) (hq : q.wf = true) :
    Instr.wf (.usdoRequest c client q) = true := by
  simp [Instr.wf, hc, hclient, hq]

/-- Settles O28: each command is the branch that the controller's state leads to. -/
theorem canCommands : Obligations.CanCommands := by
  intro s c client idx sub size t o data hc
  refine ⟨fun hclient hidx hsub hdata hactive hserves => ⟨fun hidle => ?_, fun hopen hother q hq => ?_, fun hopen hsame => ?_⟩,
    fun hopen hstalled => ?_, fun hactive => ?_, fun hactive hdue => ?_, fun hserved hon hperiod hboundary hactive => ?_,
    fun hfirst hsecond => ?_, fun hon => ?_, fun hoff => ?_⟩
  · refine ⟨?_, ?_, fun hsize => ?_, ?_⟩
    · have hq : (UsdoReq.read idx sub).wf = true := by simpa [UsdoReq.wf] using ⟨hidx, hsub⟩
      exact perform_eq_nextOf (usdoRequest_wf hc hclient hq) rfl (usdoRequest_read (w := workOf s) hactive hserves hidle idx sub)
    · have hq : (UsdoReq.write idx sub data).wf = true := by simpa [UsdoReq.wf, and_assoc] using ⟨hidx, hsub, hdata⟩
      exact perform_eq_nextOf (usdoRequest_wf hc hclient hq) rfl
        (usdoRequest_write (w := workOf s) hactive hserves hidle idx sub data)
    · have hq : (UsdoReq.start idx sub size).wf = true := by simpa [UsdoReq.wf, and_assoc] using ⟨hidx, hsub, hsize⟩
      exact perform_eq_nextOf (usdoRequest_wf hc hclient hq) rfl
        (usdoRequest_start (w := workOf s) hactive hserves hidle idx sub size)
    · exact perform_eq_nextOf (usdoRequest_wf hc hclient rfl) rfl (usdoRequest_invalid (w := workOf s) hactive hserves hidle)
  · exact perform_eq_nextOf (usdoRequest_wf hc hclient hq) rfl
      (usdoRequest_of_other (w := workOf s) hactive hserves hopen hother q)
  · have hok (last : Bool) : Instr.wf (.usdoRequest c client (.segment last data)) = true :=
      usdoRequest_wf hc hclient (decide_eq_true hdata)
    exact ⟨perform_eq_nextOf (hok false) rfl (usdoRequest_segment (w := workOf s) hactive hserves hopen hsame data),
      fun hsize => perform_eq_nextOf (hok true) rfl (usdoRequest_last (w := workOf s) hactive hserves hopen hsame hsize)⟩
  · exact perform_eq_nextOf (decide_eq_true hc) rfl (usdoTimeout_of_stalled (w := workOf s) hopen hstalled)
  · exact perform_eq_nextOf (decide_eq_true hc) rfl (if_pos hactive)
  · exact perform_eq_nextOf (decide_eq_true hc) rfl (heartbeat_of_due (w := workOf s) hactive hdue)
  · exact perform_eq_nextOf rfl rfl (safetyStatus_of_due (w := workOf s) hserved hon hperiod hboundary hactive)
  · exact perform_eq_nextOf rfl rfl (safetyStatus_of_silent (w := workOf s) hfirst hsecond)
  · exact perform_eq_nextOf (decide_eq_true hc) rfl (if_neg (Bool.eq_false_iff.1 hon))
  · exact perform_eq_nextOf (decide_eq_true hc) rfl (if_pos hoff)

end Sys2Proof.Proofs
end

section
/-! Crino sessions (12 R313 to R315, R317, R322): HELLO, frames that the session answers by itself, and how a session falls
silent. -/

namespace Sys2Proof.Proofs

open Sys2Proof.Machine

/-! ## HELLO (12 R314) -/

/-- What a HELLO is answered: whether a version is common, and what the host needs to go on. -/
def helloBody (b : Blk) (common : Bool) : List Byte :=
  leBytes 1 (b2n common) ++ leBytes 1 (stateCode b.dev.state) ++ leBytes 2 0 ++
    leBytes 4 (odGet b 0x1018 2) ++ leBytes 4 (odGet b 0x1018 4) ++ leBytes 4 (odGet b 0x2002 1)

/-- A HELLO that is one whole frame of version 1 (12 R313, R314). -/
structure HelloForm (hd : Hdr) (payload : List Byte) : Prop where
  length : payload.length = 4
  offset : hd.offset = 0
  flags : hd.flags = 1 ∨ hd.flags = 3
  reserved : hd.reserved = 0
  zero : leAt payload 2 2 = 0
  version : hd.version = 1

/-- A version is common where the host's span holds version 1. -/
def helloCommon (payload : List Byte) : Bool := decide (leAt payload 0 1 ≤ 1) && decide (1 ≤ leAt payload 1 1)

section Hello

variable {hd : Hdr} {payload : List Byte} {w : Work} (hlink : linkServes w.toBlk hd.link hd.port = true)
  (hsender : stranger w.toBlk hd = false)

include hlink hsender

/-- A repeated HELLO receives the answer that the session holds. -/
theorem hello_of_held {os : List Output} (hheld : heldAnswer w.toBlk hd = some os) :
    hello hd payload w = sendAgain os (heard hd.link w) := by
  simp [hello, hlink, hsender, hheld]

section Form

variable (hnew : heldAnswer w.toBlk hd = none) (hform : HelloForm hd payload)

include hnew hform

/-- A HELLO in its form opens the session anew, or closes it where no version is common (log 145). -/
theorem hello_of_form :
    hello hd payload w =
      if helloCommon payload then
        let v := dropStage hd.link false w
        let v := modSession hd.link
          (fun _ => { Session.closed with up := true, version := 1, last := v.time.ns, peer := hd.peer }) v
        answer hd.link hd.tag 2 0 (helloBody w.toBlk (helloCommon payload)) (odPut 0x2800 8 1 v)
      else
        answer hd.link hd.tag 2 1 (helloBody w.toBlk (helloCommon payload))
          (doIf (sessionOf w.toBlk hd.link).up (fun w => closeSession hd.link (dropStage hd.link false w)) w) := by
  have hserves : ¬ linkServes w.toBlk hd.link hd.port = false := by simp [hlink]
  have hpeer : ¬ stranger w.toBlk hd = true := by simp [hsender]
  have hflags : hd.flags.testBit 0 = true ∧ hd.flags < 4 := by
    rcases hform.flags with hflags | hflags <;> rw [hflags] <;> decide
  have hwhole : ¬ (payload.length ≠ 4 ∨ hd.offset ≠ 0 ∨ hd.flags.testBit 0 = false) := by
    simp [hform.length, hform.offset, hflags.1]
  have hvalid : ¬ (hd.reserved ≠ 0 ∨ 4 ≤ hd.flags ∨ leAt payload 2 2 ≠ 0 ∨ hd.version ≠ 1) := by
    simp [hform.reserved, hform.zero, hform.version, hflags.2]
  simp only [hello, if_neg hserves, if_neg hpeer, hnew, if_neg hwhole, if_neg hvalid]
  rfl

theorem hello_of_common (hcommon : helloCommon payload = true) :
    hello hd payload w =
      let v := dropStage hd.link false w
      let v := modSession hd.link
        (fun _ => { Session.closed with up := true, version := 1, last := v.time.ns, peer := hd.peer }) v
      answer hd.link hd.tag 2 0 (helloBody w.toBlk true) (odPut 0x2800 8 1 v) := by
  rw [hello_of_form hlink hsender hnew hform, hcommon]
  rfl

theorem hello_of_no_common (hnone : helloCommon payload = false) :
    hello hd payload w =
      answer hd.link hd.tag 2 1 (helloBody w.toBlk false)
        (doIf (sessionOf w.toBlk hd.link).up (fun w => closeSession hd.link (dropStage hd.link false w)) w) := by
  rw [hello_of_form hlink hsender hnew hform, hnone]
  rfl

end Form

/-! ## Frames that the session answers by itself (12 R315) -/

theorem unknownType_of_valid {ftype : Nat} (hup : (sessionOf w.toBlk hd.link).up = true)
    (hversion : hd.version = (sessionOf w.toBlk hd.link).version) (hreserved : hd.reserved = 0) (hflags : hd.flags < 4)
    (hnew : heldAnswer w.toBlk hd = none) : unknownType ftype hd w = answer hd.link hd.tag ftype 2 [] w := by
  have hvalid : frameRefused ftype hd w = none := frameRefused_of_valid hlink hsender hup hversion hreserved hflags
  simp only [unknownType, hvalid, hnew]

end Hello

/-! ## A session that falls silent (12 R322) -/

theorem sessionSilent_of_up {link : Nat} {w : Work} (hup : (sessionOf w.toBlk link).up = true) :
    sessionSilent link w =
      let v := ringsStop (closeSession link (dropStage link false w))
      raise 0x0B2 link 0 (odAdd 0x2800 5 1 { v with links.silent := true }) :=
  if_neg (by simp [hup])

theorem hostSilent_of_due {link t : Nat} {w : Work}
    (hdue : (sessionOf (atTime t w).toBlk link).last + odGet (atTime t w).toBlk 0x2800 3 * 1000000 ≤ moment t w) :
    hostSilent link t w = sessionSilent link (atTime t w) :=
  if_pos hdue

/-! ## The commands -/

/-- Settles O29: each command is the branch that the session's state and the frame's form lead to. -/
theorem sessionCommands : Obligations.SessionCommands := by
  intro s hd payload ftype link t hwf
  refine ⟨fun hlink hsender hnew => ⟨fun hlength hoffset hflags hreserved hzero hversion =>
      ⟨fun hlow hhigh => ?_, fun hnone => ?_⟩, fun hup hversion hreserved hflags hftype => ?_⟩,
    fun os hlink hsender hheld => ?_, fun hframe => ?_, fun hlink => ?_,
    fun hlink ht hdue hup => ?_, fun hup => ?_⟩
  · have hcommon : helloCommon payload = true := by simp [helloCommon, hlow, hhigh]
    exact perform_eq_nextOf hwf rfl
      (hello_of_common (w := workOf s) hlink hsender hnew ⟨hlength, hoffset, hflags, hreserved, hzero, hversion⟩ hcommon)
  · have hcommon : helloCommon payload = false := by
      simp only [helloCommon, Bool.and_eq_false_iff, decide_eq_false_iff_not]
      omega
    exact perform_eq_nextOf hwf rfl
      (hello_of_no_common (w := workOf s) hlink hsender hnew ⟨hlength, hoffset, hflags, hreserved, hzero, hversion⟩ hcommon)
  · have hok : (hd.wf && decide (ftype < 256)) = true := Bool.and_eq_true_iff.2 ⟨hwf, decide_eq_true hftype⟩
    exact perform_eq_nextOf hok rfl (unknownType_of_valid (w := workOf s) hlink hsender hup hversion hreserved hflags hnew)
  · exact perform_eq_nextOf hwf rfl (hello_of_held (w := workOf s) hlink hsender hheld)
  · exact perform_crino_of_served hwf hframe rfl
  · exact perform_eq_nextOf hwf rfl (if_pos hlink)
  · have hok : (decide (link < 2) && decide (t < 2 ^ 64)) = true :=
      Bool.and_eq_true_iff.2 ⟨decide_eq_true hlink, decide_eq_true ht⟩
    exact perform_eq_nextOf hok rfl ((hostSilent_of_due (w := workOf s) hdue).trans (sessionSilent_of_up hup))
  · exact perform_eq_nextOf rfl rfl (sessionSilent_of_up (w := odPut 0x2800 2 0 (workOf s)) hup)

end Sys2Proof.Proofs
end

section
/-! The register window (12 R320): reads and writes of its words, and the three writes that are commands of their own. -/

namespace Sys2Proof.Proofs

open Sys2Proof.Machine

/-! ## The write of one word -/

@[simp] theorem regOne_length (off v : Nat) : (regOne off v).length = 8 := rfl

/-- The offset, the number of words and the word are read back. -/
theorem leAt_regOne {off v : Nat} (hoff : off < 65536) (hv : v < 2 ^ 32) :
    leAt (regOne off v) 0 2 = off ∧ leAt (regOne off v) 2 2 = 1 ∧ leAt ((regOne off v).drop 4) 0 4 = v := by
  refine ⟨?_, ?_, ?_⟩
  · rw [regOne, List.append_assoc, leAt_append_left (by simp), leAt_leBytes hoff]
  · rw [regOne, List.append_assoc]
    exact (leAt_append_right (leBytes 2 off) _ 0 2).trans
      ((leAt_append_left (by simp)).trans (leAt_leBytes (k := 2) (by decide)))
  · exact leAt_leBytes (k := 4) hv

/-- A message that writes one word answers as the word is taken or not. -/
theorem regWriteMsg_of_one {link tag off v : Nat} {w : Work} (haligned : off % 4 = 0) (hoff : off < 65536) (hv : v < 2 ^ 32) :
    regWriteMsg link tag (regOne off v) w =
      match winWrite link off v w with
      | some w' => answer link tag 0x42 0 [] w'
      | none => answer link tag 0x42 0xB [] w := by
  obtain ⟨hoffset, hwords, hvalue⟩ := leAt_regOne hoff hv
  have hinside : ¬ (off % 4 ≠ 0 ∨ 0x10000 < off + 4 * 1) := by omega
  have hone : winWrites link off ((regOne off v).drop 4) 1 w = winWrite link off v w := by
    simp [winWrites, List.range_succ, hvalue]
  simp only [regWriteMsg, hoffset, hwords, hone, if_neg hinside]
  rfl

/-! ## The words that act -/

theorem winWrite_hostKeepalive (link v : Nat) (w : Work) :
    winWrite link 0x1C v w = some (modSession link (fun x => { x with last := w.time.ns }) w) := rfl

theorem winWrite_irqStatus_of_bits (link : Nat) {v : Nat} (hv : v < 32) (w : Work) :
    winWrite link 0x20 v w = some { w with links.win.irq := Nat.land w.links.win.irq (31 - v) } := if_neg (Nat.not_le.2 hv)

theorem winWrite_irqStatus_of_reserved (link : Nat) {v : Nat} (hv : 32 ≤ v) (w : Work) :
    winWrite link 0x20 v w = none := if_pos hv

/-- A doorbell starts its ring, at its head where the ring had stopped (log 121), if it holds an entry. -/
theorem winWrite_doorbell (link v : Nat) {r : Nat} (hr : r < 4) (w : Work) :
    winWrite link (0x110 + 0x20 * r) v w =
      some (modRing_ r (fun x =>
        { x with status := if x.entries = 0 ∨ x.head = x.tail then 0 else 1, code := 0, link := link }) w) := by
  obtain rfl | rfl | rfl | rfl : r = 0 ∨ r = 1 ∨ r = 2 ∨ r = 3 := by omega
  all_goals rfl

/-! ## The commands -/

section Exec

variable {s : State} {hd : Hdr} {off v : Nat} {ok : Bool} {g : Work → Work} (hok : ok = true)
  (hframe : FrameServed hd 0x41 (regOne off v) (regOne off v) s) (haligned : off % 4 = 0) (hoff : off < 65536) (hv : v < 2 ^ 32)

include hok hframe haligned hoff hv

/-- A command that writes one word, where the word is taken. -/
theorem perform_regWrite_of_taken (htaken : ∀ w, winWrite hd.link off v w = some (g w)) :
    perform ok true (regWriteFrame hd (regOne off v)) s =
      nextOf s (fun w => answer hd.link hd.tag 0x42 0 [] (g (served hd 0x41 w))) := by
  refine perform_crino_of_served hok hframe ?_
  rw [regWriteMsg_of_one haligned hoff hv, htaken]

/-- A command that writes one word, where the word is refused. -/
theorem perform_regWrite_of_refused (hrefused : ∀ w, winWrite hd.link off v w = none) :
    perform ok true (regWriteFrame hd (regOne off v)) s =
      nextOf s (fun w => answer hd.link hd.tag 0x42 0xB [] (served hd 0x41 w)) := by
  refine perform_crino_of_served hok hframe ?_
  rw [regWriteMsg_of_one haligned hoff hv, hrefused]

end Exec

/-- Settles O30: the frame completes its message, and each of the three commands is the write of its word. -/
theorem windowCommands : Obligations.WindowCommands := by
  intro s hd p m r v hv hr
  -- Each `(… :)` below is elaborated before the goal is seen, so that the effect of the write comes from its word's lemma.
  have hwf : hd.wf = true → (hd.wf && decide (v < 2 ^ 32)) = true := fun hwf =>
    Bool.and_eq_true_iff.2 ⟨hwf, decide_eq_true hv⟩
  refine ⟨fun hframe => perform_crino_of_served hframe.1 hframe rfl, fun hframe => perform_crino_of_served hframe.1 hframe rfl,
    fun hframe => ?_, fun hframe => ⟨fun hlow => ?_, fun hhigh => ?_⟩, fun hframe => ?_⟩
  · exact (perform_regWrite_of_taken (hwf hframe.1) hframe (by decide) (by decide) hv (winWrite_hostKeepalive hd.link v) :)
  · exact (perform_regWrite_of_taken (hwf hframe.1) hframe (by decide) (by decide) hv (winWrite_irqStatus_of_bits hd.link hlow) :)
  · exact (perform_regWrite_of_refused (hwf hframe.1) hframe (by decide) (by decide) hv
      (winWrite_irqStatus_of_reserved hd.link hhigh) :)
  · have hok : (hd.wf && decide (r < 4) && decide (v < 2 ^ 32)) = true :=
      Bool.and_eq_true_iff.2 ⟨Bool.and_eq_true_iff.2 ⟨hframe.1, decide_eq_true hr⟩, decide_eq_true hv⟩
    exact (perform_regWrite_of_taken hok hframe (by omega) (by omega) hv (winWrite_doorbell hd.link v hr) :)

end Sys2Proof.Proofs
end

section
/-! The command rings (12 R321, 14 R368): the next entry is taken and completed, or stops its ring. -/

namespace Sys2Proof.Proofs

open Sys2Proof.Machine

/-- An entry of its type that stops nothing is taken: the ring moves past it, and the row's own operation serves it. -/
theorem cmdRow_of_next {t r : Nat} {e : List Byte} {f : Nat → Nat → List Byte → Work → Work} {w : Work}
    (hnext : nextCmd w = some (r, e)) (htype : leAt e 1 1 = t) (hform : cmdStops e = none) :
    cmdRow t f w = f (ringOf w.toBlk r).link (leAt e 4 4) (e.drop 8) (ringPast r w) := by
  simp only [cmdRow, hnext]
  exact if_pos ⟨htype, by rw [hform, Option.isNone_none]⟩

/-- A command that takes an entry does what its row does. -/
theorem perform_cmdRow_of_next {t r : Nat} {e : List Byte} {f : Nat → Nat → List Byte → Work → Work} {g : Work → Work}
    {s : State} (hnext : nextCmd (workOf s) = some (r, e)) (hform : cmdStops e = none) (htype : leAt e 1 1 = t)
    (heq : f (ringOf (start s) r).link (leAt e 4 4) (e.drop 8) (ringPast r (workOf s)) = g (workOf s)) :
    perform true true (cmdRow t f) s = nextOf s g :=
  perform_eq_nextOf rfl rfl ((cmdRow_of_next hnext htype hform).trans heq)

/-- An entry that stops its ring completes with the reason, which the ring keeps as its code. -/
theorem cmdReserved_of_stops {r c : Nat} {e : List Byte} {w : Work} (hnext : nextCmd w = some (r, e))
    (hstops : cmdStops e = some c) :
    cmdReserved w =
      let v := modRing_ r (fun x => { x with head := (x.head + 1) % x.entries, status := 2, code := c }) w
      complete (leAt e 4 4) c (leAt e 1 1) 0 v.time.beat v := by
  simp only [cmdReserved, hnext, hstops]

/-- Settles O31: the next entry is taken by the command of its type, and stops its ring where it is reserved. -/
theorem ringCommands : Obligations.RingCommands := by
  intro s r e hnext
  refine ⟨fun hform => ⟨fun htype => ?_, fun htype => ?_, fun htype hadapt hreserved hstream => ?_,
      fun htype hadapt hstream => ?_, fun htype hother => ?_, fun htype => ?_⟩, fun c hstops => ?_⟩
  · exact perform_cmdRow_of_next hnext hform htype rfl
  · exact perform_cmdRow_of_next hnext hform htype rfl
  · have hserves : ¬ (leAt (e.drop 8) 1 1 ≠ 0 ∨ 32 ≤ leAt (e.drop 8) 0 1) := by omega
    exact perform_cmdRow_of_next hnext hform htype ((if_neg (not_not_intro hadapt)).trans (if_neg hserves))
  · exact perform_cmdRow_of_next hnext hform htype ((if_neg (not_not_intro hadapt)).trans (if_pos (.inr hstream)))
  · exact perform_cmdRow_of_next hnext hform htype (if_pos hother)
  · exact perform_cmdRow_of_next hnext hform htype rfl
  · exact perform_eq_nextOf rfl rfl (cmdReserved_of_stops hnext hstops)

end Sys2Proof.Proofs
end

section
/-! The Ethernet ports (12 R317, R319): ARP, neighbour solicitation, and the state of a link. -/

namespace Sys2Proof.Proofs

open Sys2Proof.Machine

section Port

variable {p : Nat} {target : List Byte} {w : Work} (hanswers : ethAnswers w.toBlk p = true)

include hanswers

/-- ARP asks for an IPv4 address, which the port's own address holds in its mapped form (log 107). -/
theorem arpRequest_of_own
    (hown : leBytes 16 (odGet w.toBlk (0x2820 + p) 3) = List.replicate 10 0 ++ [0xFF, 0xFF] ++ target) :
    arpRequest p target w = send (.ether p 4 (leBytes 6 (odGet w.toBlk (0x2820 + p) 2) ++ target)) w := by
  refine if_pos ⟨hanswers, ?_, ?_⟩
  · rw [hown]; rfl
  · rw [hown]; rfl

theorem neighbourSolicit_of_own (hown : leBytes 16 (odGet w.toBlk (0x2820 + p) 3) = target) :
    neighbourSolicit p target w = send (.ether p 5 (leBytes 6 (odGet w.toBlk (0x2820 + p) 2) ++ target)) w :=
  if_pos ⟨hanswers, hown⟩

end Port

/-- Settles O32: a port whose own address is asked for answers with its MAC address. -/
theorem ethernetCommands : Obligations.EthernetCommands := by
  intro s p target up hp
  refine ⟨fun hlength hanswers hown => ?_, fun hlength hanswers hown => ?_, ?_⟩
  · exact perform_eq_nextOf (by simp [Instr.wf, hp, hlength]) rfl (arpRequest_of_own (w := workOf s) hanswers hown)
  · exact perform_eq_nextOf (by simp [Instr.wf, hp, hlength]) rfl (neighbourSolicit_of_own (w := workOf s) hanswers hown)
  · exact perform_of_accepted (by simp [Instr.wf, hp]) rfl

end Sys2Proof.Proofs
end

section
/-! Loads (12 R318, 13 R330, R341) and attestation (13 R343 to R345). -/

namespace Sys2Proof.Proofs

open Sys2Proof.Machine

/-! ## LOAD by its kind -/

section Load

variable {link tag : Nat} {m : List Byte} {w : Work}

theorem loadMsg_firmware (hkind : leAt m 1 1 = 1) : loadMsg link tag m w = firmwareMsg link tag m w := by
  simp only [loadMsg, hkind]

theorem loadMsg_program (hkind : leAt m 1 1 = 2) : loadMsg link tag m w = programMsg link tag m w := by
  simp only [loadMsg, hkind]

theorem loadMsg_weights (hkind : leAt m 1 1 = 3) : loadMsg link tag m w = weightMsg link tag m w := by
  simp only [loadMsg, hkind]

/-- A firmware image whose header is right waits for the crypto unit. -/
theorem firmwareMsg_of_right (hlength : 16 ≤ m.length)
    (hstate : w.dev.state = .boot ∨ w.dev.state = .config ∨ activeState w.toBlk = true)
    (hversion : leAt m 0 1 = 1) (hreserved : leAt m 2 6 = 0) (hrest : leAt m 8 8 = 0) :
    firmwareMsg link tag m w = { w with cores.crypto := w.cores.crypto ++ [.verify link tag m] } := by
  have hwhole : ¬ m.length < 16 := Nat.not_lt.2 hlength
  have hheader : ¬ (leAt m 0 1 ≠ 1 ∨ leAt m 2 6 ≠ 0 ∨ leAt m 8 8 ≠ 0) := by simp [hversion, hreserved, hrest]
  have hthere : (w.dev.state == .boot || w.dev.state == .config || activeState w.toBlk) = true := by
    simpa [or_assoc] using hstate
  exact (if_neg hwhole).trans ((if_neg hheader).trans (if_neg (Bool.ne_false_iff.2 hthere)))

/-- A program image that its checks pass takes the next handle and is answered with it. -/
theorem programMsg_of_right (hheader : loadHeader w.toBlk 2 m = (0, 0)) (hhandles : w.res.nextProg ≤ 65535)
    (hloaded : (loadImage (leAt m 2 2) (leAt m 4 1) w.res.nextProg (m.drop 16) w).1 = 0) :
    programMsg link tag m w =
      let r := loadImage (leAt m 2 2) (leAt m 4 1) w.res.nextProg (m.drop 16) w
      let h := takeHandle 1 (leNat (sha3 m)) r.2
      loadResult link tag 2 0 0 h.1 m h.2 := by
  simp only [programMsg, hheader, if_neg (Nat.not_lt.2 hhandles)]
  exact if_neg (not_not_intro hloaded)

/-- Weights that their checks pass are stored, take the next handle and are answered with it. -/
theorem weightMsg_of_right (hheader : loadHeader w.toBlk 3 m = (0, 0)) (hhandles : w.res.nextWeight ≤ 65535)
    (hlength : m.length = 16 + 16 * leAt m 8 4 + (weightSegs m).foldl (fun a x => a + x.2.2.1) 0)
    (hreserved : (List.range (weightSegs m).length).any (fun i => leAt m (18 + 16 * i) 2 != 0) = false)
    (hsegments : (weightSegs m).all (weightSegOk w.toBlk (leAt m 2 2) (leAt m 4 1)) = true) :
    weightMsg link tag m w =
      let h := takeHandle 2 (leNat (sha3 m)) (storeSegs m w)
      loadResult link tag 3 0 0 h.1 m { h.2 with res.weights := tabSet 0 h.2.res.weights (leAt m 2 2) h.1 } := by
  simp only [weightMsg, hheader, if_neg (not_not_intro hlength), if_neg (Bool.eq_false_iff.1 hreserved),
    if_neg (Bool.ne_false_iff.2 hsegments), if_neg (Nat.not_lt.2 hhandles)]
  rfl

/-! ## Attestation -/

theorem attestMsg_of_right (hlength : m.length = 36) (hversion : leAt m 0 1 = 1) (hflags : leAt m 1 1 < 2)
    (hreserved : leAt m 2 2 = 0) (hstate : w.dev.state = .config ∨ activeState w.toBlk = true) :
    attestMsg link tag m w = { w with cores.crypto := w.cores.crypto ++ [.attest link tag (leAt m 1 1) (m.drop 4)] } := by
  have hheader : ¬ (leAt m 0 1 ≠ 1 ∨ 2 ≤ leAt m 1 1 ∨ leAt m 2 2 ≠ 0) := by simp [hversion, hflags, hreserved]
  have hthere : (w.dev.state == .config || activeState w.toBlk) = true := by simpa using hstate
  exact (if_neg (not_not_intro hlength)).trans ((if_neg hheader).trans (if_neg (Bool.ne_false_iff.2 hthere)))

end Load

/-- A response changes the links and the output alone. -/
theorem answer_keeps (link tag rtype status : Nat) (body : List Byte) (w : Work) :
    ∃ (links : Links) (out : List Output), answer link tag rtype status body w = { w with links := links, out := out } := by
  unfold answer
  split
  · obtain ⟨links, hanswers⟩ := modSession_keeps 1 _ (send (.crino link rtype tag status body) w)
    exact ⟨links, _, hanswers⟩
  · exact ⟨w.links, _, rfl⟩

/-! The model entries of a report take free values, where a digest is forgotten (log 49), and change nothing else. -/

theorem handleDigest_keeps (kind h : Nat) (w : Work) : ∃ free : Nat, (handleDigest kind h w).2 = { w with free := free } := by
  unfold handleDigest
  split
  · exact ⟨w.free, rfl⟩
  · split
    · exact ⟨w.free, rfl⟩
    · exact ⟨w.free + 1, rfl⟩

theorem modelEntry_keeps (n : Nat) (w : Work) : ∃ free : Nat, (modelEntry n w).2 = { w with free := free } := by
  obtain ⟨programFree, hprogram⟩ := handleDigest_keeps 1 (((imageOf w.toBlk n (activePlace w.toBlk n)).map (·.handle)).getD 0) w
  obtain ⟨free, hweights⟩ := handleDigest_keeps 2 (tabGet 0 w.res.weights n) { w with free := programFree }
  exact ⟨free, (congrArg (fun v => (handleDigest 2 (tabGet 0 w.res.weights n) v).2) hprogram).trans hweights⟩

theorem modelEntries_keeps (ns : List Nat) (p : List Byte × Work) :
    ∃ free : Nat, (ns.foldl (fun (p : List Byte × Work) n => let r := modelEntry n p.2; (p.1 ++ r.1, r.2)) p).2 =
      { p.2 with free := free } := by
  induction ns generalizing p with
  | nil => exact ⟨p.2.free, rfl⟩
  | cons n ns ih =>
    obtain ⟨entryFree, hentry⟩ := modelEntry_keeps n p.2
    obtain ⟨free, hrest⟩ := ih (p.1 ++ (modelEntry n p.2).1, (modelEntry n p.2).2)
    refine ⟨free, hrest.trans ?_⟩
    rw [hentry]

/-- The bytes of a report without model entries, before its signature (13 R344). -/
def reportBody (b : Blk) (nonce : List Byte) : List Byte :=
  let fl := b2n b.fuses.debugLock + 2 * odGet b 0x2530 4 + 4 * b2n b.cores.pending.isSome +
    8 * b2n ((List.range 6).any (fun k => pairState b k == 2))
  leBytes 1 1 ++ leBytes 1 (stateCode b.dev.state) ++ leBytes 1 fl ++ leBytes 1 (odGet b 0x2500 4) ++
    leBytes 4 (odGet b 0x1018 2) ++ leBytes 4 (odGet b 0x1018 3) ++ leBytes 4 (odGet b 0x1018 4) ++ leBytes 8 b.time.beat ++
    nonce ++ leBytes 64 (odGet b 0x2500 2) ++ leBytes 16 (odGet b 0x2500 3) ++ leBytes 4 (odGet b 0x2002 1) ++
    leBytes 4 (odGet b 0x2010 1) ++ leBytes 16 (configDigest b) ++ leBytes 2 0 ++ leBytes 94 0

section Report

variable {link tag flags : Nat} {nonce : List Byte} {rest : List CryptoOp} {w : Work}
  (hqueue : w.cores.crypto = .attest link tag flags nonce :: rest)

include hqueue

/-- Whatever it holds, a report leaves the queue, is counted and is answered. -/
theorem attestReport_sends :
    ∃ (body : List Byte) (free : Nat),
      attestReport w = answer link tag 0x71 0 body (odAdd 0x2530 6 1 { w with cores.crypto := rest, free := free }) := by
  obtain ⟨free, hentries⟩ := modelEntries_keeps
    (if flags.testBit 0 then (admitted { w with cores.crypto := rest }.toBlk).filter (fun n => !ctxFixed n) else [])
    ([], { w with cores.crypto := rest })
  simp only [attestReport, hqueue, hentries]
  exact ⟨_, free, rfl⟩

theorem attestReport_of_plain (hplain : flags.testBit 0 = false) :
    attestReport w =
      answer link tag 0x71 0 (reportBody w.toBlk nonce ++ Config.attestSign (sha3 (reportBody w.toBlk nonce)))
        (odAdd 0x2530 6 1 { w with cores.crypto := rest }) := by
  simp only [attestReport, hqueue, hplain, Bool.false_eq_true, if_false, List.foldl_nil, List.length_nil, List.append_nil]
  rfl

end Report

/-! ## The commands -/

/-- Settles O15: a message whose checks pass does what its kind asks, and a report is answered from the crypto unit's head. -/
theorem loadCommands : Obligations.LoadCommands := by
  intro s hd p m hp
  have hok : hd.wf = true → (hd.wf && decide (p.length ≤ 2 ^ 31)) = true := fun hwf =>
    Bool.and_eq_true_iff.2 ⟨hwf, decide_eq_true hp⟩
  refine ⟨fun hframe hlength => ⟨fun hstate hkind hversion hreserved hrest => ?_, fun hkind hheader hhandles hloaded => ?_,
      fun hkind hheader hhandles hwhole hreserved hsegments => ?_⟩,
    fun hframe hlength hversion hflags hreserved hstate => ?_, fun link tag flags nonce rest hqueue => ⟨?_, fun hplain => ?_⟩⟩
  · refine perform_crino_of_served (hok hframe.1) hframe ?_
    rw [loadMsg_firmware hkind, firmwareMsg_of_right hlength (by simpa using hstate) hversion hreserved hrest]
    simp only [served_cores, Laws.workOf_cores]
  · refine perform_crino_of_served (hok hframe.1) hframe ?_
    have hres : (served hd 0x20 (workOf s)).res = s.blk.res := served_res hd 0x20 (workOf s)
    rw [← hres] at hhandles hloaded
    rw [loadMsg_program hkind, programMsg_of_right hheader hhandles hloaded, hres]
  · refine perform_crino_of_served (hok hframe.1) hframe ?_
    rw [loadMsg_weights hkind, weightMsg_of_right hheader (by simpa using hhandles) hwhole hreserved hsegments]
  · refine perform_crino_of_served (hok hframe.1) hframe ?_
    rw [attestMsg_of_right hlength hversion hflags hreserved (by simpa using hstate)]
    simp only [served_cores, Laws.workOf_cores]
  · obtain ⟨body, free, hsent⟩ := attestReport_sends (w := workOf s) hqueue
    obtain ⟨links, out, hanswer⟩ := answer_keeps link tag 0x71 0 body
      (odAdd 0x2530 6 1 { workOf s with cores.crypto := rest, free := free })
    refine (completes_iff_of_nextOf (f := attestReport) rfl _).2 ?_
    rw [hsent, hanswer]
    exact ⟨rfl, rfl, rfl, Laws.odGet_odAdd_self 0x2530 6 1 _⟩
  · exact perform_eq_nextOf rfl rfl (attestReport_of_plain (w := workOf s) hqueue hplain)

end Sys2Proof.Proofs
end

section
/-! The start of the device (13 R331, 15 R389, 01 R26): the retained image, the verification of a load, and CONFIG from BOOT
once every pair has reported. -/

namespace Sys2Proof.Proofs

open Sys2Proof.Machine

/-! ## The retained image (01 R26) -/

/-- A retained image whose bytes read as they were written starts the pairs; any other is discarded. -/
theorem retainedCheck_of_retained {img : FwImage} {w : Work} (hboot : w.dev.state = .boot) (hwarm : w.dev.warm = false)
    (hretained : w.dev.retained = true) (hidle : w.dev.starting = false) (hactive : w.cores.active = some img) (intact : Bool) :
    retainedCheck intact w =
      if intact && fwDigest img.bytes == w.cores.recorded then startPairs [] w
      else { w with cores.active := none, dev.retained := false, dev.cause := 0x0B } := by
  simp [retainedCheck, hboot, hwarm, hretained, hidle, hactive]

/-! ## The verification of a load (13 R330, R331) -/

@[simp] theorem fwResult_dev (link tag status code : Nat) (m : List Byte) (w : Work) :
    (fwResult link tag status code m w).dev = w.dev := by
  obtain ⟨links, out, hanswer⟩ := answer_keeps link tag 0x21 status
    (leBytes 1 1 ++ leBytes 1 code ++ leBytes 2 0 ++ leBytes 4 0 ++ sha3 m) w
  rw [fwResult, loadResult, hanswer]

/-! ## CONFIG from BOOT (13 R331, 01 R27, 17 R435) -/

/-- What the steps of FIRMWARE_START that follow the entry into CONFIG leave alone: the device's own state, and the stores. -/
def deviceAndStores (w : Work) : Dev × List (Nat × List Byte) := (w.dev, w.wr)

@[simp] theorem deviceAndStores_odPut (idx sub v : Nat) (w : Work) :
    deviceAndStores (odPut idx sub v w) = deviceAndStores w := rfl

@[simp] theorem deviceAndStores_ctxPut (n sub v : Nat) (w : Work) :
    deviceAndStores (ctxPut n sub v w) = deviceAndStores w := rfl

@[simp] theorem deviceAndStores_modCtx (n : Nat) (f : CtxRun → CtxRun) (w : Work) :
    deviceAndStores (modCtx n f w) = deviceAndStores w := rfl

theorem deviceAndStores_sched (x : Sched) (w : Work) : deviceAndStores { w with sched := x } = deviceAndStores w := rfl

theorem deviceAndStores_ctxPuts (subs : List Nat) (n v : Nat) (w : Work) :
    deviceAndStores (forAll subs (fun i w => ctxPut n i v w) w) = deviceAndStores w :=
  Laws.forAll_keeps deviceAndStores (fun i => ctxPut n i v) (fun _ _ => rfl) subs w

theorem deviceAndStores_dropAdmission (n status reason : Nat) (w : Work) :
    deviceAndStores (dropAdmission n status reason w) = deviceAndStores w := by
  rw [dropAdmission, deviceAndStores_modCtx, deviceAndStores_ctxPut, deviceAndStores_ctxPut, deviceAndStores_ctxPut]

theorem deviceAndStores_respPut (n r : Nat) (w : Work) : deviceAndStores (respPut n r w) = deviceAndStores w := by
  unfold respPut
  split <;> rfl

theorem deviceAndStores_suspendIngest (n : Nat) (w : Work) : deviceAndStores (suspendIngest n w) = deviceAndStores w :=
  Laws.forAll_keeps deviceAndStores inSuspend (fun _ _ => rfl) (streamsOf w.toBlk n) w

theorem deviceAndStores_admitCtx (n place eff resp : Nat) (w : Work) :
    deviceAndStores (admitCtx n place eff resp w) = deviceAndStores w := by
  unfold admitCtx
  extract_lets b off placed cleared any level fresh running
  have hplaced : deviceAndStores placed = deviceAndStores w := by
    rw [deviceAndStores_ctxPut, deviceAndStores_ctxPut, deviceAndStores_respPut, deviceAndStores_ctxPut, deviceAndStores_ctxPut]
  rw [deviceAndStores_suspendIngest, deviceAndStores_modCtx, deviceAndStores_ctxPuts, hplaced]

theorem deviceAndStores_loadFigures (w : Work) : deviceAndStores (loadFigures w) = deviceAndStores w := by
  refine Laws.forAll_keeps deviceAndStores _ (fun q v => ?_) _ w
  dsimp only
  split <;> rfl

theorem deviceAndStores_scheduleDone (w : Work) : deviceAndStores (scheduleDone w) = deviceAndStores w := by
  unfold scheduleDone
  extract_lets counted loaded held
  have hheld : deviceAndStores held = deviceAndStores loaded :=
    Laws.forAll_keeps deviceAndStores _ (fun _ v => Laws.doIf_keeps deviceAndStores _ _ v rfl) _ loaded
  calc deviceAndStores (forAll (List.range 3) _ held)
      = deviceAndStores held :=
        Laws.forAll_keeps deviceAndStores _ (fun _ v => Laws.doIf_keeps deviceAndStores _ _ v rfl) _ held
    _ = deviceAndStores loaded := hheld
    _ = deviceAndStores w := deviceAndStores_loadFigures counted

theorem deviceAndStores_keepClocks (w : Work) : deviceAndStores (keepClocks w) = deviceAndStores w := by
  refine Laws.forAll_keeps deviceAndStores _ (fun q v => ?_) _ w
  rfl

theorem deviceAndStores_takeClocks (w : Work) : deviceAndStores (takeClocks w) = deviceAndStores w := by
  refine Laws.forAll_keeps deviceAndStores _ (fun q v => ?_) _ w
  rfl

theorem deviceAndStores_busyStep (w : Work) : deviceAndStores (busyStep w) = deviceAndStores w := rfl

theorem deviceAndStores_selfAdmission (w : Work) : deviceAndStores (selfAdmission w) = deviceAndStores w := by
  unfold selfAdmission
  extract_lets b dropped cleared first guards set responses
  have hdropped : deviceAndStores dropped = deviceAndStores w := by
    refine Laws.forAll_keeps deviceAndStores _ (fun n v => ?_) _ w
    rw [deviceAndStores_ctxPut, deviceAndStores_modCtx]
    exact Laws.doIf_keeps deviceAndStores _ (dropAdmission n 0 0) v (deviceAndStores_dropAdmission n 0 0 v)
  have hcleared : deviceAndStores cleared = deviceAndStores dropped := deviceAndStores_sched Sched.reset dropped
  have hfirst : deviceAndStores first = deviceAndStores cleared := by
    rw [deviceAndStores_ctxPut, deviceAndStores_admitCtx]
  have hguards : deviceAndStores guards = deviceAndStores first := by
    refine Laws.forAll_keeps deviceAndStores _ (fun q v => ?_) _ first
    split
    · rw [deviceAndStores_ctxPut]
    · rw [deviceAndStores_ctxPut, deviceAndStores_admitCtx]
  have hresponses : deviceAndStores responses = deviceAndStores guards :=
    Laws.forAll_keeps deviceAndStores _ (fun n v => deviceAndStores_respPut n _ v) set guards
  rw [deviceAndStores_busyStep, deviceAndStores_scheduleDone, deviceAndStores_takeClocks, deviceAndStores_keepClocks,
    hresponses, hguards, hfirst, hcleared, hdropped]

theorem deviceAndStores_canSend (c cob : Nat) (bs : List Byte) (w : Work) :
    deviceAndStores (canSend c cob bs w) = deviceAndStores w := by
  unfold canSend
  split <;> rfl

theorem deviceAndStores_trainSend (w : Work) : deviceAndStores (trainSend w) = deviceAndStores w := by
  refine Laws.forAll_keeps deviceAndStores _ (fun p v => ?_) _ w
  rfl

theorem deviceAndStores_trainingStart (w : Work) : deviceAndStores (trainingStart w) = deviceAndStores w := by
  unfold trainingStart
  split
  · rfl
  · rw [deviceAndStores_trainSend]
    rfl

theorem deviceAndStores_showImage (w : Work) : deviceAndStores (showImage w) = deviceAndStores w := by
  unfold showImage
  split
  · rfl
  · rw [deviceAndStores_odPut, deviceAndStores_odPut]

/-- FIRMWARE_START enters CONFIG with LAST_CAUSE 3 and stores nothing. -/
theorem deviceAndStores_firmwareStart {w : Work} (hboot : w.dev.state = .boot) (hstarting : w.dev.starting = true)
    (hwarm : w.dev.warm = false) (hreported : ∀ k < 6, pairState w.toBlk k = 1) :
    deviceAndStores (firmwareStart w) =
      ({ w.dev with state := .config, prev := 1, cause := 3, starting := false, checksPassed := false }, w.wr) := by
  have hready : ¬ (w.dev.state ≠ .boot ∨ w.dev.starting = false ∨ w.dev.warm = true ∨
      (List.range 6).any (fun k => pairState w.toBlk k != 1) = true) := by
    simpa [hboot, hstarting, hwarm] using hreported
  have hprev : stateCode w.dev.state = 1 := by rw [hboot]; rfl
  rw [firmwareStart, if_neg hready]
  extract_lets dev entered shown named waiting checks safe guarded admitting recalled announced
  have hshown : deviceAndStores shown = deviceAndStores entered := by
    rw [deviceAndStores_showImage, deviceAndStores_odPut]
  have hnamed : deviceAndStores named = deviceAndStores shown := by
    dsimp only [named]
    split
    · rw [deviceAndStores_odPut, deviceAndStores_odPut]
    · rfl
  have hwaiting : deviceAndStores waiting = deviceAndStores named := by
    dsimp only [waiting]
    split
    · rw [deviceAndStores_odPut, deviceAndStores_odPut]
    · rfl
  have hrecalled : deviceAndStores recalled = deviceAndStores admitting := by
    refine Laws.forAll_keeps deviceAndStores _ (fun t v => ?_) _ admitting
    rfl
  have hannounced : deviceAndStores announced = deviceAndStores recalled :=
    Laws.forAll_keeps deviceAndStores _ (fun c v => deviceAndStores_canSend c _ [0] v) _ recalled
  calc deviceAndStores (trainingStart announced)
      = deviceAndStores admitting := by rw [deviceAndStores_trainingStart, hannounced, hrecalled]
    _ = deviceAndStores checks := deviceAndStores_selfAdmission guarded
    _ = deviceAndStores entered := by
      rw [deviceAndStores_odPut, deviceAndStores_odPut, hwaiting, hnamed, hshown]
    _ = _ := by rw [← hprev]; rfl

/-! ## The start-up checks (15 R389) -/

/-- A loop over quads changes the quads alone. -/
theorem forAll_modQuad_keeps (f : QuadRun → QuadRun) (qs : List Nat) (w : Work) :
    ∃ quads : Tab QuadRun, forAll qs (fun q => modQuad q f) w = { w with quads := quads } := by
  induction qs generalizing w with
  | nil => exact ⟨w.quads, rfl⟩
  | cons q qs ih =>
    obtain ⟨quads, hrest⟩ := ih (modQuad q f w)
    exact ⟨quads, hrest⟩

/-- Checks that all pass are noted, with the quads tested, and change nothing else. -/
theorem startupChecks_of_passing {w : Work} (hdue : odGet w.toBlk 0x2300 5 = 1) (hconfig : w.dev.state = .config)
    (hpair : odGet w.toBlk 0x2510 1 = 1) :
    ∃ quads : Tab QuadRun, startupChecks [] w =
      { odPut 0x2300 5 2 w with dev.checksPassed := true, safe.checkedAt := some w.time.beat, quads := quads } := by
  obtain ⟨quads, htested⟩ := forAll_modQuad_keeps (fun r => { r with tested := allItems }) (List.range (quadCount w.fuses))
    { odPut 0x2300 5 2 w with dev.checksPassed := true, safe.checkedAt := some w.time.beat }
  refine ⟨quads, Eq.trans ?_ htested⟩
  exact if_neg (by simp [hdue, hconfig, hpair])

/-! ## The commands -/

/-- Settles O2: each command is the branch that its conditions lead to, and FIRMWARE_START leaves the device's state as its
entry into CONFIG puts it. -/
theorem startCommands : Obligations.StartCommands := by
  intro s img speed link tag msg bad rest
  refine ⟨fun hboot hwarm hretained hidle hactive hdigest => ?_, fun hboot hwarm hretained hidle hactive => ?_,
    fun hspeed hboot hwarm hlocked => ?_, fun hleast hmost hpresent => ?_, fun hqueue hidle => ?_,
    fun hboot hstarting hwarm hreported => ?_, fun hdue hconfig hpair => ?_⟩
  · have hintact : (true && fwDigest img.bytes == s.blk.cores.recorded) = true := by simp [hdigest]
    exact perform_eq_nextOf rfl rfl
      ((retainedCheck_of_retained (w := workOf s) hboot hwarm hretained hidle hactive true).trans (if_pos hintact))
  · have hdamaged : ¬ (false && fwDigest img.bytes == s.blk.cores.recorded) = true := Bool.false_ne_true
    exact perform_eq_nextOf rfl rfl
      ((retainedCheck_of_retained (w := workOf s) hboot hwarm hretained hidle hactive false).trans (if_neg hdamaged))
  · exact perform_eq_nextOf (decide_eq_true hspeed) rfl (if_pos ⟨hboot, hlocked, hwarm⟩)
  · have hwf : Instr.wf (.usbAttach speed) = true := Bool.and_eq_true_iff.2 ⟨decide_eq_true hleast, decide_eq_true hmost⟩
    exact perform_eq_nextOf hwf rfl (if_pos hpresent)
  · refine perform_eq_nextOf rfl rfl ?_
    simp only [firmwareVerified, Laws.workOf_cores, hqueue, fwResult_dev, Laws.workOf_dev, hidle, Bool.false_eq_true, if_false]
  · have hentry := deviceAndStores_firmwareStart (w := workOf s) hboot hstarting hwarm hreported
    simp only [deviceAndStores, Prod.mk.injEq] at hentry
    obtain ⟨hdev, hwr⟩ := hentry
    refine (completes_iff_of_nextOf (f := firmwareStart) rfl _).2 ?_
    rw [Laws.commitWork_blk, Laws.commitWork_mem, hdev, hwr]
    exact ⟨rfl, rfl, rfl, rfl, rfl, rfl⟩
  · obtain ⟨quads, hchecked⟩ := startupChecks_of_passing (w := workOf s) hdue hconfig hpair
    refine (completes_iff_of_nextOf (f := startupChecks []) rfl _).2 ?_
    rw [hchecked]
    exact ⟨rfl, Laws.odGet_odPut_self 0x2300 5 2 (workOf s), rfl, rfl⟩

end Sys2Proof.Proofs
end

section
/-! The supervision of the control-core pairs (13 R325, R332, R336, R337, 16 R418): what restarts a pair, how a restart ends,
heartbeats, splits and rejoins. -/

namespace Sys2Proof.Proofs

open Sys2Proof.Machine

section Pair

variable {k : Nat} {w : Work}

theorem pairRuns_of_restarting (hstate : pairState w.toBlk k = 3) : pairRuns w.toBlk k = false := by
  have hrestarting : odGet w.toBlk (0x2510 + k) 1 = 3 := hstate
  simp [pairRuns, hrestarting]

/-! ## Split and rejoin (13 R336, R337) -/

theorem pairSplit_of_due (heffect : .split k ∈ w.links.effects) (hruns : pairState w.toBlk k = 1)
    (hasked : odGet w.toBlk (0x2510 + k) 2 = 1) :
    pairSplit k w = pairPut k 1 2 (modPair k (fun p => { p with split := true }) (effectTaken (.split k) w)) := by
  rw [pairSplit, takeEffect_of_mem heffect]
  exact if_pos ⟨hruns, hasked⟩

theorem pairRejoin_of_split (heffect : .rejoin k ∈ w.links.effects) (hsplit : (pairOf w.toBlk k).split = true) :
    pairRejoin k w = restartBegin k 6 0 (effectTaken (.rejoin k) w) := by
  rw [pairRejoin, takeEffect_of_mem heffect]
  exact if_pos hsplit

/-! ## Heartbeats (16 R418) -/

/-- The work of a heartbeat that counts. -/
def heartbeatNoted (k : Nat) (w : Work) : Work :=
  let w := odAdd (0x2510 + k) 6 1 (modPair k (fun p => { p with start := none, last := w.time.beat }) w)
  let w := { w with cores.reporting := w.cores.reporting.filter (· != k) }
  if k = 0 then { w with safe.wdgBeat := true } else w

/-- A running pair that has reported before. -/
theorem pairHeartbeat_of_running (hstart : (pairOf w.toBlk k).start = none)
    (hruns : pairState w.toBlk k = 1 ∨ pairState w.toBlk k = 2) : pairHeartbeat k w = heartbeatNoted k w := by
  have hcounts : (pairState w.toBlk k == 1 || pairState w.toBlk k == 2) = true := by simpa using hruns
  simp only [pairHeartbeat, hstart, Option.isSome_none, Bool.false_and, Bool.false_or, hcounts, if_true, Laws.doIf_false]
  rfl

/-- The first heartbeat of a pair that starts makes it run. -/
theorem pairHeartbeat_of_starting {t : Nat} (hstart : (pairOf w.toBlk k).start = some t)
    (hstarts : pairState w.toBlk k = 0 ∨ pairState w.toBlk k = 3) : pairHeartbeat k w = heartbeatNoted k (pairPut k 1 1 w) := by
  have hfirst : (pairState w.toBlk k == 0 || pairState w.toBlk k == 3) = true := by simpa using hstarts
  simp only [pairHeartbeat, hstart, Option.isSome_some, Bool.true_and, hfirst, Bool.true_or, if_true, Laws.doIf_true]
  rfl

/-- The heartbeat of a running pair is late. -/
theorem heartbeatMissed_of_silent (hstart : (pairOf w.toBlk k).start = none)
    (hruns : pairState w.toBlk k = 1 ∨ pairState w.toBlk k = 2)
    (hlate : (pairOf w.toBlk k).last + odGet w.toBlk 0x2420 3 ≤ w.time.beat) :
    heartbeatMissed k w = restartBegin k 2 0 (raise 0x0C0 k 0 w) := by
  have hcounts : (pairState w.toBlk k == 1 || pairState w.toBlk k == 2) = true := by simpa using hruns
  simp [heartbeatMissed, hstart, hcounts, hlate]

/-- The first heartbeat of a pair that starts is late. -/
theorem heartbeatMissed_of_unstarted {t : Nat} (hstart : (pairOf w.toBlk k).start = some t) (hlate : t + 500 ≤ w.time.beat) :
    heartbeatMissed k w = restartBegin k 2 0 (raise 0x0C0 k 0 w) := by
  simp [heartbeatMissed, hstart, hlate]

/-! ## Restarts (13 R332) -/

section End

variable (hstate : pairState w.toBlk k = 3) (hstart : (pairOf w.toBlk k).start = none)

include hstate hstart

theorem restartEnd_of_restarting (testOk digestOk : Bool) :
    restartEnd k testOk digestOk w =
      if testOk = false ∨ digestOk = false then pairHold k w
      else pairPut k 8 (sectionDigest w.toBlk k) (modPair k (fun p => { p with start := some w.time.beat }) w) :=
  if_neg (by simp [hstate, hstart])

/-- A restart whose test and digest are good starts the pair. -/
theorem restartEnd_of_good :
    restartEnd k true true w =
      pairPut k 8 (sectionDigest w.toBlk k) (modPair k (fun p => { p with start := some w.time.beat }) w) :=
  (restartEnd_of_restarting hstate hstart true true).trans (if_neg (by decide))

/-- One whose test or digest fails holds it. -/
theorem restartEnd_of_failed {testOk digestOk : Bool} (hfailed : testOk = false ∨ digestOk = false) :
    restartEnd k testOk digestOk w = pairHold k w :=
  (restartEnd_of_restarting hstate hstart testOk digestOk).trans (if_pos hfailed)

end End

/-- A restart that has begun with its cause goes on, whatever the cause. -/
theorem pairRestart_of_restarting {cause : Nat} (hstate : pairState w.toBlk k = 3)
    (hcause : odGet w.toBlk (0x2510 + k) 4 = cause) (pc : Nat) (testOk digestOk : Bool) :
    pairRestart k cause pc testOk digestOk w = restartEnd k testOk digestOk w := by
  simp [pairRestart, pairRuns_of_restarting hstate, hcause]

/-- A fatal trap of a running pair is reported with the trap's address, and restarts it. -/
theorem pairRestart_of_trap (hruns : pairRuns w.toBlk k = true) (pc : Nat) (testOk digestOk : Bool) :
    pairRestart k 3 pc testOk digestOk w =
      let w := restartBegin k 3 pc (raise 0x0C2 k (pc % 2 ^ 32) w)
      if odGet w.toBlk (0x2510 + k) 4 = 3 then restartEnd k testOk digestOk w else w := by
  simp only [pairRestart, hruns, true_and, if_true]

/-- An uncorrectable error of its memory is reported with the word's address, and restarts it. -/
theorem pairRestart_of_uncorrectable (hruns : pairRuns w.toBlk k = true) (pc : Nat) (testOk digestOk : Bool) :
    pairRestart k 4 pc testOk digestOk w =
      let w := restartBegin k 4 0 (raise 0x0C3 k (pc % 2 ^ 32 / 8 * 8) w)
      if odGet w.toBlk (0x2510 + k) 4 = 4 then restartEnd k testOk digestOk w else w := by
  simp [pairRestart, hruns]

end Pair

/-! ## The commands -/

theorem pairRestart_wf {k cause pc : Nat} (hk : k < 6) (hleast : 1 ≤ cause) (hmost : cause ≤ 6) (hpc : pc < 2 ^ 64)
    (testOk digestOk : Bool) : Instr.wf (.pairRestart k cause pc testOk digestOk) = true := by
  simp only [Instr.wf, hk, hleast, hmost, hpc, decide_true, Bool.and_true]

/-- Settles O34: each command is the branch that the pair's state leads to. -/
theorem pairCommands : Obligations.PairCommands := by
  intro s k cause pc t ok good hk
  refine ⟨fun hstate hjoined => ?_, fun hruns hk2 heffect hasked => ?_, fun hsplit hk2 heffect => ?_,
    fun hstart hruns => ⟨fun hlate => ?_, ?_⟩, fun hstart => ⟨fun hlate => ?_, fun hstarts => ?_⟩,
    fun hleast hmost hpc hstate hcause hstart => ?_, fun hpc hruns => ?_⟩
  · exact perform_eq_nextOf (decide_eq_true hk) rfl (if_pos ⟨hstate, hjoined⟩)
  · have hwf : Instr.wf (.pairSplit k) = true := by simp [Instr.wf, hk, hk2]
    exact perform_eq_nextOf hwf rfl (pairSplit_of_due (w := workOf s) heffect hruns hasked)
  · have hwf : Instr.wf (.pairRejoin k) = true := by simp [Instr.wf, hk, hk2]
    exact perform_eq_nextOf hwf rfl (pairRejoin_of_split (w := workOf s) heffect hsplit)
  · exact perform_eq_nextOf (decide_eq_true hk) rfl (heartbeatMissed_of_silent (w := workOf s) hstart hruns hlate)
  · exact perform_eq_nextOf (decide_eq_true hk) rfl (pairHeartbeat_of_running (w := workOf s) hstart hruns)
  · exact perform_eq_nextOf (decide_eq_true hk) rfl (heartbeatMissed_of_unstarted (w := workOf s) hstart hlate)
  · exact perform_eq_nextOf (decide_eq_true hk) rfl (pairHeartbeat_of_starting (w := workOf s) hstart hstarts)
  · have hwf := pairRestart_wf hk hleast hmost hpc
    have hbegun := pairRestart_of_restarting (w := workOf s) hstate hcause pc
    exact ⟨perform_eq_nextOf (hwf true true) rfl ((hbegun true true).trans (restartEnd_of_good hstate hstart)),
      perform_eq_nextOf (hwf false good) rfl ((hbegun false good).trans (restartEnd_of_failed hstate hstart (.inl rfl))),
      perform_eq_nextOf (hwf true false) rfl ((hbegun true false).trans (restartEnd_of_failed hstate hstart (.inr rfl)))⟩
  · exact ⟨perform_eq_nextOf (pairRestart_wf hk (by decide) (by decide) hpc ok good) rfl
        (pairRestart_of_trap (w := workOf s) hruns pc ok good),
      perform_eq_nextOf (pairRestart_wf hk (by decide) (by decide) hpc ok good) rfl
        (pairRestart_of_uncorrectable (w := workOf s) hruns pc ok good)⟩

end Sys2Proof.Proofs
end

section
/-! The activation of firmware (13 R341, R342) and the plan of the Garnet starts (R335). -/

namespace Sys2Proof.Proofs

open Sys2Proof.Machine

section Activation

variable {w : Work}

/-! ## The request (13 R341) -/

theorem fwActivate_request (heffect : .activate ∈ w.links.effects) :
    fwActivate true w = fwWanted true (effectTaken .activate w) := by
  simp only [fwActivate, if_true, takeEffect_of_mem heffect]
  rfl

theorem fwActivate_withdrawal (heffect : .deactivate ∈ w.links.effects) :
    fwActivate false w = fwWanted false (effectTaken .deactivate w) := by
  simp only [fwActivate, Bool.false_eq_true, if_false, takeEffect_of_mem heffect]
  rfl

/-! ## The activation (13 R342) -/

/-- The pending image is the active one, and the pairs `ks` are to report. -/
def imageActivated (img : FwImage) (ks : List Nat) (w : Work) : Work :=
  let w := { w with cores.active := some img, cores.pending := none, cores.recorded := fwDigest img.bytes, cores.reporting := ks }
  showImage (odPut 0x2500 1 4 (odPut 0x2500 5 0 (odPut 0x2500 6 blankText w)))

section Begin

variable {img : FwImage} (hpending : w.cores.pending = some img) (hasked : odGet w.toBlk 0x2500 1 = 3)
  (hmay : mayActivate w.toBlk = true)

include hpending hasked hmay

/-- In CONFIG every running pair restarts, and the start-up checks are due again. -/
theorem activationBegin_of_config (hconfig : w.dev.state = .config) :
    activationBegin w =
      let ks := [0, 1, 2, 3, 4, 5].filter (fun k => pairRuns w.toBlk k)
      let w := imageActivated img ks w
      forAll ks (fun k w => restartBegin k 5 0 w) (odPut 0x2300 5 0 { w with dev.checksPassed := false }) := by
  simp [activationBegin, hpending, hasked, hmay, hconfig, imageActivated]

/-- In every other state pair 0 goes on. -/
theorem activationBegin_of_other (hother : w.dev.state ≠ .config) :
    activationBegin w =
      let ks := [1, 2, 3, 4, 5].filter (fun k => pairRuns w.toBlk k)
      forAll ks (fun k w => restartBegin k 5 0 w) (imageActivated img ks w) := by
  simp [activationBegin, hpending, hasked, hmay, hother, imageActivated]

end Begin

section Complete

variable {img : FwImage} (hbegun : odGet w.toBlk 0x2500 1 = 4) (hreported : w.cores.reporting = [])
  (hactive : w.cores.active = some img)

include hbegun hreported hactive

/-- Once all have reported the image shows as active; the checks follow where they have not run since pair 0's restart. -/
theorem activationComplete_of_reported :
    activationComplete w =
      doIf (w.dev.state == .config && odGet w.toBlk 0x2300 5 == 0) (odPut 0x2300 5 1)
        (odPut 0x2500 3 (fwVersion img.bytes) (odPut 0x2500 1 1 w)) := by
  have hdone : ¬ (odGet w.toBlk 0x2500 1 ≠ 4 ∨ w.cores.reporting ≠ []) := by simp [hbegun, hreported]
  have hchecks : odGet (odPut 0x2500 3 (fwVersion img.bytes) (odPut 0x2500 1 1 w)).toBlk 0x2300 5 = odGet w.toBlk 0x2300 5 := by
    rw [Laws.odGet_odPut_ne _ _ _ _ _ _ (by decide), Laws.odGet_odPut_ne _ _ _ _ _ _ (by decide)]
  simp only [activationComplete, if_neg hdone, Laws.odPut_cores, hactive, hchecks, Laws.odPut_dev]

theorem activationComplete_of_other (hother : w.dev.state ≠ .config) :
    activationComplete w = odPut 0x2500 3 (fwVersion img.bytes) (odPut 0x2500 1 1 w) := by
  have hstate : (w.dev.state == .config) = false := beq_false_of_ne hother
  rw [activationComplete_of_reported hbegun hreported hactive, hstate, Bool.false_and, Laws.doIf_false]

theorem activationComplete_of_restarted (hconfig : w.dev.state = .config) (hdue : odGet w.toBlk 0x2300 5 = 0) :
    activationComplete w = odPut 0x2300 5 1 (odPut 0x2500 3 (fwVersion img.bytes) (odPut 0x2500 1 1 w)) := by
  rw [activationComplete_of_reported hbegun hreported hactive, hconfig, hdue]
  rfl

end Complete

/-! ## The plan of the Garnet starts (13 R335) -/

theorem garnetPlan_of_open {half : Nat} {starts : List (Nat × Nat)} (hruns : pairRuns w.toBlk 2 = true)
    (hopen : w.time.beat < 4096 * (half + 1)) :
    garnetPlan half starts w =
      let old := w.sched.plan.filter (fun p => decide (w.time.beat ≤ p.1 + 64))
      { w with sched.plan := (starts.filter (fun p => p.1 / 4096 == half)).foldl (fun t p => tabSet 0 t p.1 p.2) old,
               sched.planEnd := max w.sched.planEnd (4096 * (half + 1)) } :=
  if_neg (by simp [hruns, hopen])

/-- Where the plan ends without pair 2 the fault is reported, and the escalation that it asks for names it unless the report
has asked for one of its own. -/
theorem planExhausted_of_ended (hactive : activeState w.toBlk = true) (habsent : pairRuns w.toBlk 2 = false)
    (hended : w.sched.planEnd ≤ w.time.beat) (hquiet : w.dev.escalate = none) :
    ∃ source : Nat, planExhausted w =
      { raise 0x0E1 0 0 w with dev := { (raise 0x0E1 0 0 w).dev with escalate := some source } } := by
  have hreported : planExhausted w =
      if (raise 0x0E1 0 0 w).dev.escalate = none then { raise 0x0E1 0 0 w with dev.escalate := some 0x0E1 }
      else raise 0x0E1 0 0 w := if_pos ⟨hactive, habsent, hended, hquiet⟩
  cases hasked : (raise 0x0E1 0 0 w).dev.escalate with
  | none => exact ⟨0x0E1, hreported.trans (if_pos hasked)⟩
  | some source =>
    refine ⟨source, hreported.trans ((if_neg (by simp [hasked])).trans ?_)⟩
    rw [← hasked]

end Activation

/-! ## The commands -/

/-- Settles O36: each command is the branch that its conditions lead to. -/
theorem activationCommands : Obligations.ActivationCommands := by
  intro s half starts img
  refine ⟨fun heffect => ?_, fun heffect => ?_, fun hpending hasked hmay hconfig => ?_, fun hpending hasked hmay hother => ?_,
    fun hbegun hreported hactive => ⟨fun hother => ?_, fun hconfig hdue => ?_⟩, fun hwf hruns hopen => ?_,
    fun hactive habsent hended hquiet => ?_⟩
  · exact perform_eq_nextOf rfl rfl (fwActivate_request (w := workOf s) heffect)
  · exact perform_eq_nextOf rfl rfl (fwActivate_withdrawal (w := workOf s) heffect)
  · exact perform_eq_nextOf rfl rfl (activationBegin_of_config (w := workOf s) hpending hasked hmay hconfig)
  · exact perform_eq_nextOf rfl rfl (activationBegin_of_other (w := workOf s) hpending hasked hmay hother)
  · exact perform_eq_nextOf rfl rfl (activationComplete_of_other (w := workOf s) hbegun hreported hactive hother)
  · exact perform_eq_nextOf rfl rfl (activationComplete_of_restarted (w := workOf s) hbegun hreported hactive hconfig hdue)
  · exact perform_eq_nextOf hwf rfl (garnetPlan_of_open (w := workOf s) hruns hopen)
  · obtain ⟨source, hescalated⟩ := planExhausted_of_ended (w := workOf s) hactive habsent hended hquiet
    refine (completes_iff_of_nextOf (f := planExhausted) rfl _).2 ?_
    rw [hescalated]
    exact ⟨rfl, Laws.raise_dev_state .., Laws.raise_time .., congrArg (memPutAll s.mem) (Laws.raise_wr ..),
      Laws.raise_engines ..⟩

end Sys2Proof.Proofs
end

section
/-! What a read takes away (13 R347, 16 R414, R415), and the drain of the log ring. -/

namespace Sys2Proof.Proofs

open Sys2Proof.Machine

/-- A frame whose read is allowed answers the value of its object and takes what the read pops. -/
theorem perform_odReadFrame_of_served {hd : Hdr} {idx sub : Nat} {s : State} (hidx : idx < 65536) (hsub : sub < 256)
    (hframe : FrameServed hd 0x10 (objHead idx sub) (objHead idx sub) s)
    (hallowed : readCheck (served hd 0x10 (workOf s)).toBlk idx sub = 0) :
    perform hd.wf true (odReadFrame hd (objHead idx sub)) s = nextOf s (fun w =>
      let v := served hd 0x10 w
      answer hd.link hd.tag 0x11 0 (objHead idx sub ++ leBytes 4 0 ++ leBytes (odBytes idx sub) (odRead v.toBlk hd.link idx sub))
        (odPop idx sub v)) :=
  perform_crino_of_served hframe.1 hframe (odReadMsg_of_allowed hidx hsub hallowed)

/-- Settles O33: each of the three reads answers the value that its object shows and takes what the object pops. -/
theorem popCommands : Obligations.PopCommands := by
  intro s hd n
  refine ⟨fun hframe hallowed => ?_, fun hframe hallowed => ?_, fun hframe hallowed => ?_, fun hleast hmost hdrains hup => ?_⟩
  · exact perform_odReadFrame_of_served (by decide) (by decide) hframe hallowed
  · exact perform_odReadFrame_of_served (by decide) (by decide) hframe hallowed
  · exact perform_odReadFrame_of_served (by decide) (by decide) hframe hallowed
  · have hwf : Instr.wf (.logDrainTransfer n) = true := Bool.and_eq_true_iff.2 ⟨decide_eq_true hleast, decide_eq_true hmost⟩
    exact perform_eq_nextOf hwf rfl (if_pos ⟨hdrains, hup⟩)

end Sys2Proof.Proofs
end

section
/-! The debugger (13 R339). -/

namespace Sys2Proof.Proofs

open Sys2Proof.Machine

section Debug

variable {k : Nat} {w : Work}

/-! ## With the debug lock fused -/

section Locked

variable (hlock : w.fuses.debugLock = true)

include hlock

theorem debuggerConnect_of_locked : debuggerConnect w = w := if_pos hlock

theorem debugHalt_of_locked : debugHalt k w = w := if_pos (.inl hlock)

theorem debugAccess_of_locked (write : Bool) : debugAccess k write w = w := if_pos (.inl hlock)

end Locked

/-! ## Without it -/

section Unlocked

variable (hlock : w.fuses.debugLock = false)

include hlock

theorem debuggerConnect_of_unlocked : debuggerConnect w = odPut 0x2530 4 1 w := if_neg (Bool.eq_false_iff.1 hlock)

theorem debugHalt_of_running (hruns : pairRuns w.toBlk k = true) :
    debugHalt k w = pairAbsent k (raise 0x0C5 k 0 (odAdd (0x2510 + k) 7 1 (pairPut k 1 4 w))) :=
  if_neg (by simp [hlock, hruns])

/-- A read of a halted pair gives a free value (log 48). -/
theorem debugAccess_read (hhalted : pairState w.toBlk k = 4) :
    debugAccess k false w = send (.debug k (Config.freeValue w.free % 2 ^ 64)) { w with free := w.free + 1 } :=
  if_neg (by simp [hlock, hhalted])

end Unlocked

theorem debugAccess_write : debugAccess k true w = w := if_pos (.inr (.inr rfl))

theorem debugResume_of_halted (hhalted : pairState w.toBlk k = 4) :
    debugResume k w =
      modPair k (fun p => { p with last := w.time.beat }) (pairPut k 1 (if (pairOf w.toBlk k).split then 2 else 1) w) :=
  if_pos hhalted

end Debug

/-- Settles O35: the debug lock and the pair's state decide what each command does. -/
theorem debugCommands : Obligations.DebugCommands := by
  intro s k write hk
  refine ⟨fun hlock => ⟨?_, fun hruns => ?_, fun hhalted => ⟨?_, ?_, ?_⟩⟩, fun hlock => ⟨?_, ?_, ?_⟩⟩
  · exact perform_eq_nextOf rfl rfl (debuggerConnect_of_unlocked (w := workOf s) hlock)
  · exact perform_eq_nextOf (decide_eq_true hk) rfl (debugHalt_of_running (w := workOf s) hlock hruns)
  · exact perform_eq_nextOf (decide_eq_true hk) rfl (debugAccess_read (w := workOf s) hlock hhalted)
  · exact perform_eq_nextOf (decide_eq_true hk) rfl debugAccess_write
  · exact perform_eq_nextOf (decide_eq_true hk) rfl (debugResume_of_halted (w := workOf s) hhalted)
  · exact perform_eq_nextOf rfl rfl (debuggerConnect_of_locked (w := workOf s) hlock)
  · exact perform_eq_nextOf (decide_eq_true hk) rfl (debugHalt_of_locked (w := workOf s) hlock)
  · exact perform_eq_nextOf (decide_eq_true hk) rfl (debugAccess_of_locked (w := workOf s) hlock write)

end Sys2Proof.Proofs
end

section
/-! The queue of commands and its words (log 16), and the block at power-up (18 R469). -/

namespace Sys2Proof.Proofs

open Sys2Proof.Machine

/-- Settles O45: the queue of the state that `exec` is given is the queue's rest, by the definition of a step. -/
theorem stepRunsFront : Obligations.StepRunsFront := fun _ _ _ => rfl

theorem step_of_idle {s : State} (hidle : s.pending = []) : step s = .next s := by rw [step, hidle]

/-- Settles O46: the idle block and the words that spell nothing are the model's own conventions (log 16). -/
theorem idleAndWords : Obligations.IdleAndWords := fun _ _ _ => ⟨step_of_idle, rfl, rfl⟩

/-- Settles O49: a memory that lists nothing has nothing out of order. -/
theorem resetMeetsInvariant : Obligations.ResetMeetsInvariant :=
  ⟨(Laws.memory_wf_iff _).2 (by rw [Laws.reset_mem]; exact ⟨.nil, by simp⟩), rfl⟩

end Sys2Proof.Proofs
end

section
/-! The test access port (18 R464, R468). That EXTEST needs REFCLK to run is the model's own choice (logs 92, 103). -/

namespace Sys2Proof.Proofs

open Sys2Proof.Machine

/-- The first capture of a command is all that it sends. -/
theorem captureScan_of_silent {x : Nat} {w : Work} (hout : w.out = []) :
    captureScan x w = { w with tap.captured := captureCells w.toBlk x, out := [.jtag (captureCells w.toBlk x)] } := by
  simp only [captureScan, send, hout, List.nil_append]

theorem jtagExtest_of_held {x : Nat} {w : Work} (hporst : w.dev.state = .porst) (hclock : w.dev.noRefclk = false) :
    jtagExtest x w = captureScan x { w with tap.ir := 3 } := if_pos ⟨hporst, hclock⟩

theorem jtagExtest_of_other {x : Nat} {w : Work} (hother : w.dev.state ≠ .porst ∨ w.dev.noRefclk = true) :
    jtagExtest x w = jtagBypass w := by
  refine if_neg fun ⟨hporst, hclock⟩ => ?_
  rcases hother with hstate | hstopped
  · exact hstate hporst
  · rw [hclock] at hstopped
    exact Bool.noConfusion hstopped

/-- Settles O44: what the port captures is taken under the instruction that it has just loaded. -/
theorem testPortCommands : Obligations.TestPortCommands := by
  intro s x hx
  have hwf : decide (x < 2 ^ 88) = true := decide_eq_true hx
  refine ⟨rfl, rfl, ?_, ?_, fun hporst hclock => ?_, fun hother => ?_⟩
  · exact perform_eq_nextOf hwf rfl (captureScan_of_silent (w := { workOf s with tap.ir := 1 }) rfl)
  · refine perform_eq_nextOf hwf rfl ?_
    rw [jtagPreload, Nat.mod_eq_of_lt hx]
  · exact perform_eq_nextOf hwf rfl ((jtagExtest_of_held (w := workOf s) hporst hclock).trans
      (captureScan_of_silent (w := { workOf s with tap.ir := 3 }) rfl))
  · exact perform_eq_nextOf hwf rfl (jtagExtest_of_other (w := workOf s) hother)

end Sys2Proof.Proofs
end

section
/-! What the test port and the returns of slots leave alone (04 R82, R96, 18 R468): what an operation keeps is stated of the
block with the parts that it may change taken out. -/

namespace Sys2Proof.Proofs

open Sys2Proof.Machine

/-! ## The test port -/

/-- A command's work but for the port's registers and the outputs. -/
def besidePort (w : Work) : Work := { w with tap := Blk.reset.tap, out := [] }

theorem besidePort_captureScan (x : Nat) (w : Work) : besidePort (captureScan x w) = besidePort w := rfl

theorem besidePort_jtagExtest (x : Nat) (w : Work) : besidePort (jtagExtest x w) = besidePort w := by
  rw [jtagExtest]
  split <;> rfl

/-- A command whose work stays beside the port changes the port and the outputs alone. -/
theorem frame_of_besidePort {ok there : Bool} {f : Work → Work} {s t : State} (hnext : perform ok there f s = .next t)
    (hkeeps : ∀ w, besidePort (f w) = besidePort w) :
    t.mem = s.mem ∧ t.blk = { s.blk with tap := t.blk.tap, out := t.blk.out } := by
  obtain ⟨-, -, rfl⟩ := Laws.perform_cases hnext
  have hbeside := hkeeps (workOf s)
  have hwr : (f (workOf s)).wr = [] := congrArg Work.wr hbeside
  refine ⟨by rw [Laws.commitWork_mem, hwr, memPutAll], ?_⟩
  exact congrArg (fun w : Work => { w.toBlk with tap := (f (workOf s)).tap, out := (f (workOf s)).out }) hbeside

/-! ## The slots that go on -/

/-- A command's work but for the engines and the synchronisation objects. -/
def besideSlots (w : Work) : Work := { w with engines := [], syncs := [] }

theorem besideSlots_modSlot (e k : Nat) (f : Slot → Slot) (w : Work) : besideSlots (modSlot e k f w) = besideSlots w := rfl

theorem besideSlots_waitReturn (e n : Nat) (w : Work) : besideSlots (waitReturn e n w) = besideSlots w := by
  simp only [waitReturn]
  repeat' split
  all_goals rfl

theorem besideSlots_fenceReturn (e n : Nat) (w : Work) : besideSlots (fenceReturn e n w) = besideSlots w := by
  simp only [fenceReturn]
  repeat' split
  all_goals rfl

theorem besideSlots_wakeWaiter (x : Waiter) (w : Work) : besideSlots (wakeWaiter x w) = besideSlots w := by
  rw [wakeWaiter]
  split
  · rfl
  · exact besideSlots_modSlot _ _ _ w

theorem besideSlots_barrierRelease (o : Nat) (w : Work) : besideSlots (barrierRelease o w) = besideSlots w := by
  rw [barrierRelease]
  split
  · rfl
  · exact Laws.forAll_keeps besideSlots wakeWaiter besideSlots_wakeWaiter _ _

/-- A command whose work stays beside the slots changes the engines and the synchronisation objects alone, and sends nothing. -/
theorem frame_of_besideSlots {ok there : Bool} {f : Work → Work} {s t : State} (hnext : perform ok there f s = .next t)
    (hkeeps : ∀ w, besideSlots (f w) = besideSlots w) :
    t.mem = s.mem ∧ t.blk = { s.blk with engines := t.blk.engines, syncs := t.blk.syncs, out := [] } := by
  obtain ⟨-, -, rfl⟩ := Laws.perform_cases hnext
  have hbeside := hkeeps (workOf s)
  have hwr : (f (workOf s)).wr = [] := congrArg Work.wr hbeside
  refine ⟨by rw [Laws.commitWork_mem, hwr, memPutAll], ?_⟩
  exact congrArg (fun w : Work => { w.toBlk with engines := (f (workOf s)).engines, syncs := (f (workOf s)).syncs }) hbeside

/-- Settles O60. -/
theorem portAndSlotFrames : Obligations.PortAndSlotFrames := by
  intro c s t x e n o hnext
  refine ⟨fun hport => ?_, fun hslot => ?_⟩
  · simp only [List.mem_cons, List.not_mem_nil, or_false] at hport
    rcases hport with rfl | rfl | rfl | rfl | rfl
    · exact frame_of_besidePort (ok := true) (there := true) (f := jtagReset) hnext (fun _ => rfl)
    · exact frame_of_besidePort (ok := true) (there := true) (f := jtagBypass) hnext (fun _ => rfl)
    · exact frame_of_besidePort hnext (fun w => besidePort_captureScan x { w with tap.ir := 1 })
    · exact frame_of_besidePort hnext (fun _ => rfl)
    · exact frame_of_besidePort hnext (besidePort_jtagExtest x)
  · simp only [List.mem_cons, List.not_mem_nil, or_false] at hslot
    rcases hslot with rfl | rfl | rfl
    · exact frame_of_besideSlots hnext (besideSlots_waitReturn e n)
    · exact frame_of_besideSlots hnext (besideSlots_fenceReturn e n)
    · exact frame_of_besideSlots hnext (besideSlots_barrierRelease o)

end Sys2Proof.Proofs
end

section
/-! Bit fields of a number (00 R7): what a field reads once it, or another one, has been set; and the entries of EVENT_COUNTS. -/

namespace Sys2Proof.Proofs

open Sys2Proof.Machine

theorem testBit_fld (n hi lo i : Nat) : (fld n hi lo).testBit i = (decide (i < hi + 1 - lo) && n.testBit (i + lo)) := by
  rw [fld, Nat.testBit_mod_two_pow, Nat.testBit_div_two_pow]

/-- A field that is set takes its bits from the value, and every other bit stands. -/
theorem testBit_setFld {hi lo : Nat} (hrange : lo ≤ hi + 1) (n v i : Nat) :
    (setFld n hi lo v).testBit i = if i < lo ∨ hi < i then n.testBit i else v.testBit (i - lo) := by
  have hsplit : setFld n hi lo v =
      2 ^ lo * (2 ^ (hi + 1 - lo) * (n / 2 ^ (hi + 1)) + v % 2 ^ (hi + 1 - lo)) + n % 2 ^ lo := by
    have hpow : 2 ^ (hi + 1) = 2 ^ lo * 2 ^ (hi + 1 - lo) := by rw [← Nat.pow_add, Nat.add_sub_of_le hrange]
    rw [setFld, hpow, Nat.mul_add, ← Nat.mul_assoc (2 ^ lo), Nat.mul_comm (n / _), Nat.mul_comm (v % _)]
  have hlow : n % 2 ^ lo < 2 ^ lo := Nat.mod_lt _ (Nat.two_pow_pos _)
  have hmid : v % 2 ^ (hi + 1 - lo) < 2 ^ (hi + 1 - lo) := Nat.mod_lt _ (Nat.two_pow_pos _)
  rw [hsplit, Nat.testBit_two_pow_mul_add _ hlow, Nat.testBit_two_pow_mul_add _ hmid, Nat.testBit_mod_two_pow,
    Nat.testBit_mod_two_pow, Nat.testBit_div_two_pow]
  by_cases hbelow : i < lo
  · simp [hbelow]
  · by_cases habove : hi < i
    · have hsub : ¬ i - lo < hi + 1 - lo := by omega
      have hback : i - lo - (hi + 1 - lo) + (hi + 1) = i := by omega
      simp [hbelow, habove, hsub, hback]
    · have hsub : i - lo < hi + 1 - lo := by omega
      simp [hbelow, habove, hsub]

theorem fld_setFld_self {hi lo : Nat} (hrange : lo ≤ hi + 1) (n v : Nat) :
    fld (setFld n hi lo v) hi lo = v % 2 ^ (hi + 1 - lo) := by
  refine Nat.eq_of_testBit_eq fun i => ?_
  rw [testBit_fld, testBit_setFld hrange, Nat.testBit_mod_two_pow]
  by_cases hi' : i < hi + 1 - lo
  · rw [if_neg (by omega), Nat.add_sub_cancel]
  · simp [hi']

/-- Setting a field leaves one apart from it as it was. -/
theorem fld_setFld_of_apart {hi lo hi' lo' : Nat} (hrange : lo ≤ hi + 1) (hapart : hi' < lo ∨ hi < lo') (n v : Nat) :
    fld (setFld n hi lo v) hi' lo' = fld n hi' lo' := by
  refine Nat.eq_of_testBit_eq fun i => ?_
  rw [testBit_fld, testBit_fld, testBit_setFld hrange]
  by_cases hin : i < hi' + 1 - lo'
  · rw [if_pos (by omega)]
  · simp [hin]

/-- A field within the bits that are kept reads as before. -/
theorem fld_mod_of_le {hi lo k : Nat} (hkept : hi + 1 ≤ k) (n : Nat) : fld (n % 2 ^ k) hi lo = fld n hi lo := by
  refine Nat.eq_of_testBit_eq fun i => ?_
  rw [testBit_fld, testBit_fld, Nat.testBit_mod_two_pow]
  by_cases hin : i < hi + 1 - lo
  · simp [show i + lo < k by omega]
  · simp [hin]

theorem fld_lt (n hi lo : Nat) : fld n hi lo < 2 ^ (hi + 1 - lo) := Nat.mod_lt _ (Nat.two_pow_pos _)

/-! ## EVENT_COUNTS (16 R413) -/

/-- The entry of a source in EVENT_COUNTS. -/
def eventEntry (b : Blk) (x : Nat) : Nat := fld (odGet b 0x2401 5) (32 * x + 31) (32 * x)

/-- An event counts in the entry of its source, which saturates, and in no other one. -/
theorem eventEntry_countEvent (source : Nat) (w : Work) {x : Nat} (hx : x < 512) :
    eventEntry (countEvent source w).toBlk x =
      if x = source then satAdd 32 (eventEntry w.toBlk x) 1 else eventEntry w.toBlk x := by
  have hbytes : odBytes 0x2401 5 = 2048 := rfl
  rw [eventEntry, countEvent, Laws.odGet_odPut_self, hbytes, fld_mod_of_le (by omega)]
  split
  · next hself =>
    subst hself
    rw [fld_setFld_self (by omega), show 32 * x + 31 + 1 - 32 * x = 32 by omega, eventEntry]
    exact Nat.mod_eq_of_lt (by unfold satAdd; omega)
  · exact fld_setFld_of_apart (by omega) (by omega) _ _

theorem odGet_countEvent_ne {i j : Nat} (source : Nat) (w : Work) (hother : odKey i j ≠ odKey 0x2401 5) :
    odGet (countEvent source w).toBlk i j = odGet w.toBlk i j :=
  Laws.odGet_odPut_ne _ _ _ _ _ w hother

end Sys2Proof.Proofs
end

section
/-! Kinds and severities of faults (16 R408, R409, R414). -/

namespace Sys2Proof.Proofs

open Sys2Proof.Machine

/-! ## FAULT_MESSAGE by the kind of its message (16 R408) -/

section Message

variable {msg master access : Nat} {w : Work}

/-- A reserved kind, another version or a reserved source: the message is counted as lost (the last two are log 50). -/
theorem faultMessage_of_reserved (hreserved : 7 < fld msg 50 47 ∨ fld msg 63 60 ≠ 1 ∨ faultListed (fld msg 59 51) = false)
    (full : Bool) : faultMessage msg master access full w = odAdd 0x2400 5 1 w := if_pos hreserved

section Listed

variable (hversion : fld msg 63 60 = 1) (hlisted : faultListed (fld msg 59 51) = true)

include hversion hlisted

/-- A message of a unit is collected, with what other chapters tie to it; one that finds the queue full is not classified. -/
theorem faultMessage_of_unit (hkind : fld msg 50 47 < 7) (full : Bool) :
    faultMessage msg master access full w =
      faultReact (fld msg 59 51) (fld msg 44 32) (fld msg 31 0) master access
        (!full && wouldLast w.toBlk (fld msg 59 51) (fld msg 44 32))
        (if full then collectLost msg w else collect msg master access w) := by
  have hsound : ¬ (7 < fld msg 50 47 ∨ fld msg 63 60 ≠ 1 ∨ faultListed (fld msg 59 51) = false) := by
    simp only [hversion, hlisted, not_or]
    exact ⟨by omega, by simp, by simp⟩
  exact (if_neg hsound).trans (if_neg (Nat.ne_of_lt hkind))

/-- A test message has no reaction beyond the collector's. -/
theorem faultMessage_of_test (hkind : fld msg 50 47 = 7) (full : Bool) :
    faultMessage msg master access full w = if full then collectLost msg w else collect msg master access w := by
  have hsound : ¬ (7 < fld msg 50 47 ∨ fld msg 63 60 ≠ 1 ∨ faultListed (fld msg 59 51) = false) := by
    simp only [hversion, hlisted, not_or]
    exact ⟨by omega, by simp, by simp⟩
  exact (if_neg hsound).trans (if_pos hkind)

end Listed

/-- The collector only counts a test message. -/
theorem collect_of_test (hkind : fld msg 50 47 = 7) : collect msg master access w = countEvent (fld msg 59 51) w := by
  have hno : decide (fld msg 50 47 < 7) = false := decide_eq_false (by omega)
  rw [collect, hno, Laws.doIf_false, collectOne, if_neg (by omega), if_pos hkind]

theorem faultMessage_wf (hmsg : msg < 2 ^ 64) (hmaster : master < 2 ^ 16) (haccess : access < 2 ^ 64) (full : Bool) :
    Instr.wf (.faultMessage msg master access full) = true := by
  simp only [Instr.wf, Bool.and_eq_true, decide_eq_true_eq]
  exact ⟨⟨hmsg, hmaster⟩, haccess⟩

end Message

/-- Settles O56: a count in the object dictionary is the whole effect of both kinds. -/
theorem reservedAndTestKinds : Obligations.ReservedAndTestKinds := by
  intro s msg master access hmsg hmaster haccess
  have hwf := faultMessage_wf hmsg hmaster haccess
  refine ⟨fun hkind full => ?_, fun hkind hversion hlisted => ?_⟩
  · have hexec : exec (.faultMessage msg master access full) s = nextOf s (odAdd 0x2400 5 1) :=
      perform_eq_nextOf (hwf full) rfl (faultMessage_of_reserved (.inl hkind) full)
    refine (completes_iff_of_nextOf hexec _).2 ⟨rfl, ?_, fun i j hother => ?_⟩
    · exact Laws.odGet_odAdd_self 0x2400 5 1 (workOf s)
    · exact Laws.odGet_odAdd_ne 0x2400 5 1 i j (workOf s) hother
  · have hexec : exec (.faultMessage msg master access false) s = nextOf s (countEvent (fld msg 59 51)) :=
      perform_eq_nextOf (hwf false) rfl
        ((faultMessage_of_test hversion hlisted hkind false).trans (collect_of_test hkind))
    refine (completes_iff_of_nextOf hexec _).2 ⟨rfl, fun x hx => ?_, fun i j hother => ?_⟩
    · exact eventEntry_countEvent (fld msg 59 51) (workOf s) hx
    · exact odGet_countEvent_ne _ (workOf s) hother

/-! ## Severities (16 R409, R414) -/

theorem le_foldl_max (t : Tab Nat) (m : Nat) : m ≤ t.foldl (fun m p => max m p.2) m := by
  induction t generalizing m with
  | nil => exact Nat.le_refl m
  | cons p t ih => exact Nat.le_trans (Nat.le_max_left m p.2) (ih _)

/-- No latch holds more than the highest one. -/
theorem tabGet_le_foldl_max (t : Tab Nat) (k m : Nat) : tabGet 0 t k ≤ t.foldl (fun m p => max m p.2) m := by
  induction t generalizing m with
  | nil => exact Nat.zero_le _
  | cons p t ih =>
    by_cases hk : p.1 = k
    · have hhead : tabGet 0 (p :: t) k = p.2 := by simp [tabGet, tabFind, hk]
      rw [hhead]
      exact Nat.le_trans (Nat.le_max_right m p.2) (le_foldl_max t _)
    · have htail : tabGet 0 (p :: t) k = tabGet 0 t k := by simp [tabGet, tabFind, hk]
      rw [htail]
      exact ih _

section Severity

variable (source msg sev : Nat) (w : Work)

theorem applySeverity_zero : applySeverity source msg 0 w = w := by simp [applySeverity]

theorem latches_applySeverity : (applySeverity source msg sev w).coll.latches =
    if sev = 0 then w.coll.latches
    else tabSet 0 w.coll.latches source (max (tabGet 0 w.coll.latches source) sev) := by
  simp only [applySeverity]
  repeat' split
  all_goals rfl

theorem tabGet_latches_applySeverity (x : Nat) : tabGet 0 (applySeverity source msg sev w).coll.latches x =
    if x = source then max (tabGet 0 w.coll.latches x) sev else tabGet 0 w.coll.latches x := by
  rw [latches_applySeverity]
  split
  · next hzero => simp [hzero]
  · rw [tabGet_tabSet]
    split
    · next hself => rw [hself]
    · rfl

theorem le_highestLatched_applySeverity : sev ≤ highestLatched (applySeverity source msg sev w).toBlk := by
  refine Nat.le_trans ?_ (tabGet_le_foldl_max (applySeverity source msg sev w).coll.latches source 0)
  rw [tabGet_latches_applySeverity, if_pos rfl]
  exact Nat.le_max_right _ _

end Severity

/-- A latched severity of 3 or more is among the causes that hold SAFE_OK (15 R400). -/
theorem safeCause_ne_zero_of_latched {b : Blk} (hstop : 3 ≤ highestLatched b) : safeCause b ≠ 0 := by
  have hfalse : decide (highestLatched b < 3) = false := decide_eq_false (by omega)
  simp only [safeCause, hfalse, show List.range 7 = [0, 1, 2, 3, 4, 5, 6] from rfl, List.foldl_cons, List.foldl_nil, nth,
    List.getElem?_cons_succ, List.getElem?_cons_zero, Option.getD_some, Bool.false_eq_true, if_false]
  omega

/-- While a cause stands, SAFE_OK is low. -/
theorem safeOkStep_low_of_latched (readback : Bool) {w : Work} (hstop : 3 ≤ highestLatched w.toBlk) :
    (safeOkStep readback w).safe.high = false := by
  have hcause : safeCause (Work.toBlk { w with safe.readback := readback, safe.guardRun := if guardRuns w.toBlk then w.safe.guardRun + 1 else 0 }) ≠ 0 :=
    safeCause_ne_zero_of_latched hstop
  exact congrArg (fun u : Work => u.safe.high) (if_pos hcause : safeOkStep readback w = _)

/-- RESET asks for the compute-part reset where one can begin. -/
theorem applySeverity_asks_reset {source msg : Nat} {w : Work}
    (hstate : w.dev.state = .config ∨ w.dev.state = .run ∨ w.dev.state = .adapt ∨ w.dev.state = .squall)
    (hno : resetting w.toBlk = false) (hnone : w.coll.resetBy = none) :
    (applySeverity source msg 4 w).coll.resetBy = some msg := by
  have hidle : (w.dev.state == .boot || w.dev.state == .lull || w.dev.state == .porst || w.dev.state == .safe) = false := by
    rcases hstate with h | h | h | h <;> rw [h] <;> rfl
  simp only [resetting, odGet] at hno
  simp [applySeverity, hidle, hnone, resetting, odGet, hno]

/-- ESCALATE asks for the escalation. -/
theorem applySeverity_escalates {source msg : Nat} {w : Work} (hsafe : w.dev.state ≠ .safe) (hnone : w.dev.escalate = none) :
    (applySeverity source msg 5 w).dev.escalate = some source := by
  simp [applySeverity, hsafe, hnone]

/-- Settles O57. -/
theorem severityReactions : Obligations.SeverityReactions := by
  intro w source msg sev u
  have hleast : sev ≤ highestLatched u.toBlk := le_highestLatched_applySeverity source msg sev w
  refine ⟨fun hzero => ?_, fun _ => ?_, fun x hx => ?_, fun hnotify => ?_, fun hstop => ?_, fun hreset hstate hno hnone => ?_,
    fun hescalate hsafe hnone => ?_⟩
  · subst hzero
    exact applySeverity_zero source msg w
  · exact (tabGet_latches_applySeverity source msg sev w source).trans (if_pos rfl)
  · exact (tabGet_latches_applySeverity source msg sev w x).trans (if_neg hx)
  · simp [faultLow, show 2 ≤ highestLatched u.toBlk by omega]
  · have hthree : 3 ≤ highestLatched u.toBlk := Nat.le_trans hstop hleast
    exact ⟨safeCause_ne_zero_of_latched hthree, fun readback => safeOkStep_low_of_latched readback hthree⟩
  · subst hreset
    exact applySeverity_asks_reset hstate hno hnone
  · subst hescalate
    exact applySeverity_escalates hsafe hnone

end Sys2Proof.Proofs
end

section
/-! Faults that reach the collector, unacknowledged stops and slots that stand still (16 R408, R413, R416, R417). What a lost
message still brings is the model's own choice: logs 50, 110 and 169. -/

namespace Sys2Proof.Proofs

open Sys2Proof.Machine

theorem stopAckTimeout_of_late {e n units : Nat} {w : Work} (hwaits : (sliceOf w.toBlk n).unacked.contains e = true)
    (hlate : (sliceOf w.toBlk n).stopped.getD (sliceOf w.toBlk n).rel < w.time.beat) :
    stopAckTimeout e n units w =
      raise 0x01D e units (odAdd 0x2420 5 1
        (doIf ((sliceOf w.toBlk n).stopped.isNone && (sliceOf w.toBlk n).live) (stopSlice n true)
          (modSlice n (fun x => { x with unacked := x.unacked.filter (· != e) }) w))) :=
  if_pos (Bool.and_eq_true_iff.2 ⟨hwaits, decide_eq_true hlate⟩)

theorem progressStalled_of_still {e n k : Nat} {w : Work} (hslot : slotIx w.toBlk e n = some k)
    (hstill : (slotOf (engineOf w.toBlk e) k).progress + odGet w.toBlk 0x2420 1 ≤ w.time.beat) :
    progressStalled e n w =
      modSlice n (fun x => { x with unacked := (ctxEngines (odAdd 0x2420 4 1 w).toBlk n).map (·.1) })
        (stopSlice n true (raise 0x01C e n (odAdd 0x2420 4 1 w))) := by
  simp only [progressStalled, hslot, if_neg (Nat.not_lt.2 hstill)]

/-- Settles O39: the message's kind, version and source decide whether the collector takes it, and its queue how. -/
theorem faultCommands : Obligations.FaultCommands := by
  intro s msg master access e n units k hmsg hmaster haccess he hn
  have hwf := faultMessage_wf hmsg hmaster haccess
  refine ⟨fun hkind hversion hlisted => ⟨?_, ?_⟩, fun hkind hversion hlisted => ⟨?_, ?_⟩, fun hreserved full => ?_,
    fun hunits hthere hwaits hlate => ?_, fun hthere hslot hstill => ?_⟩
  · exact perform_eq_nextOf (hwf false) rfl (faultMessage_of_unit (w := workOf s) hversion hlisted hkind false)
  · exact perform_eq_nextOf (hwf true) rfl (faultMessage_of_unit (w := workOf s) hversion hlisted hkind true)
  · exact perform_eq_nextOf (hwf false) rfl (faultMessage_of_test hversion hlisted hkind false)
  · exact perform_eq_nextOf (hwf true) rfl (faultMessage_of_test hversion hlisted hkind true)
  · exact perform_eq_nextOf (hwf full) rfl (faultMessage_of_reserved hreserved full)
  · have hok : (decide (e < 256) && decide (n < 1024) && decide (units < 2 ^ 32)) = true :=
      Bool.and_eq_true_iff.2 ⟨by simp [he, hn], decide_eq_true hunits⟩
    exact perform_eq_nextOf hok (decide_eq_true hthere) (stopAckTimeout_of_late (w := workOf s) hwaits hlate)
  · have hok : (decide (e < 256) && decide (n < 1024)) = true := by simp [he, hn]
    exact perform_eq_nextOf hok (decide_eq_true hthere) (progressStalled_of_still (w := workOf s) hslot hstill)

end Sys2Proof.Proofs
end

section
/-! The compute-part reset (16 R420 to R423). That the engines stand until the dump, and when a reset is counted, are the model's
own choices (logs 88, 89), as are the free values that the dump takes for cycles no rule gives (log 51). -/

namespace Sys2Proof.Proofs

open Sys2Proof.Machine

/-! ## Step 1 (16 R420) -/

theorem resetBegin_of_due {msg : Nat} {w : Work} (hcause : w.coll.resetBy = some msg) (hno : resetting w.toBlk = false)
    (hstate : w.dev.state = .config ∨ activeState w.toBlk = true) :
    resetBegin w =
      let now := w.time.beat
      let live := (w.slices.filter (fun p => p.2.live && p.2.doneAt.isNone && p.2.stopped.isNone)).map (·.1)
      let w := forAll live (fun n w =>
        modSlice n (fun x => { x with withheld := true, open_ := [], stopped := some now, unacked := [] }) (withholdDue n w))
        { w with coll.resetBy := none }
      let w := { w with res.outs := tabMap OutStream.idle (fun _ o => { o with due := o.due.map (fun d : Due => { d with withheld := true }) }) w.res.outs }
      let w := { w with rst := { w.rst with begun := now :: w.rst.begun.take 31, asserted := none, released := none, tested := none } }
      let w := forAll (List.range 32) inSuspend (odPut 0x2430 7 now (odPut 0x2430 6 msg (odPut 0x2430 3 1 w)))
      let jobs := if odGet w.toBlk 0x2700 4 = 2 then memberJobs w.toBlk else []
      { w with dev.steps := [], casc.abortOut := jobs.foldl (fun m k => setBit m k true) w.casc.abortOut } := by
  have hruns : (activeState w.toBlk || w.dev.state == .config) = true := by
    rcases hstate with h | h <;> simp [h]
  have hdue : ¬ (resetting w.toBlk = true ∨ (activeState w.toBlk || w.dev.state == .config) = false) := by
    simp [hno, hruns]
  simp only [resetBegin, hcause]
  exact if_neg hdue

/-! ## Step 2 (16 R421) -/

/-- The dump, whose items take four free values of each engine. -/
def dumpTaken (taken : Nat) (lost : List Nat) (w : Work) : Work :=
  let w' := { w with free := w.free + 4 * engineCount w.fuses }
  let items := dumpItems w' w.free
  let d := dumpArea (odGet w.toBlk 0x2430 6) (odGet w.toBlk 0x2430 7 + 1)
    (if pairRuns w.toBlk 0 then items.length else taken) lost items
  odPut 0x2430 3 2 (odPut 0x2450 4 d.1 (odPut 0x2450 3 items.length (odPut 0x2450 2 1 (odPut 0x2450 5 (leNat d.2) w'))))

section Dump

variable {w : Work} (hstep : odGet w.toBlk 0x2430 3 = 1) (hbeat : odGet w.toBlk 0x2430 7 + 1 ≤ w.time.beat)

include hstep hbeat

theorem resetDump_of_due (taken : Nat) (lost : List Nat) :
    resetDump taken lost w = if pairRuns w.toBlk 0 then dumpTaken taken lost w else resetAssert (dumpTaken taken lost w) := by
  refine if_neg ?_
  simp only [hstep, not_or, ne_eq, not_true_eq_false, not_false_eq_true, true_and]
  omega

theorem resetDump_of_running (hruns : pairRuns w.toBlk 0 = true) (taken : Nat) (lost : List Nat) :
    resetDump taken lost w = dumpTaken taken lost w := by
  rw [resetDump_of_due hstep hbeat, if_pos hruns]

/-- Without pair 0 the reset is asserted at once. -/
theorem resetDump_of_absent (habsent : pairRuns w.toBlk 0 = false) (taken : Nat) (lost : List Nat) :
    resetDump taken lost w = resetAssert (dumpTaken taken lost w) := by
  rw [resetDump_of_due hstep hbeat, habsent, if_neg Bool.false_ne_true]

end Dump

/-! ## Steps 3 to 5 (16 R422, R423) -/

theorem resetAssert_of_due {w : Work} (hstep : odGet w.toBlk 0x2430 3 = 2) (hbeat : odGet w.toBlk 0x2430 7 + 1 ≤ w.time.beat) :
    resetAssert w =
      let w := clearCompute w
      { odPut 0x2430 3 3 w with rst := { w.rst with asserted := some w.time.beat } } := by
  refine if_neg ?_
  simp only [hstep, not_or, ne_eq, not_true_eq_false, not_false_eq_true, true_and]
  omega

theorem resetRelease_of_due {t beats : Nat} {fails : List (Nat × Nat)} {w : Work} (hasserted : w.rst.asserted = some t)
    (hstep : odGet w.toBlk 0x2430 3 = 3) (hbeat : t + 25 ≤ w.time.beat) (hruns : pairRuns w.toBlk 0 = true)
    (hlocked : w.pow.unlocked.any (fun p => decide (p < 2 * dies w.fuses)) = false) :
    resetRelease fails beats w =
      let now := w.time.beat
      let was := (List.range (quadCount w.fuses)).filter (fun q => quadGet w.toBlk q 0xA0 == 1)
      let w := odPut 0x2430 3 4 (syncsInit w)
      let w := { w with rst := { w.rst with released := some now, tested := some (now + beats + 1) } }
      let w := forAll was (fun q w => if fails.any (fun p => p.1 == q) then loseQuad q 0x010 w else quadRestored q 0 w) w
      forAll (fails.filter (fun p => !was.contains p.1 && decide (p.1 < quadCount w.fuses) && !quadRemoved w.toBlk p.1)) (fun p w =>
        makeSuspect p.1 (quadAdd p.1 0xA3 1 (raise 0x010 p.1 p.2 w))) w := by
  have hdue : ¬ (odGet w.toBlk 0x2430 3 ≠ 3 ∨ w.time.beat < t + 25 ∨ pairRuns w.toBlk 0 = false ∨
      w.pow.unlocked.any (fun p => decide (p < 2 * dies w.fuses)) = true) := by
    simp only [hstep, hruns, hlocked, not_or]
    exact ⟨by simp, by omega, by simp, by simp⟩
  simp only [resetRelease, hasserted]
  exact if_neg hdue

theorem resumption_of_due {t : Nat} {w : Work} (htested : w.rst.tested = some t) (hstep : odGet w.toBlk 0x2430 3 = 4)
    (hbeat : t ≤ w.time.beat) (hruns : pairRuns w.toBlk 0 = true) :
    resumption w =
      let now := w.time.beat
      let w := { w with coll.latches := w.coll.latches.filter (fun p => p.2 != 4) }
      let w := odAdd 0x2430 4 1 (odPut 0x2430 8 now (odPut 0x2430 3 0 w))
      let w := { w with rst := { w.rst with asserted := none, released := none, tested := none } }
      forAll ((admitted w.toBlk).filter (· != 0)) (fun n w =>
        let named := decide (ctxGet w.toBlk n 7 < 1024)
        modCtx n (fun c => { c with firstAt := max c.firstAt now, needPred := if named then some now else none }) w) w := by
  have hdue : ¬ (odGet w.toBlk 0x2430 3 ≠ 4 ∨ w.time.beat < t ∨ pairRuns w.toBlk 0 = false) := by
    simp only [hstep, hruns, not_or]
    exact ⟨by simp, by omega, by simp⟩
  simp only [resumption, htested]
  exact if_neg hdue

/-- Settles O40: each step of the reset at the boundary at which it is due. -/
theorem computeResetCommands : Obligations.ComputeResetCommands := by
  intro s msg t beats taken lost fails
  refine ⟨fun hcause hno hstate => ?_, fun hstep hbeat => ⟨fun hruns => ?_, fun habsent => ?_⟩, fun hstep hbeat => ?_,
    fun hasserted hstep hbeat hruns hlocked hbeats hfails => ?_, fun htested hstep hbeat hruns => ?_⟩
  · exact perform_eq_nextOf rfl rfl (resetBegin_of_due (w := workOf s) hcause hno hstate)
  · exact perform_eq_nextOf rfl rfl (resetDump_of_running (w := workOf s) hstep hbeat hruns taken lost)
  · exact perform_eq_nextOf rfl rfl (resetDump_of_absent (w := workOf s) hstep hbeat habsent taken lost)
  · exact perform_eq_nextOf rfl rfl (resetAssert_of_due (w := workOf s) hstep hbeat)
  · have hok : Instr.wf (.computeResetRelease fails beats) = true :=
      Bool.and_eq_true_iff.2 ⟨decide_eq_true hbeats, hfails⟩
    exact perform_eq_nextOf hok rfl (resetRelease_of_due (w := workOf s) hasserted hstep hbeat hruns hlocked)
  · exact perform_eq_nextOf rfl rfl (resumption_of_due (w := workOf s) htested hstep hbeat hruns)

end Sys2Proof.Proofs
end

section
/-! What a fault message changes in the object dictionary (16 R413, R415, 13 R346): the entry of its source in EVENT_COUNTS, and
the objects of the collector and of the log. -/

namespace Sys2Proof.Proofs

open Sys2Proof.Machine

/-- The objects that the collector and the log write with a message, the event counts apart. -/
def collectorKeys : List Nat :=
  [odKey 0x2400 4, odKey 0x2400 5, odKey 0x2400 6, odKey 0x2410 1, odKey 0x2410 2, odKey 0x2410 3, odKey 0x2410 4, odKey 0x2410 5,
   odKey 0x2410 6, odKey 0x2540 4, odKey 0x2540 5]

/-- Every object beside those reads alike. -/
def AgreeBeside (u w : Work) : Prop := ∀ i j, odKey i j ∉ collectorKeys → odGet u.toBlk i j = odGet w.toBlk i j

theorem AgreeBeside.trans {u v w : Work} (huv : AgreeBeside u v) (hvw : AgreeBeside v w) : AgreeBeside u w :=
  fun i j hkey => (huv i j hkey).trans (hvw i j hkey)

theorem agreeBeside_of_same {u w : Work} (hod : u.od = w.od) (hfuses : u.fuses = w.fuses) (hnode : u.dev.nodeId = w.dev.nodeId) :
    AgreeBeside u w := fun i j _ => Laws.odGet_congr hod hfuses hnode i j

theorem agreeBeside_odPut {idx sub : Nat} (hkey : odKey idx sub ∈ collectorKeys) (v : Nat) (w : Work) :
    AgreeBeside (odPut idx sub v w) w :=
  fun i j hother => Laws.odGet_odPut_ne idx sub v i j w fun heq => hother (by rw [heq]; exact hkey)

theorem agreeBeside_odAdd {idx sub : Nat} (hkey : odKey idx sub ∈ collectorKeys) (k : Nat) (w : Work) :
    AgreeBeside (odAdd idx sub k w) w := agreeBeside_odPut hkey _ w

theorem agreeBeside_doIf {f : Work → Work} (hf : ∀ w, AgreeBeside (f w) w) (c : Bool) (w : Work) : AgreeBeside (doIf c f w) w := by
  cases c
  · exact fun _ _ _ => rfl
  · exact hf w

theorem agreeBeside_logWrite (level origin point : Nat) (args : List Nat) (w : Work) :
    AgreeBeside (logWrite level origin point args w) w := by
  have hseq : odKey 0x2540 5 ∈ collectorKeys := by decide
  have hlost : odKey 0x2540 4 ∈ collectorKeys := by decide
  refine (agreeBeside_doIf (fun w => agreeBeside_of_same (by simp) (by simp) (by simp)) _ _).trans ?_
  split
  · exact (agreeBeside_odAdd hlost _ _).trans (agreeBeside_odPut hseq _ w)
  · exact agreeBeside_odPut hseq _ w

theorem agreeBeside_captureFirst (msg master access sev : Nat) (w : Work) : AgreeBeside (captureFirst msg master access sev w) w := by
  rw [captureFirst]
  split
  · exact fun _ _ _ => rfl
  · split
    · exact agreeBeside_odAdd (by decide) 1 w
    · exact (agreeBeside_odPut (by decide) _ _).trans ((agreeBeside_odPut (by decide) _ _).trans ((agreeBeside_odPut (by decide) _ _).trans
        ((agreeBeside_odPut (by decide) _ _).trans (agreeBeside_odPut (by decide) _ w))))

theorem agreeBeside_irqRaise (k : Nat) (w : Work) : AgreeBeside (irqRaise k w) w :=
  agreeBeside_of_same (by simp) (by simp) (by simp)

theorem agreeBeside_applySeverity (source msg sev : Nat) (w : Work) : AgreeBeside (applySeverity source msg sev w) w :=
  agreeBeside_of_same (by simp) (by simp) (by simp)

/-- The collector counts the event of a message; beside the event counts it changes its own objects and the log's alone. -/
theorem collectOne_counts {msg : Nat} (hkind : fld msg 50 47 ≤ 7) (master access : Nat) (w : Work) :
    ∃ u : Work, AgreeBeside u w ∧ AgreeBeside (collectOne msg master access w) (countEvent (fld msg 59 51) u) := by
  by_cases htest : fld msg 50 47 = 7
  · refine ⟨w, fun _ _ _ => rfl, fun _ _ _ => ?_⟩
    rw [collectOne, if_neg (by omega), if_pos htest]
  · refine ⟨doIf (classify w.toBlk (fld msg 59 51) (fld msg 44 32)).2.2 (odAdd 0x2400 6 1)
      { w with coll.keys := (classify w.toBlk (fld msg 59 51) (fld msg 44 32)).2.1 }, ?_, ?_⟩
    · exact (agreeBeside_doIf (agreeBeside_odAdd (by decide) 1) _ _).trans (agreeBeside_of_same rfl rfl rfl)
    · rw [collectOne, if_neg (by omega), if_neg htest]
      exact (agreeBeside_applySeverity _ _ _ _).trans ((agreeBeside_captureFirst _ _ _ _ _).trans
        ((agreeBeside_irqRaise _ _).trans ((agreeBeside_logWrite _ _ _ _ _).trans (agreeBeside_odAdd (by decide) 1 _))))

theorem odGet_collectOne_ne {msg i j : Nat} (hkind : fld msg 50 47 ≤ 7) (hkey : odKey i j ∉ collectorKeys)
    (hcounts : odKey i j ≠ odKey 0x2401 5) (master access : Nat) (w : Work) :
    odGet (collectOne msg master access w).toBlk i j = odGet w.toBlk i j := by
  obtain ⟨u, hu, hcollected⟩ := collectOne_counts hkind master access w
  rw [hcollected i j hkey, odGet_countEvent_ne _ u hcounts, hu i j hkey]

theorem eventEntry_collectOne {msg x : Nat} (hkind : fld msg 50 47 ≤ 7) (hx : x < 512) (master access : Nat) (w : Work) :
    eventEntry (collectOne msg master access w).toBlk x =
      if x = fld msg 59 51 then satAdd 32 (eventEntry w.toBlk x) 1 else eventEntry w.toBlk x := by
  obtain ⟨u, hu, hcollected⟩ := collectOne_counts hkind master access w
  have hkey : odKey 0x2401 5 ∉ collectorKeys := by decide
  have hsame : eventEntry u.toBlk x = eventEntry w.toBlk x := by rw [eventEntry, eventEntry, hu _ _ hkey]
  rw [eventEntry, hcollected _ _ hkey, ← eventEntry, eventEntry_countEvent _ u hx, hsame]

/-! ## A fault that is raised in LULL, where no reset begins (16 R426) -/

theorem faultKind_le (source : Nat) : faultKind source ≤ 7 := by
  have hrows : ∀ r ∈ faultRows, r.2.1 ≤ 7 := by decide
  unfold faultKind
  cases hrow : faultRows.find? (fun r => r.1 == source) with
  | none => exact Nat.zero_le 7
  | some r => exact hrows r (List.mem_of_find?_eq_some hrow)

theorem fld_faultMsg_source {source : Nat} (hsource : source < 512) (unit detail : Nat) :
    fld (faultMsg source unit detail) 59 51 = source := by
  have hkind := faultKind_le source
  unfold fld faultMsg
  omega

theorem fld_faultMsg_kind (source unit detail : Nat) :
    fld (faultMsg source unit detail) 50 47 ≤ 7 := by
  have hkind := faultKind_le source
  unfold fld faultMsg
  omega

@[simp] theorem doIf_odAdd_dev (c : Bool) (idx sub k : Nat) (w : Work) : (doIf c (odAdd idx sub k) w).dev = w.dev :=
  Laws.doIf_keeps (fun w : Work => w.dev) c _ w rfl

@[simp] theorem doIf_odAdd_coll (c : Bool) (idx sub k : Nat) (w : Work) : (doIf c (odAdd idx sub k) w).coll = w.coll :=
  Laws.doIf_keeps (fun w : Work => w.coll) c _ w rfl

/-- The device is in LULL and no cause of a reset waits. -/
def QuietLull (w : Work) : Prop := w.dev.state = .lull ∧ w.coll.resetBy = none

theorem resetBy_applySeverity_of_lull {source msg sev : Nat} {w : Work} (hlull : w.dev.state = .lull) :
    (applySeverity source msg sev w).coll.resetBy = w.coll.resetBy := by
  simp only [applySeverity]
  repeat' split
  all_goals simp_all

theorem quietLull_collectOne {msg : Nat} {w : Work} (hquiet : QuietLull w) (hkind : fld msg 50 47 ≤ 7) (master access : Nat) :
    QuietLull (collectOne msg master access w) := by
  obtain ⟨hlull, hnone⟩ := hquiet
  refine ⟨(Laws.collectOne_dev_state msg master access w).trans hlull, ?_⟩
  rw [collectOne, if_neg (by omega)]
  split
  · exact hnone
  · exact (resetBy_applySeverity_of_lull (by simpa using hlull)).trans (by simpa using hnone)

theorem collect_of_quietLull {msg : Nat} {w : Work} (hquiet : QuietLull w) (hkind : fld msg 50 47 ≤ 7) (master access : Nat) :
    collect msg master access w = collectOne msg master access w := by
  obtain ⟨-, hnone⟩ := quietLull_collectOne hquiet hkind master access
  have hlimit : limitStep (collectOne msg master access w) = collectOne msg master access w := by rw [limitStep, hnone]
  exact Laws.doIf_keeps id _ _ _ hlimit

section Raise

variable {source : Nat} {w : Work} (hquiet : QuietLull w) (unit detail : Nat)

include hquiet

theorem raise_of_quietLull : raise source unit detail w = collectOne (faultMsg source unit detail) none16 0 w :=
  collect_of_quietLull hquiet (fld_faultMsg_kind source unit detail) none16 0

theorem quietLull_raise : QuietLull (raise source unit detail w) := by
  rw [raise_of_quietLull hquiet]
  exact quietLull_collectOne hquiet (fld_faultMsg_kind source unit detail) _ _

theorem odGet_raise_ne {i j : Nat} (hkey : odKey i j ∉ collectorKeys) (hcounts : odKey i j ≠ odKey 0x2401 5) :
    odGet (raise source unit detail w).toBlk i j = odGet w.toBlk i j := by
  rw [raise_of_quietLull hquiet]
  exact odGet_collectOne_ne (fld_faultMsg_kind source unit detail) hkey hcounts _ _ w

theorem eventEntry_raise (hsource : source < 512) {x : Nat} (hx : x < 512) : eventEntry (raise source unit detail w).toBlk x =
    if x = source then satAdd 32 (eventEntry w.toBlk x) 1 else eventEntry w.toBlk x := by
  rw [raise_of_quietLull hquiet, eventEntry_collectOne (fld_faultMsg_kind source unit detail) hx, fld_faultMsg_source hsource]

end Raise

end Sys2Proof.Proofs
end

section
/-! The CASC_ROLE straps at the release of PORST_N (17 R433, 18 R467). -/

namespace Sys2Proof.Proofs

open Sys2Proof.Machine

/-- The straps that name no member: a standalone one other than 0, or a member above the size. -/
def strapsInvalid (casc : Nat) : Prop := (casc / 4 = 0 ∧ casc % 4 ≠ 0) ∨ casc / 4 < casc % 4

/-- The device as the release finds it, its straps sampled and shown. -/
def strapsSampled (node casc : Nat) (w : Work) : Work :=
  let w := holdAll w
  odPut 0x2700 2 casc { w with dev.state := .lull, dev.nodeId := node, dev.casc := casc, tap.ir := if w.tap.ir = 3 then 0 else w.tap.ir }

section Release

variable {node casc : Nat} {w : Work} (hporst : w.dev.state = .porst)

include hporst

theorem porstRelease_of_invalid (hbad : strapsInvalid casc) :
    porstRelease node casc w = doIf (node == 0) (raise 0x0B1 0 0) (raise 0x0F0 0 casc (strapsSampled node casc w)) := by
  have hstraps : ((casc / 4 == 0 && casc % 4 != 0) || decide (casc / 4 < casc % 4)) = true := by
    simpa [strapsInvalid] using hbad
  rw [porstRelease, if_neg (not_not_intro hporst), hstraps]
  rfl

theorem porstRelease_of_valid (hgood : ¬ strapsInvalid casc) :
    porstRelease node casc w =
      doIf (node == 0) (raise 0x0B1 0 0) (odPut 0x2700 3 (casc / 4 + 1) (strapsSampled node casc w)) := by
  have hstraps : ((casc / 4 == 0 && casc % 4 != 0) || decide (casc / 4 < casc % 4)) = false := by
    rw [← Bool.not_eq_true]
    simpa [strapsInvalid] using hgood
  rw [porstRelease, if_neg (not_not_intro hporst), hstraps]
  rfl

end Release

/-! ## What the straps show -/

/-- CASC_STRAPS, SIZE and the count of "cascade strap invalid". -/
def strapsShown (w : Work) : Nat × Nat × Nat := (odGet w.toBlk 0x2700 2, odGet w.toBlk 0x2700 3, eventEntry w.toBlk 0x0F0)

theorem quietLull_strapsSampled (node casc : Nat) (w : Work) : QuietLull (strapsSampled node casc w) := ⟨rfl, rfl⟩

theorem strapsShown_sampled {casc : Nat} (hcasc : casc < 16) (node : Nat) (w : Work) :
    strapsShown (strapsSampled node casc w) = (casc, 1, 0) := by
  have hstraps : odGet (strapsSampled node casc w).toBlk 0x2700 2 = casc :=
    (Laws.odGet_odPut_self 0x2700 2 casc _).trans (Nat.mod_eq_of_lt (Nat.lt_of_lt_of_le hcasc (by decide)))
  have hsize : odGet (strapsSampled node casc w).toBlk 0x2700 3 = 1 := Laws.odGet_odPut_ne 0x2700 2 casc 0x2700 3 _ (by decide)
  have hcounts : odGet (strapsSampled node casc w).toBlk 0x2401 5 = 0 := Laws.odGet_odPut_ne 0x2700 2 casc 0x2401 5 _ (by decide)
  rw [strapsShown, hstraps, hsize, eventEntry, hcounts, fld, Nat.zero_div, Nat.zero_mod]

/-- "Node-ID strap invalid" changes nothing of it. -/
theorem strapsShown_nodeFault {w : Work} (hquiet : QuietLull w) (c : Bool) : strapsShown (doIf c (raise 0x0B1 0 0) w) = strapsShown w := by
  refine Laws.doIf_keeps strapsShown _ _ _ ?_
  simp only [strapsShown]
  rw [odGet_raise_ne hquiet 0 0 (by decide) (by decide), odGet_raise_ne hquiet 0 0 (by decide) (by decide),
    eventEntry_raise hquiet 0 0 (by decide) (by decide), if_neg (by decide)]

theorem strapsShown_invalid {node casc : Nat} {w : Work} (hporst : w.dev.state = .porst) (hcasc : casc < 16)
    (hbad : strapsInvalid casc) : strapsShown (porstRelease node casc w) = (casc, 1, 1) := by
  have hquiet := quietLull_strapsSampled node casc w
  have hshown := strapsShown_sampled hcasc node w
  simp only [strapsShown, Prod.mk.injEq] at hshown
  obtain ⟨hstraps, hsize, hcount⟩ := hshown
  rw [porstRelease_of_invalid hporst hbad, strapsShown_nodeFault (quietLull_raise hquiet 0 casc)]
  simp only [strapsShown]
  rw [odGet_raise_ne hquiet 0 casc (by decide) (by decide), odGet_raise_ne hquiet 0 casc (by decide) (by decide),
    eventEntry_raise hquiet 0 casc (by decide) (by decide), if_pos rfl, hstraps, hsize, hcount]
  rfl

theorem strapsShown_valid {node casc : Nat} {w : Work} (hporst : w.dev.state = .porst) (hcasc : casc < 16)
    (hgood : ¬ strapsInvalid casc) : strapsShown (porstRelease node casc w) = (casc, casc / 4 + 1, 0) := by
  have hquiet : QuietLull (odPut 0x2700 3 (casc / 4 + 1) (strapsSampled node casc w)) := quietLull_strapsSampled node casc w
  have hshown := strapsShown_sampled hcasc node w
  simp only [strapsShown, Prod.mk.injEq] at hshown
  obtain ⟨hstraps, -, hcount⟩ := hshown
  have hsize : (casc / 4 + 1) % 2 ^ (8 * odBytes 0x2700 3) = casc / 4 + 1 := Nat.mod_eq_of_lt (by
    show casc / 4 + 1 < 256
    omega)
  rw [porstRelease_of_valid hporst hgood, strapsShown_nodeFault hquiet]
  simp only [strapsShown, eventEntry] at hcount ⊢
  rw [Laws.odGet_odPut_ne _ _ _ _ _ _ (by decide), Laws.odGet_odPut_self, Laws.odGet_odPut_ne _ _ _ _ _ _ (by decide), hstraps, hsize,
    hcount]

/-- A device of size 1 has no port that leads to a member. -/
theorem connected_of_alone {b : Blk} (halone : casSize b = 1) {p : Nat} (hp : p < 3) : connected b p = false := by
  have hme : casMe b = 0 := by rw [casMe, halone, if_pos (Nat.le_refl 1)]
  have hpeer : ¬ peerOf b p < casSize b := by
    rw [peerOf, hme, halone]
    omega
  rw [connected, decide_eq_false hpeer, Bool.and_false]

/-- Settles O58. -/
theorem cascadeStraps : Obligations.CascadeStraps := by
  intro s node casc hwf hporst
  obtain ⟨-, hcasc⟩ := Bool.and_eq_true_iff.1 hwf
  replace hcasc : casc < 16 := of_decide_eq_true hcasc
  have hexec : exec (.porstNRelease node casc) s = nextOf s (porstRelease node casc) := perform_of_accepted hwf rfl
  refine ⟨fun hbad => (completes_iff_of_nextOf hexec _).2 ?_, fun hgood => (completes_iff_of_nextOf hexec _).2 ?_⟩
  · have hshown := strapsShown_invalid (node := node) (w := workOf s) hporst hcasc hbad
    simp only [strapsShown, Prod.mk.injEq] at hshown
    obtain ⟨hstraps, hsize, hcount⟩ := hshown
    exact ⟨hsize, hstraps, fun p hp => connected_of_alone hsize hp, hcount⟩
  · have hshown := strapsShown_valid (node := node) (w := workOf s) hporst hcasc hgood
    simp only [strapsShown, Prod.mk.injEq] at hshown
    obtain ⟨hstraps, hsize, hcount⟩ := hshown
    refine ⟨hsize, ?_, hstraps, hcount, fun hzero p hp => connected_of_alone (hsize.trans (by omega)) hp⟩
    rw [Laws.commitWork_blk, casMe, casSize, hsize, hstraps]
    split
    · omega
    · rfl

end Sys2Proof.Proofs
end

section
/-! SQUALL_EXIT (14 R372): SQUALL is left for RUN as RUN is entered, and an entry to RUN invalidates the cache part of every engine
(07 R162). -/

namespace Sys2Proof.Proofs

open Sys2Proof.Machine

theorem squallExit_of_clear {w : Work} (hsquall : w.dev.state = .squall) (hclear : w.dev.emergency = 0) :
    squallExit w = enterState .run 8 (enterActive w) := by
  rw [squallExit, if_neg (by simp [hsquall, hclear])]

theorem enterState_engines (st : DevState) (cause : Nat) (w : Work) : (enterState st cause w).engines = w.engines := rfl

/-- What SQUALL has suspended resumes without a change to any engine. -/
theorem resumeSuspended_engines (w : Work) : (resumeSuspended w).engines = w.engines := by
  unfold resumeSuspended
  generalize List.filter _ (squallCtxs w.toBlk) = ns
  dsimp only
  refine Laws.forAll_keeps (fun w : Work => w.engines) _ (fun _ v => ?_) ns w
  rfl

/-- An entry to an active state leaves no line in a cache part. -/
theorem enterActive_engines (w : Work) :
    (enterActive w).engines = tabMap Engine.idle (fun _ g => { g with cache := [] }) w.engines := by
  rw [enterActive, resumeSuspended_engines]
  rfl

/-- SQUALL once its emergency has cleared, with one line in the cache part of engine 0. -/
def cachedSquall : State :=
  { State.reset with
    blk := { Blk.reset with dev := { Dev.reset with state := .squall }, engines := [(0, { Engine.idle with cache := [(0, [(0, 0)])] })] } }

/-- Refutes O4: SQUALL_EXIT does not keep the engines as its second clause has it. From `cachedSquall` it invalidates the line in
engine 0's cache part, as every entry to RUN does. -/
theorem not_squallAndEscalation : ¬ Obligations.SquallAndEscalation := by
  intro h
  obtain ⟨-, hexit, -⟩ := h cachedSquall 0 0 []
  obtain ⟨hexec, hcompletes⟩ := hexit rfl rfl
  obtain ⟨-, -, -, -, hengines⟩ := (completes_iff_of_nextOf hexec _).1 hcompletes
  have hflushed : tabMap Engine.idle (fun _ g => { g with cache := [] }) cachedSquall.blk.engines = [] := by decide +kernel
  rw [Laws.commitWork_blk, enterState_engines, enterActive_engines, Laws.workOf_engines, hflushed] at hengines
  exact absurd hengines.symm (List.cons_ne_nil _ _)

end Sys2Proof.Proofs
end

section
/-! Power, PLLs, cooling, the power hold and hinted phases (14 R353, R361, R363, R365, R368, R370, R371, R374). -/

namespace Sys2Proof.Proofs

open Sys2Proof.Machine

/-! ## The estimate and pair 1's level (14 R361, R365) -/

/-- An estimate is made once at an even boundary, with the hub running. -/
theorem powerEstimate_due {w : Work} (heven : w.time.beat % 2 = 0) (hns : w.time.ns = 2000 * w.time.beat)
    (hnew : w.pow.lastEst ≠ some w.time.beat) (hruns : hubRuns w.toBlk = true) :
    ¬ (w.time.beat % 2 = 1 ∨ w.time.ns ≠ 2000 * w.time.beat ∨ w.pow.lastEst = some w.time.beat ∨ hubRuns w.toBlk = false) := by
  simp [heven, hns, hnew, hruns]

theorem fwLevelWrite_of_running {l : Nat} {w : Work} (heven : w.time.beat % 2 = 0) (hruns : odGet w.toBlk 0x2511 1 = 1) :
    fwLevelWrite l w = { odPut 0x2200 0xA l w with pow.fwAt := some w.time.beat } := if_neg (by simp [heven, hruns])

/-! ## PLLs (14 R353) -/

theorem pllLost_of_locked {p : Nat} {w : Work} (hlocked : w.pow.unlocked.contains p = false) :
    pllLost p w =
      let w' := { odAdd 0x2202 5 1 w with pow.unlocked := p :: w.pow.unlocked }
      if p = 4 then raise 0x083 0 0 w' else raise 0x026 (p / 2) (p % 2) w' := by
  simp only [pllLost, Laws.odAdd_pow, hlocked, Bool.false_eq_true, if_false]

/-- A PLL locks in BOOT, or, but for the hub's, during a compute-part reset while no quad of its die droops. -/
theorem pllRelock_of_allowed {p : Nat} {w : Work} (hunlocked : w.pow.unlocked.contains p = true)
    (hallowed : (w.dev.state = .boot ∧ w.dev.warm = false) ∨ (p ≠ 4 ∧ odGet w.toBlk 0x2430 3 = 3 ∧
      ∀ q ∈ dieQuads w.toBlk (p / 2), droopHolds w.toBlk q = false)) :
    pllRelock p w = odAdd 0x2202 4 1 { w with pow.unlocked := w.pow.unlocked.filter (· != p) } := by
  have hwhen : ((w.dev.state == .boot && !w.dev.warm) || (p != 4 && odGet w.toBlk 0x2430 3 == 3 &&
      (dieQuads w.toBlk (p / 2)).all (fun q => !droopHolds w.toBlk q))) = true := by
    rcases hallowed with ⟨hboot, hwarm⟩ | ⟨hp, hreset, hcalm⟩
    · simp [hboot, hwarm]
    · have hall : (dieQuads w.toBlk (p / 2)).all (fun q => !droopHolds w.toBlk q) = true :=
        List.all_eq_true.2 fun q hq => by rw [hcalm q hq]; rfl
      simp [hp, hreset, hall]
  exact if_pos (Bool.and_eq_true_iff.2 ⟨hunlocked, hwhen⟩)

/-! ## Cooling (14 R371) -/

section Cooling

variable {w : Work} (hdue : w.time.beat % 500 = 0) (hporst : w.dev.state ≠ .porst)

include hdue hporst

/-- The duties are full, LULL's, or those of the two laws. -/
theorem coolingUpdate_of_due {forced : Bool} (hforced : (!w.pow.coolOn || (w.dev.state != .lull && (fld w.dev.emergency 3 1 != 0 ||
      fIsNaN (adcValue w.toBlk 2) || w.dev.state == .boot || w.dev.state == .safe))) = forced) :
    coolingUpdate w =
      odPut 0x2290 3 (if forced then 1024 else if w.dev.state = .lull then odGet w.toBlk 0x2220 9
        else coolLaw (odGet w.toBlk 0x2210 5) (odGet w.toBlk 0x2220 3) (odGet w.toBlk 0x2220 5) (sgn 8 (odGet w.toBlk 0x2220 4)))
      (odPut 0x2291 3 (if forced ∨ w.dev.state = .lull then 1024
        else coolLaw (adcValue w.toBlk 2) (odGet w.toBlk 0x2220 6) (odGet w.toBlk 0x2220 8) (sgn 8 (odGet w.toBlk 0x2220 7)))
      (odPut 0x2220 0xA (b2n forced) w)) := by
  rw [← hforced]
  exact if_neg (by simp [hdue, hporst])

theorem coolingUpdate_full (hfull : w.dev.state = .boot ∨ w.dev.state = .safe ∨ w.pow.coolOn = false) :
    coolingUpdate w = odPut 0x2290 3 1024 (odPut 0x2291 3 1024 (odPut 0x2220 0xA 1 w)) := by
  rw [coolingUpdate_of_due hdue hporst (forced := true) (by rcases hfull with h | h | h <;> simp [h])]
  rfl

theorem coolingUpdate_lull (hlull : w.dev.state = .lull) (hon : w.pow.coolOn = true) :
    coolingUpdate w = odPut 0x2290 3 (odGet w.toBlk 0x2220 9) (odPut 0x2291 3 1024 (odPut 0x2220 0xA 0 w)) := by
  rw [coolingUpdate_of_due hdue hporst (forced := false) (by simp [hlull, hon]), if_neg Bool.false_ne_true, if_pos hlull,
    if_pos (.inr hlull)]
  rfl

theorem coolingUpdate_law (hboot : w.dev.state ≠ .boot) (hsafe : w.dev.state ≠ .safe) (hlull : w.dev.state ≠ .lull)
    (hon : w.pow.coolOn = true) (hcool : fld w.dev.emergency 3 1 = 0) (hvalue : fIsNaN (adcValue w.toBlk 2) = false) :
    coolingUpdate w =
      odPut 0x2290 3 (coolLaw (odGet w.toBlk 0x2210 5) (odGet w.toBlk 0x2220 3) (odGet w.toBlk 0x2220 5) (sgn 8 (odGet w.toBlk 0x2220 4)))
      (odPut 0x2291 3 (coolLaw (adcValue w.toBlk 2) (odGet w.toBlk 0x2220 6) (odGet w.toBlk 0x2220 8) (sgn 8 (odGet w.toBlk 0x2220 7)))
      (odPut 0x2220 0xA 0 w)) := by
  rw [coolingUpdate_of_due hdue hporst (forced := false) (by simp [hboot, hsafe, hon, hcool, hvalue]), if_neg Bool.false_ne_true,
    if_neg hlull, if_neg (by simp [hlull])]
  rfl

end Cooling

/-! ## PWM, the power hold and hinted phases (11 R292, 14 R368, R374) -/

theorem pwmPeriod_of_clocked {p : Nat} {w : Work} (hclock : clockRuns w.toBlk = true) :
    pwmPeriod p w =
      let period := rneRatio 25000000 (odGet w.toBlk (0x2290 + p) 2)
      odAdd (0x2290 + p) 4 1 { w with pow.pwm := setNth w.pow.pwm p (period, rneRatio (odGet w.toBlk (0x2290 + p) 3 * period) 1024) } :=
  if_neg (by simp [hclock])

theorem holdExpire_of_held {t : Nat} {w : Work} (hheld : w.pow.holdAt = some t) (hlong : t + 500 ≤ w.time.beat) :
    holdExpire w = raise 0x0A3 0 0 { w with pow.holdAt := none } := by
  simp only [holdExpire, hheld, if_pos hlong]

theorem heavyRaise_of_near {h : Hint} {w : Work} (hhint : w.pow.hint = some h) (hnear : h.start ≤ w.time.beat + 2)
    (hstands : w.time.beat < h.stop) :
    heavyRaise w =
      forAll ((maskQuads h.quads).filter (fun q => quadGet w.toBlk q 0xA0 != 2 && !(quadRun w.toBlk q).heavy)) (fun q w =>
        raiseVolt q (modQuad q (fun r => { r with heavy := true }) w)) w := by
  simp only [heavyRaise, hhint]
  exact if_pos ⟨hnear, hstands⟩

theorem heavyEnd_of_past {h : Hint} {w : Work} (hhint : w.pow.hint = some h) (hpast : h.stop < w.time.beat) :
    heavyEnd w = { loseHeavy w with pow.hint := none } := by
  simp only [heavyEnd, hhint, if_pos hpast]

/-- Settles O37. -/
theorem powerCommands : Obligations.PowerCommands := by
  intro s mw l p t temps h
  refine ⟨fun hmw heven hns hnew hruns => ?_, fun hl heven hruns => ?_, fun hp hthere hlocked => ?_,
    fun hp hthere hunlocked hallowed => ?_, fun hdue hporst => ⟨fun hfull => ?_, fun hlull hon => ?_,
      fun hboot hsafe hlull hon hcool hvalue => ?_⟩, fun hp hclock => ?_, fun hheld hlong => ?_,
    fun hhint => ⟨fun hnear hstands => ?_, fun hpast => ?_⟩⟩
  · refine perform_eq_nextOf (f := fun w => rateSwitches (temps.map (·.1)) (powerEstimate mw temps w)) (decide_eq_true hmw) rfl ?_
    exact congrArg (rateSwitches _) (if_neg (powerEstimate_due (w := workOf s) heven hns hnew hruns))
  · exact perform_eq_nextOf (decide_eq_true hl) rfl (fwLevelWrite_of_running (w := workOf s) heven hruns)
  · exact perform_eq_nextOf (decide_eq_true hp) hthere (pllLost_of_locked (w := workOf s) hlocked)
  · exact perform_eq_nextOf (decide_eq_true hp) hthere (pllRelock_of_allowed (w := workOf s) hunlocked hallowed)
  · exact perform_eq_nextOf rfl rfl (coolingUpdate_full (w := workOf s) hdue hporst hfull)
  · exact perform_eq_nextOf rfl rfl (coolingUpdate_lull (w := workOf s) hdue hporst hlull hon)
  · exact perform_eq_nextOf rfl rfl (coolingUpdate_law (w := workOf s) hdue hporst hboot hsafe hlull hon hcool hvalue)
  · exact perform_eq_nextOf (decide_eq_true hp) rfl (pwmPeriod_of_clocked (w := workOf s) hclock)
  · exact perform_eq_nextOf rfl rfl (holdExpire_of_held (w := workOf s) hheld hlong)
  · exact perform_eq_nextOf rfl rfl (heavyRaise_of_near (w := workOf s) hhint hnear hstands)
  · exact perform_eq_nextOf rfl rfl (heavyEnd_of_past (w := workOf s) hhint hpast)

end Sys2Proof.Proofs
end

section
/-! Checking (15 R379, R383, R390 to R402): the diagnostic cycle, the guard path, plausibility, suspect quads and the watchdog. -/

namespace Sys2Proof.Proofs

open Sys2Proof.Machine

/-! ## A Garnet slice's window (15 R383) -/

theorem garnetExpire_of_late {q : Nat} {w : Work} (hlive : (sliceOf w.toBlk (960 + q)).live = true)
    (hopen : (sliceOf w.toBlk (960 + q)).doneAt = none) (hgoes : (sliceOf w.toBlk (960 + q)).stopped = none)
    (hlate : (sliceOf w.toBlk (960 + q)).rel + 64 ≤ w.time.beat) :
    garnetExpire q w =
      makeSuspect q (raise 0x010 q (((sliceOf w.toBlk (960 + q)).rel - q) / 64 % 16) (quadAdd q 0xA3 1 w)) :=
  if_pos (by simp [hlive, hopen, hgoes, hlate])

/-! ## A test step (15 R391) -/

section TestStep

variable {q t : Nat} {w : Work} (hruns : guardRuns (atTime t w).toBlk = true) (hno : resetting (atTime t w).toBlk = false)
    (hgood : quadGet (atTime t w).toBlk q 0xA0 = 0) (hopen : (quadRun (atTime t w).toBlk q).gated = false)
    (hidle : quadBusy (atTime t w).toBlk q = false) (hsteal : stealing (atTime t w).toBlk q = false)
    (hroom : ∀ r n, nextRelease (atTime t w).toBlk q = some (r, n) →
      moment t w + 64000 / max 1 (clockOf (atTime t w).toBlk q) ≤ 2000 * r)

include hruns hno hgood hopen hidle hsteal hroom

/-- On an idle quad in service the step runs, and its result decides. -/
theorem testStep_of_idle (item : Nat) (ok : Bool) :
    testStep q item t ok w =
      if ok then modQuad q (fun r => { r with tested := testMark item r.tested }) (atTime t w)
      else makeSuspect q (raise 0x014 (testSource q item).2 (testSource q item).1 (atTime t w)) := by
  refine if_neg ?_
  rintro (h | h | h | h | h | h | h)
  · exact ne_false_of_eq_true hruns h
  · exact Bool.false_ne_true (hno.symm.trans h)
  · exact h hgood
  · exact Bool.false_ne_true (hopen.symm.trans h)
  · exact Bool.false_ne_true (hidle.symm.trans h)
  · exact Bool.false_ne_true (hsteal.symm.trans h)
  · cases hnext : nextRelease (atTime t w).toBlk q with
    | none => simp [hnext] at h
    | some x => exact of_decide_eq_false (by simpa only [hnext] using h) (hroom x.1 x.2 hnext)

end TestStep

/-! ## A suspect quad's remedies and retest (15 R398, R399) -/

theorem no_more_voltage {b : Blk} (hspent : (quadGet b q 0xA8).testBit 0 = true ∨ 825 < quadGet b q 0x92 + 25) :
    ¬ ((quadGet b q 0xA8).testBit 0 = false ∧ quadGet b q 0x92 + 25 ≤ 825) := by
  rintro ⟨hunused, hvolt⟩
  rcases hspent with h | h
  · exact Bool.false_ne_true (hunused.symm.trans h)
  · omega

section Remedy

variable {q : Nat} {w : Work} (hsuspect : quadGet w.toBlk q 0xA0 = 1) (hno : resetting w.toBlk = false)

include hsuspect hno

theorem suspectRemedy_due (hfirst : (quadRun w.toBlk q).remedy = 1) :
    ¬ (quadGet w.toBlk q 0xA0 ≠ 1 ∨ (quadRun w.toBlk q).remedy ≠ 1 ∨ resetting w.toBlk = true) := by
  simp [hsuspect, hfirst, hno]

/-- The first remedy is 25 mV more. -/
theorem suspectRemedy_raises (hfirst : (quadRun w.toBlk q).remedy = 1) (hunused : (quadGet w.toBlk q 0xA8).testBit 0 = false)
    (hvolt : quadGet w.toBlk q 0x92 + 25 ≤ 825) :
    suspectRemedy q w =
      raiseVolt q (modQuad q (fun r => { r with raised := true, remedy := 3 })
        (quadPut q 0xA8 (Nat.lor (quadGet w.toBlk q 0xA8) 1) w)) :=
  (if_neg (suspectRemedy_due hsuspect hno hfirst)).trans (if_pos ⟨hunused, hvolt⟩)

/-- The second is a lower clock, which the recomputation brings. -/
theorem suspectRemedy_slows (hfirst : (quadRun w.toBlk q).remedy = 1)
    (hspent : (quadGet w.toBlk q 0xA8).testBit 0 = true ∨ 825 < quadGet w.toBlk q 0x92 + 25)
    (hunused : (quadGet w.toBlk q 0xA8).testBit 1 = false) (hclock : 500 < clockOf w.toBlk q) :
    suspectRemedy q w =
      askRecompute 2 (modQuad q (fun r => { r with remedy := 2 }) (quadPut q 0xA8 (Nat.lor (quadGet w.toBlk q 0xA8) 2) w)) :=
  (if_neg (suspectRemedy_due hsuspect hno hfirst)).trans
    ((if_neg (no_more_voltage hspent)).trans (if_pos ⟨hunused, hclock⟩))

/-- With neither left, the quad is taken out of service. -/
theorem suspectRemedy_loses (hfirst : (quadRun w.toBlk q).remedy = 1)
    (hspent : (quadGet w.toBlk q 0xA8).testBit 0 = true ∨ 825 < quadGet w.toBlk q 0x92 + 25)
    (hslow : (quadGet w.toBlk q 0xA8).testBit 1 = true ∨ clockOf w.toBlk q ≤ 500) :
    suspectRemedy q w = loseQuad q 0x010 w := by
  have hnoClock : ¬ ((quadGet w.toBlk q 0xA8).testBit 1 = false ∧ 500 < clockOf w.toBlk q) := by
    rintro ⟨hunused, hclock⟩
    rcases hslow with h | h
    · exact Bool.false_ne_true (hunused.symm.trans h)
    · omega
  exact (if_neg (suspectRemedy_due hsuspect hno hfirst)).trans
    ((if_neg (no_more_voltage hspent)).trans (if_neg hnoClock))

/-- A retest runs once the remedy has taken effect and pair 0 runs. -/
theorem retest_of_due (hremedied : (quadRun w.toBlk q).remedy = 3) (hclock : clockOf w.toBlk q ≤ (quadRun w.toBlk q).cap)
    (hpair : pairRuns w.toBlk 0 = true) (beats : Nat) (pass : Bool) :
    retest q beats pass w = if pass then quadRestored q beats w else loseQuad q 0x010 w :=
  if_neg (by simp [hsuspect, hremedied, hclock, hno, hpair])

end Remedy

/-! ## The end of a diagnostic cycle (15 R379, R390) -/

/-- The sources of the checkers of the quads that a cycle has not exercised. -/
def quadLacks (b : Blk) : List Nat :=
  (List.range (quadCount b.fuses)).flatMap (fun q => (untested b q).map (fun i => (testSource q i).1))

/-- What the cycle has starved: the quads' checkers and the hub's own. -/
def starvedSources (missed : List Nat) (w : Work) : List Nat :=
  (quadLacks { w with safe.cycles := w.time.beat / 8192 }.toBlk ++ missed ++ []).eraseDups

/-- A cycle in which no checker failed. -/
theorem cycleEnd_of_noneFailed {missed : List Nat} {w : Work} (hnew : w.safe.cycles < w.time.beat / 8192)
    (hchecked : w.safe.checkedAt.isSome = true) (hruns : guardRuns w.toBlk = true) :
    cycleEnd [] missed w =
      let w' := forAll (starvedSources missed w) (fun s w => raise 0x015 0 s w) { w with safe.cycles := w.time.beat / 8192 }
      let w' := odPut 0x2300 3 (b2n (starvedSources missed w).isEmpty) (doIf (!(starvedSources missed w).isEmpty) (odAdd 0x2300 4 1) w')
      { w' with quads := tabMap QuadRun.idle (fun _ r => { r with tested := [] }) w'.quads } := by
  have hsome : w.safe.checkedAt.isNone = false := by
    rw [← Option.not_isSome, hchecked]; rfl
  have hgo : ¬ (guardRuns { w with safe.cycles := w.time.beat / 8192 }.toBlk = false ∨ w.safe.checkedAt.isNone = true) := by
    rintro (h | h)
    · exact ne_false_of_eq_true hruns h
    · exact Bool.false_ne_true (hsome.symm.trans h)
  exact (if_neg (Nat.not_le.2 hnew)).trans (if_neg hgo)

/-! ## The watchdog's pulse (15 R402) -/

theorem extWdg_of_due {w : Work} (hruns : guardRuns w.toBlk = true) (hperiod : w.time.beat % max 1 (odGet w.toBlk 0x2300 9) = 0)
    (hnew : w.safe.wdgFrom < w.time.beat) :
    extWdg w =
      let w' := { w with safe.wdgFrom := w.time.beat, safe.wdgJoined := odGet w.toBlk 0x2510 1 == 1, safe.wdgBeat := false }
      if w.safe.wdgJoined && w.safe.wdgBeat && odGet w.toBlk 0x2510 1 == 1 then { w' with safe.wdgUntil := some (w.time.beat + 5) }
      else odAdd 0x2300 0xA 1 w' :=
  if_neg (by simp [hruns, hperiod, hnew])

/-! ## Plausibility (15 R396) -/

/-- The guard outputs whose window holds the capture time of a result. -/
def fitting (b : Blk) (latest : Nat) : List GuardOut :=
  b.guard.outs.filter (fun o => decide (o.time ≤ latest) && decide (latest ≤ o.time + odGet b 0x2330 8))

/-- The latest of the guard outputs that fit. -/
def latestOf (o : GuardOut) (os : List GuardOut) : GuardOut := os.foldl (fun m x => if m.time < x.time then x else m) o

/-- The distances that are compared, where the guard sees a point. -/
def comparedWith (g : GuardOut) (bins : List Nat) : List (Nat × Nat) := (List.zip bins g.bins).filter (fun p => p.2 != 20000)

/-- How many of the model's distances lie beyond the guard's by more than the margin. -/
def countFar (b : Blk) (ps : List (Nat × Nat)) : Nat := (ps.filter (fun p => decide (p.2 + plausMargin b p.2 < p.1))).length

/-- How many of them lie short of the guard's by more than the margin. -/
def countNear (b : Blk) (ps : List (Nat × Nat)) : Nat := (ps.filter (fun p => decide (p.1 + plausMargin b p.2 < p.2))).length

/-- A comparison that is made is counted, with the distances that lie short. -/
def comparedNow (low : Nat) (rest : List (Nat × Nat × Nat × List Nat)) (w : Work) : Work :=
  { odAdd 0x2330 0xC low (odAdd 0x2330 9 1 { w with guard.compare := rest }) with cores.compareDue := false }

/-- A disagreement is counted, and the fault follows after so many in a row. -/
def disagreement (stream limit sq : Nat) (w : Work) : Work :=
  let w := odAdd 0x2330 0xA 1 w
  let w := { w with guard.badSeq := if w.guard.bad = 0 then sq else w.guard.badSeq, guard.bad := w.guard.bad + 1 }
  if limit ≤ w.guard.bad then plausFault stream sq w else w

section Plausibility

variable {i sq latest : Nat} {bins : List Nat} {rest : List (Nat × Nat × Nat × List Nat)} {w : Work}
    (hwaits : w.guard.compare = (i, sq, latest, bins) :: rest) (hpair : pairRuns w.toBlk 0 = true)

include hwaits hpair

theorem plausCompare_of_unfit (hunfit : fitting w.toBlk latest = [] ∨ bins = []) :
    plausCompare w = odAdd 0x2330 0xB 1 { w with guard.compare := rest } := by
  have hruns : ¬ pairRuns { w with guard.compare := rest }.toBlk 0 = false := ne_false_of_eq_true hpair
  simp only [plausCompare, hwaits]
  refine (if_neg hruns).trans ?_
  split
  · rfl
  · next o os hfit =>
    have hnone : ¬ fitting w.toBlk latest = [] := fun h => List.cons_ne_nil o os (hfit.symm.trans h)
    exact if_pos (hunfit.resolve_left hnone)

theorem plausCompare_of_fit {o : GuardOut} {os : List GuardOut} (hfit : fitting w.toBlk latest = o :: os) (hbins : bins ≠ []) :
    plausCompare w =
      let ps := comparedWith (latestOf o os) bins
      let w' := comparedNow (countNear w.toBlk ps) rest w
      if odGet w.toBlk 0x2330 6 ≤ countFar w.toBlk ps then
        disagreement (odGet w.toBlk 0x2330 2) (odGet w.toBlk 0x2330 7) sq w'
      else { w' with guard.bad := 0 } := by
  have hruns : ¬ pairRuns { w with guard.compare := rest }.toBlk 0 = false := ne_false_of_eq_true hpair
  simp only [plausCompare, hwaits]
  refine (if_neg hruns).trans ?_
  split
  · next hnone => exact absurd (hfit.symm.trans hnone) (List.cons_ne_nil o os)
  · next o' os' hfit' =>
    obtain ⟨rfl, rfl⟩ := List.cons.inj (hfit.symm.trans hfit')
    exact if_neg hbins

end Plausibility

/-- Settles O38: where a command's guard is met, it does what the lemma of that case says. -/
theorem checkCommands : Obligations.CheckCommands := by
  intro s q item t beats prog sq latest i bins missed rest
  refine ⟨fun hq hthere => ⟨fun hlive hopen hgoes hlate => ?_, fun hitem ht hruns hno hgood hgate hidle hsteal hroom => ?_,
    fun hsuspect hno => ⟨fun hfirst => ⟨fun hunused hvolt => ?_, fun hspent hunused hclock => ?_, fun hspent hslow => ?_⟩,
      fun hremedied hclock hpair hbeats => ?_⟩⟩,
    fun hnew hchecked hruns hmissed => ⟨fun hnone => ?_, fun hsome => ?_⟩, fun hprog hruns => ?_,
    fun hwaits hpair => ⟨fun hunfit => ?_, fun o os hfit hbins => ⟨fun hfew => ?_, fun hmany => ?_⟩⟩,
    fun hruns hperiod hnew => ⟨fun hgood => ?_, fun hbad => ?_⟩⟩
  · exact perform_eq_nextOf (decide_eq_true hq) (decide_eq_true hthere)
      (garnetExpire_of_late (w := workOf s) hlive hopen hgoes hlate)
  · have hok : (decide (q < 64) && decide (item < 29) && decide (t < 2 ^ 64)) = true :=
      Bool.and_eq_true_iff.2 ⟨by simp [hq, hitem], decide_eq_true ht⟩
    have hstep := testStep_of_idle (w := workOf s) hruns hno hgood hgate hidle hsteal hroom item
    exact ⟨perform_eq_nextOf hok (decide_eq_true hthere) ((hstep true).trans (if_pos rfl)),
      perform_eq_nextOf hok (decide_eq_true hthere) ((hstep false).trans (if_neg Bool.false_ne_true))⟩
  · exact perform_eq_nextOf (decide_eq_true hq) (decide_eq_true hthere)
      (suspectRemedy_raises (w := workOf s) hsuspect hno hfirst hunused hvolt)
  · exact perform_eq_nextOf (decide_eq_true hq) (decide_eq_true hthere)
      (suspectRemedy_slows (w := workOf s) hsuspect hno hfirst hspent hunused hclock)
  · exact perform_eq_nextOf (decide_eq_true hq) (decide_eq_true hthere)
      (suspectRemedy_loses (w := workOf s) hsuspect hno hfirst hspent hslow)
  · have hok : (decide (q < 64) && decide (beats ≤ 40)) = true := by simp [hq, hbeats]
    have hretest := retest_of_due (w := workOf s) hsuspect hno hremedied hclock hpair beats
    exact ⟨perform_eq_nextOf hok (decide_eq_true hthere) (hretest true), perform_eq_nextOf hok (decide_eq_true hthere) (hretest false)⟩
  · refine perform_eq_nextOf hmissed rfl ((cycleEnd_of_noneFailed (w := workOf s) hnew hchecked hruns).trans ?_)
    rw [show starvedSources missed (workOf s) = [] from hnone]
    rfl
  · refine perform_eq_nextOf hmissed rfl ((cycleEnd_of_noneFailed (w := workOf s) hnew hchecked hruns).trans ?_)
    rw [show (starvedSources missed (workOf s)).isEmpty = false from List.isEmpty_eq_false_iff.2 hsome]
    rfl
  · exact perform_eq_nextOf (decide_eq_true hprog) rfl (if_neg (ne_false_of_eq_true hruns))
  · exact perform_eq_nextOf rfl rfl (plausCompare_of_unfit (w := workOf s) hwaits hpair hunfit)
  · exact perform_eq_nextOf rfl rfl
      ((plausCompare_of_fit (w := workOf s) hwaits hpair hfit hbins).trans (if_neg (Nat.not_le.2 hfew)))
  · exact perform_eq_nextOf rfl rfl ((plausCompare_of_fit (w := workOf s) hwaits hpair hfit hbins).trans (if_pos hmany))
  · exact perform_eq_nextOf rfl rfl ((extWdg_of_due (w := workOf s) hruns hperiod hnew).trans (if_pos hgood))
  · exact perform_eq_nextOf rfl rfl
      ((extWdg_of_due (w := workOf s) hruns hperiod hnew).trans (if_neg (ne_true_of_eq_false hbad)))

end Sys2Proof.Proofs
end

section
/-! Training and the cascade's formation (17 R435, R436). -/

namespace Sys2Proof.Proofs

open Sys2Proof.Machine

/-! ## Training (17 R435) -/

theorem trainFlit_of_training {p straps serial low high delay : Nat} {w : Work} (hconfig : w.dev.state = .config)
    (htrains : w.casc.trainFrom.isSome = true) (hport : connected w.toBlk p = true) :
    trainFlit p straps serial low high delay w =
      odPut (0x2710 + p) 1 (straps % 4) (odPut (0x2710 + p) 3 delay
        (modPort p (fun c => { c with peer := some { straps, serial, low, high, delay } }) w)) := by
  refine if_neg ?_
  rintro (h | h | h)
  · rw [Option.isNone_iff_eq_none.1 h] at htrains
    exact Bool.false_ne_true htrains
  · exact ne_false_of_eq_true hport h
  · exact h hconfig

theorem form_wf {own master : Nat} (hown : own < 2 ^ 64) (hmaster : master < 2 ^ 64) : Instr.wf (.form own master) = true :=
  Bool.and_eq_true_iff.2 ⟨decide_eq_true hown, decide_eq_true hmaster⟩

/-- The ports that the cascade connects. -/
def casPorts (b : Blk) : List Nat := (List.range 3).filter (connected b)

theorem mem_casPorts {b : Blk} {p : Nat} : p ∈ casPorts b ↔ p < 3 ∧ connected b p = true := by
  simp [casPorts]

section Naming

variable {own master : Nat} {w : Work} (hconfig : w.dev.state = .config) (htrains : w.casc.trainFrom.isSome = true)
    (hahead : w.time.beat + 16 ≤ own)
    (hshown : ∀ p < 3, connected w.toBlk p = true → (portOf w.toBlk p).peer.isSome = true)

include hconfig htrains hahead hshown

/-- With every peer shown, the boundary is named: by the master once every peer passes its check, elsewhere as it is told. -/
theorem formNamed_of_shown :
    formNamed own master w =
      if casMe w.toBlk = 0 then
        match (casPorts w.toBlk).find? (fun p => !peerGood w.toBlk p) with
        | some p => trainFail p 3 w
        | none => forAll (casPorts w.toBlk) (fun p w => send (.form p own) w) { w with casc.formAt := some (own, own) }
      else { w with casc.formAt := some (own, master) } := by
  have hgo : ¬ (w.casc.trainFrom.isNone = true ∨ w.dev.state ≠ .config ∨ own < w.time.beat + 16) := by
    rintro (h | h | h)
    · rw [Option.isNone_iff_eq_none.1 h] at htrains
      exact Bool.false_ne_true htrains
    · exact h hconfig
    · exact absurd hahead (Nat.not_le.2 h)
  have hall : ¬ (casPorts w.toBlk).any (fun p => (portOf w.toBlk p).peer.isNone) = true := by
    intro h
    obtain ⟨p, hp, hnone⟩ := List.any_eq_true.1 h
    obtain ⟨hp3, hport⟩ := mem_casPorts.1 hp
    have hsome := hshown p hp3 hport
    rw [Option.isNone_iff_eq_none.1 hnone] at hsome
    exact Bool.false_ne_true hsome
  exact (if_neg hgo).trans ((if_neg hall).trans rfl)

theorem formNamed_of_master (hme : casMe w.toBlk = 0)
    (hgood : ∀ p < 3, connected w.toBlk p = true → peerGood w.toBlk p = true) :
    formNamed own master w =
      forAll (casPorts w.toBlk) (fun p w => send (.form p own) w) { w with casc.formAt := some (own, own) } := by
  have hnone : (casPorts w.toBlk).find? (fun p => !peerGood w.toBlk p) = none := by
    refine List.find?_eq_none.2 fun p hp => ?_
    obtain ⟨hp3, hport⟩ := mem_casPorts.1 hp
    simp [hgood p hp3 hport]
  rw [formNamed_of_shown hconfig htrains hahead hshown, if_pos hme, hnone]

theorem formNamed_of_member (hme : casMe w.toBlk ≠ 0) :
    formNamed own master w = { w with casc.formAt := some (own, master) } :=
  (formNamed_of_shown hconfig htrains hahead hshown).trans (if_neg hme)

theorem formNamed_of_refused {p : Nat} (hme : casMe w.toBlk = 0)
    (hbad : (casPorts w.toBlk).find? (fun p => !peerGood w.toBlk p) = some p) :
    formNamed own master w = trainFail p 3 w := by
  rw [formNamed_of_shown hconfig htrains hahead hshown, if_pos hme, hbad]

end Naming

theorem trainingTimeout_of_late {step t : Nat} {w : Work} (hconfig : w.dev.state = .config) (htrains : w.casc.trainFrom = some t)
    (hlate : t + 20000 ≤ w.time.beat) :
    trainingTimeout step w =
      trainFail ((((casPorts w.toBlk).find? (fun p => (portOf w.toBlk p).peer.isNone)).orElse
        (fun _ => (casPorts w.toBlk).head?)).getD 0) step w := by
  have hgo : ¬ (w.dev.state ≠ .config ∨ w.time.beat < t + 20000) := by simp [hconfig, hlate]
  simp only [trainingTimeout, htrains]
  exact if_neg hgo

/-! ## Formation (17 R436) -/

/-- A member takes the master's count of beats, with its own lateness, and its time. -/
def takeMasterCount (own master : Nat) (w : Work) : Work :=
  let now := master + (w.time.beat - own)
  let d : Int := ((now : Nat) : Int) - w.time.beat
  let w := shiftTimers d w
  let step := fun (_ : Nat) (t : Trig) => { t with since := t.since.map (fun _ => 2000 * now), next := none, sched := none }
  odPut 0x2700 8 (twos 64 (2000 * d))
    { w with time := { w.time with beat := now, ns := 2000 * now }, pins.trigs := tabMap Trig.idle step w.pins.trigs }

/-- The cascade is formed, with every partner just heard and every port up. -/
def enterFormed (now : Nat) (w : Work) : Work :=
  let w := { w with casc := { w.casc with trainFrom := none, formAt := none, partners := List.replicate 4 { Partner.idle with heard := w.time.beat } } }
  odPut 0x2700 4 2 (odPut 0x2700 5 1 (odPut 0x2700 7 now (forAll (casPorts w.toBlk) (fun p w => odPut (0x2710 + p) 2 2 w) w)))

theorem formation_of_due {own master : Nat} {w : Work} (hconfig : w.dev.state = .config) (hnamed : w.casc.formAt = some (own, master))
    (hdue : own ≤ w.time.beat) :
    formation w = enterFormed (master + (w.time.beat - own)) (if casMe w.toBlk = 0 then w else takeMasterCount own master w) := by
  have hgo : ¬ (w.time.beat < own ∨ w.dev.state ≠ .config) := by simp [hconfig, hdue]
  simp only [formation, hnamed]
  exact if_neg hgo

/-- The ports' objects, set in a loop, keep what the object dictionary is no part of. -/
theorem enterFormed_keeps {β : Type} (g : Work → β) (hod : ∀ idx sub v w, g (odPut idx sub v w) = g w)
    (hcasc : ∀ w c, g { w with casc := c } = g w) (now : Nat) (w : Work) : g (enterFormed now w) = g w := by
  simp only [enterFormed, hod]
  rw [Laws.forAll_keeps g _ (fun p w => hod (0x2710 + p) 2 2 w), hcasc]

theorem enterFormed_casc (now : Nat) (w : Work) :
    (enterFormed now w).casc.trainFrom = none ∧ (enterFormed now w).casc.formAt = none := by
  simp only [enterFormed, Laws.odPut_casc]
  rw [Laws.forAll_keeps (fun w : Work => w.casc) (fun p w => odPut (0x2710 + p) 2 2 w) (fun _ _ => rfl)]
  exact ⟨rfl, rfl⟩

theorem enterFormed_state (now : Nat) (w : Work) :
    odGet (enterFormed now w).toBlk 0x2700 4 = 2 ∧ odGet (enterFormed now w).toBlk 0x2700 5 = 1 := by
  refine ⟨Laws.odGet_odPut_self _ _ _ _, ?_⟩
  exact (Laws.odGet_odPut_ne _ _ _ _ _ _ (by decide)).trans (Laws.odGet_odPut_self _ _ _ _)

/-- What formation leaves of a member's time and stores: the master's count of beats, and no store. -/
theorem takeMasterCount_time (own master : Nat) (w : Work) :
    (takeMasterCount own master w).time.beat = master + (w.time.beat - own) ∧ (takeMasterCount own master w).wr = w.wr := ⟨rfl, rfl⟩

/-- Settles O41; formation is its two parts, the master's count and the formed state, which keep apart. -/
theorem trainingCommands : Obligations.TrainingCommands := by
  intro s p straps serial low high delay own master t step hconfig
  refine ⟨fun hwf htrains hport => ?_, fun hown hmaster htrains hahead hpeers => ⟨fun hme => ?_, fun hme => ?_⟩,
    fun hown hmaster htrains hahead hme hshown hbad => ?_, fun hnamed hdue => ?_, fun hlow hhigh htrains hlate => ?_⟩
  · exact perform_eq_nextOf hwf rfl (trainFlit_of_training (w := workOf s) hconfig htrains hport)
  · exact perform_eq_nextOf (form_wf hown hmaster) rfl (formNamed_of_master (w := workOf s) hconfig htrains hahead
      (fun p hp hport => (hpeers p hp hport).1) hme (fun p hp hport => (hpeers p hp hport).2))
  · exact perform_eq_nextOf (form_wf hown hmaster) rfl (formNamed_of_member (w := workOf s) hconfig htrains hahead
      (fun p hp hport => (hpeers p hp hport).1) hme)
  · exact perform_eq_nextOf (form_wf hown hmaster) rfl (formNamed_of_refused (w := workOf s) hconfig htrains hahead hshown hme hbad)
  · have hexec : exec .formation s = nextOf s (fun w =>
        enterFormed (master + (w.time.beat - own)) (if casMe w.toBlk = 0 then w else takeMasterCount own master w)) :=
      perform_eq_nextOf rfl rfl (formation_of_due (w := workOf s) hconfig hnamed hdue)
    have htime := enterFormed_keeps (fun w => w.time) (fun _ _ _ _ => rfl) (fun _ _ => rfl)
    have hwr := enterFormed_keeps (fun w => w.wr) (fun _ _ _ _ => rfl) (fun _ _ => rfl)
    refine (completes_iff_of_nextOf hexec _).2 ⟨(enterFormed_state _ _).1, (enterFormed_state _ _).2, (enterFormed_casc _ _).2,
      (enterFormed_casc _ _).1, fun hme => ?_, fun hme => ?_, ?_⟩
    · refine (congrArg (·.beat) (htime _ _)).trans ?_
      rw [if_neg (show ¬ casMe (workOf s).toBlk = 0 from hme)]
      exact (takeMasterCount_time own master (workOf s)).1
    · refine (htime _ _).trans ?_
      rw [if_pos (show casMe (workOf s).toBlk = 0 from hme)]
      rfl
    · refine congrArg (memPutAll s.mem) (a₂ := []) ((hwr _ _).trans ?_)
      split
      · rfl
      · exact (takeMasterCount_time own master (workOf s)).2
  · have hok : (decide (1 ≤ step) && decide (step ≤ 4)) = true := by simp [hlow, hhigh]
    exact perform_eq_nextOf hok rfl (trainingTimeout_of_late (w := workOf s) hconfig htrains hlate)

end Sys2Proof.Proofs
end

section
/-! Flits of a formed cascade (17 R438 to R441, R446). That a management flit tells the master of a member that has left ADAPT by
itself is the model's own choice (log 54), as is the detail of the report of a flit that is sent again (log 98). -/

namespace Sys2Proof.Proofs

open Sys2Proof.Machine

/-! ## Control flits (17 R440) -/

/-- What every control flit that is heard brings, the master's own fields aside. -/
def controlTaken (p ack : Nat) (m : List Byte) (w : Work) : Work :=
  let j := peerOf w.toBlk p
  let b := leAt m 16 8
  let fl := leAt m 3 1
  let w := modPartner j (fun x => { x with heard := w.time.beat, state := leAt m 2 1, flags := fl, lostMask := leAt m 12 1,
                                           leave := if bit fl 1 then some 2 else x.leave }) (ackTake p ack w)
  let jobs := (List.range 32).filter ((leAt m 4 4).testBit ·)
  let w := odAdd 0x2700 0xB jobs.length { w with casc.aborts := w.casc.aborts ++ jobs.map (fun k => (k, b + 2)) }
  heldTake j (bit fl 0) b (stretchTake j (if bit fl 2 then leAt m 8 4 else 0) b w)

/-- A flit that belongs to another beat than the present one comes from a master that the member leaves. -/
def masterStrays (b : Nat) (w : Work) : Work :=
  let diff := (max b w.time.beat - min b w.time.beat) % 2 ^ 32
  modPartner 0 (fun x => { x with leave := some 3 }) (raise 0x0F6 0 diff w)

section Ports

variable {p : Nat} {w : Work} (hformed : formed w.toBlk = true) (hport : connected w.toBlk p = true)

include hformed hport

theorem port_serves : ¬ (formed w.toBlk = false ∨ connected w.toBlk p = false) := by simp [hformed, hport]

theorem controlFlit_of_badCrc (ack : Nat) (m : List Byte) : controlFlit p ack m false w = odAdd (0x2710 + p) 6 1 w :=
  (if_neg (port_serves hformed hport)).trans (if_pos rfl)

theorem controlFlit_of_otherVersion {m : List Byte} (ack : Nat) (hversion : leAt m 0 1 ≠ 1) : controlFlit p ack m true w = w :=
  (if_neg (port_serves hformed hport)).trans ((if_neg Bool.false_ne_true.symm).trans (if_pos (.inr hversion)))

section Version1

variable {m : List Byte} (hlen : m.length = 256) (hversion : leAt m 0 1 = 1)

include hlen hversion

/-- A flit of version 1 with a good CRC is heard, unless its sender is lost. -/
theorem controlFlit_of_version1 (ack : Nat) :
    controlFlit p ack m true w =
      if (partnerAt w.toBlk (peerOf w.toBlk p)).lost then w
      else if peerOf w.toBlk p = 0 then
        if leAt m 16 8 ≠ (controlTaken p ack m w).time.beat then masterStrays (leAt m 16 8) (controlTaken p ack m w)
        else masterFields m (controlTaken p ack m w)
      else controlTaken p ack m w := by
  have hread : ¬ (m.length ≠ 256 ∨ leAt m 0 1 ≠ 1) := by simp [hlen, hversion]
  exact (if_neg (port_serves hformed hport)).trans ((if_neg Bool.false_ne_true.symm).trans (if_neg hread))

theorem controlFlit_of_lost (ack : Nat) (hlost : (partnerAt w.toBlk (peerOf w.toBlk p)).lost = true) :
    controlFlit p ack m true w = w :=
  (controlFlit_of_version1 hformed hport hlen hversion ack).trans (if_pos hlost)

section Heard

variable {ack : Nat} (hkept : (partnerAt w.toBlk (peerOf w.toBlk p)).lost = false)

include hkept

theorem controlFlit_of_member (hmember : peerOf w.toBlk p ≠ 0) : controlFlit p ack m true w = controlTaken p ack m w :=
  (controlFlit_of_version1 hformed hport hlen hversion ack).trans
    ((if_neg (ne_true_of_eq_false hkept)).trans (if_neg hmember))

theorem controlFlit_of_master (hmaster : peerOf w.toBlk p = 0) (hbeat : leAt m 16 8 = (controlTaken p ack m w).time.beat) :
    controlFlit p ack m true w = masterFields m (controlTaken p ack m w) :=
  (controlFlit_of_version1 hformed hport hlen hversion ack).trans
    ((if_neg (ne_true_of_eq_false hkept)).trans ((if_pos hmaster).trans (if_neg (not_not_intro hbeat))))

theorem controlFlit_of_strayMaster (hmaster : peerOf w.toBlk p = 0) (hbeat : leAt m 16 8 ≠ (controlTaken p ack m w).time.beat) :
    controlFlit p ack m true w = masterStrays (leAt m 16 8) (controlTaken p ack m w) :=
  (controlFlit_of_version1 hformed hport hlen hversion ack).trans
    ((if_neg (ne_true_of_eq_false hkept)).trans ((if_pos hmaster).trans (if_pos hbeat)))

end Heard

end Version1

/-! ## Numbered flits (17 R439) -/

section Numbered

variable {seq : Nat} (hkept : (partnerAt w.toBlk (peerOf w.toBlk p)).lost = false) (f : Work → Work)

include hkept

theorem port_hears : ¬ (formed w.toBlk = false ∨ connected w.toBlk p = false ∨ (partnerAt w.toBlk (peerOf w.toBlk p)).lost = true) := by
  simp [hformed, hport, hkept]

theorem flitInOrder_of_badCrc : flitInOrder p seq false f w = odAdd (0x2710 + p) 6 1 w :=
  (if_neg (port_hears hformed hport hkept)).trans (if_pos rfl)

theorem flitInOrder_of_otherSeq (hseq : seq ≠ ((portOf w.toBlk p).ack + 1) % 65536) : flitInOrder p seq true f w = w :=
  (if_neg (port_hears hformed hport hkept)).trans ((if_neg Bool.false_ne_true.symm).trans (if_pos hseq))

theorem flitInOrder_of_nextSeq (hseq : seq = ((portOf w.toBlk p).ack + 1) % 65536) :
    flitInOrder p seq true f w = f (modPort p (fun c => { c with ack := seq }) w) :=
  (if_neg (port_hears hformed hport hkept)).trans ((if_neg Bool.false_ne_true.symm).trans (if_neg (not_not_intro hseq)))

end Numbered

end Ports

/-- A numbered flit in order is acknowledged, and what it acknowledges is forgotten. -/
def numberedTaken (p seq ack : Nat) (w : Work) : Work := ackTake p ack (modPort p (fun c => { c with ack := seq }) w)

/-- A record's flit that is taken goes into its stream's assembly. -/
def recordTaken (p seq ack stream flags index : Nat) (payload : List Byte) (w : Work) : Work :=
  let w := numberedTaken p seq ack w
  let kept := if bit flags 0 then [] else tabGet [] (portOf w.toBlk p).asm stream
  let bs := if kept.length = 256 * index then kept ++ payload else []
  let last := bit flags 1
  let w := modPort p (fun c => { c with asm := tabSet [] c.asm stream (if last then [] else bs) }) w
  if last then recordArrives (peerOf w.toBlk p) (recordCut bs) w else w

section InOrder

variable {p seq : Nat} {w : Work} (hformed : formed w.toBlk = true) (hport : connected w.toBlk p = true)
    (hkept : (partnerAt w.toBlk (peerOf w.toBlk p)).lost = false) (hseq : seq = ((portOf w.toBlk p).ack + 1) % 65536)

include hformed hport hkept hseq

theorem managementFlit_of_nextSeq {f : MgmtFlit} (ack : Nat) (hgood : f.good = true) :
    managementFlit p seq ack f w =
      let w := numberedTaken p seq ack w
      if f.leftAdapt ∧ casMe w.toBlk = 0 then { w with links.effects := w.links.effects ++ [.request 2] } else w := by
  rw [managementFlit, hgood]
  exact flitInOrder_of_nextSeq hformed hport hkept _ hseq

theorem recordFlit_of_nextSeq (ack stream flags index : Nat) (payload : List Byte) :
    recordFlit p seq ack stream flags index payload true w = recordTaken p seq ack stream flags index payload w :=
  flitInOrder_of_nextSeq hformed hport hkept _ hseq

end InOrder

theorem management_wf {p seq ack : Nat} (f : MgmtFlit) (hp : p < 3) (hseq : seq < 2 ^ 16) (hack : ack < 2 ^ 16) :
    Instr.wf (.managementFlit p seq ack f) = true := by
  simp only [Instr.wf, Bool.and_eq_true, decide_eq_true_eq]
  exact ⟨⟨hp, hseq⟩, hack⟩

/-- Settles O42: a flit's CRC, version, sender and sequence number decide, in this order, what it does. -/
theorem flitCommands : Obligations.FlitCommands := by
  intro s p seq ack stream flags index n m payload f hp hformed hport
  refine ⟨fun hack hlen => ?_, fun hkept hseq hack => ⟨fun hbad => ?_, fun hgood hother => ?_, fun hgood hnext => ⟨fun hstays => ?_,
    fun hleft hme => ?_⟩, fun hstream hflags hindex hpayload => ?_⟩, fun hn => ?_⟩
  · have hok : (decide (p < 3) && decide (ack < 2 ^ 16) && decide (m.length = 256)) = true := by
      simp only [Bool.and_eq_true, decide_eq_true_eq]
      exact ⟨⟨hp, hack⟩, hlen⟩
    refine ⟨perform_eq_nextOf hok rfl (controlFlit_of_badCrc (w := workOf s) hformed hport ack m), fun hversion => ?_,
      fun hversion hlost => ?_, fun hversion hkept => ⟨fun hmember => ?_, fun hmaster hbeat => ?_, fun hmaster hbeat => ?_⟩⟩
    · exact perform_eq_nextOf hok rfl (controlFlit_of_otherVersion (w := workOf s) hformed hport ack hversion)
    · exact perform_eq_nextOf hok rfl (controlFlit_of_lost (w := workOf s) hformed hport hlen hversion ack hlost)
    · exact perform_eq_nextOf hok rfl (controlFlit_of_member (w := workOf s) hformed hport hlen hversion hkept hmember)
    · exact perform_eq_nextOf hok rfl (controlFlit_of_master (w := workOf s) hformed hport hlen hversion hkept hmaster hbeat)
    · exact perform_eq_nextOf hok rfl (controlFlit_of_strayMaster (w := workOf s) hformed hport hlen hversion hkept hmaster hbeat)
  · refine perform_eq_nextOf (management_wf f hp hseq hack) rfl ?_
    rw [managementFlit, hbad]
    exact flitInOrder_of_badCrc (w := workOf s) hformed hport hkept _
  · refine perform_eq_nextOf (management_wf f hp hseq hack) rfl ?_
    rw [managementFlit, hgood]
    exact flitInOrder_of_otherSeq (w := workOf s) hformed hport hkept _ hother
  · have hno : ¬ (f.leftAdapt = true ∧ casMe (numberedTaken p seq ack (workOf s)).toBlk = 0) := fun h =>
      hstays.elim (fun hstay => Bool.false_ne_true (hstay.symm.trans h.1)) (fun hme => hme h.2)
    exact perform_eq_nextOf (management_wf f hp hseq hack) rfl
      ((managementFlit_of_nextSeq (w := workOf s) hformed hport hkept hnext ack hgood).trans (if_neg hno))
  · exact perform_eq_nextOf (management_wf f hp hseq hack) rfl
      ((managementFlit_of_nextSeq (w := workOf s) hformed hport hkept hnext ack hgood).trans (if_pos ⟨hleft, hme⟩))
  · have hok : Instr.wf (.recordFlit p seq ack stream flags index payload false) = true := by
      simp only [Instr.wf, Bool.and_eq_true, decide_eq_true_eq]
      exact ⟨⟨⟨⟨⟨⟨hp, hseq⟩, hack⟩, hstream⟩, hflags⟩, hindex⟩, hpayload⟩
    refine ⟨?_, fun hother => ?_, fun hnext => ⟨fun hmore => ?_, fun hlast => ?_⟩⟩
    · exact perform_eq_nextOf hok rfl (flitInOrder_of_badCrc (w := workOf s) hformed hport hkept _)
    · exact perform_eq_nextOf hok rfl (flitInOrder_of_otherSeq (w := workOf s) hformed hport hkept _ hother)
    · refine perform_eq_nextOf hok rfl
        ((recordFlit_of_nextSeq (w := workOf s) hformed hport hkept hnext ack stream flags index payload).trans ?_)
      rw [recordTaken, hmore]
      rfl
    · refine perform_eq_nextOf hok rfl
        ((recordFlit_of_nextSeq (w := workOf s) hformed hport hkept hnext ack stream flags index payload).trans ?_)
      rw [recordTaken, hlast]
      rfl
  · have hok : (decide (p < 3) && decide (n ≤ 8)) = true := by simp [hp, hn]
    exact perform_eq_nextOf hok rfl (if_neg (port_serves (w := workOf s) hformed hport))

end Sys2Proof.Proofs
end

section
/-! The formed cascade (17 R441, R445 to R450): joint states, arrival sets, aborts, stretches and lost members. The free header
fields of a missing part are log 55, a part that comes a boundary before log 171, one set of a close boundary log 99. -/

namespace Sys2Proof.Proofs

open Sys2Proof.Machine

/-! ## Joint states (17 R441) -/

/-- A member behind a connected port is ready, or has been lost. -/
def portReady (b : Blk) (p : Nat) : Prop :=
  connected b p = false ∨ (partnerAt b (peerOf b p)).lost = true ∨ (partnerAt b (peerOf b p)).flags.testBit 3 = true

/-- The same as the master's check evaluates it. -/
def portReadyCheck (b : Blk) (p : Nat) : Bool :=
  !connected b p || ((partnerAt b (peerOf b p)).lost || (partnerAt b (peerOf b p)).flags.testBit 3)

theorem portReadyCheck_iff {b : Blk} {p : Nat} : portReadyCheck b p = true ↔ portReady b p := by
  simp [portReadyCheck, portReady]

section JointState

variable {code at_ : Nat} {mine : Bool} {w : Work} (hrequest : w.casc.request = some (code, at_, mine))

include hrequest

/-- While a request waits, a step takes no other. -/
theorem jointRequest_of_waiting : jointRequest w = w := if_pos (.inr (.inr (by rw [hrequest]; rfl)))

theorem jointState_of_due (hdue : at_ ≤ w.time.beat) :
    jointState (jointRequest w) = requestState code (jointAnswer 0 { w with casc.request := none }) := by
  rw [jointRequest_of_waiting hrequest]
  simp only [jointState, hrequest]
  exact if_pos hdue

/-- One boundary before, the master asks the members' flags and its own state. -/
theorem jointState_of_nextBeat (hme : casMe w.toBlk = 0) (hnext : at_ = w.time.beat + 1) :
    jointState (jointRequest w) =
      if (List.range 3).all (portReadyCheck w.toBlk) && allows w.toBlk code then w
      else jointAnswer 0x08000022 { w with casc.request := none } := by
  rw [jointRequest_of_waiting hrequest]
  simp only [jointState, hrequest]
  exact (if_neg (by omega)).trans (if_pos ⟨hme, hnext⟩)

theorem jointState_of_ready (hme : casMe w.toBlk = 0) (hnext : at_ = w.time.beat + 1) (hready : ∀ p < 3, portReady w.toBlk p)
    (hallows : allows w.toBlk code = true) : jointState (jointRequest w) = w := by
  have hall : (List.range 3).all (portReadyCheck w.toBlk) = true :=
    List.all_eq_true.2 fun p hp => portReadyCheck_iff.2 (hready p (List.mem_range.1 hp))
  exact (jointState_of_nextBeat hrequest hme hnext).trans (if_pos (Bool.and_eq_true_iff.2 ⟨hall, hallows⟩))

theorem jointState_of_unready (hme : casMe w.toBlk = 0) (hnext : at_ = w.time.beat + 1)
    (hunready : (∃ p < 3, ¬ portReady w.toBlk p) ∨ allows w.toBlk code = false) :
    jointState (jointRequest w) = jointAnswer 0x08000022 { w with casc.request := none } := by
  refine (jointState_of_nextBeat hrequest hme hnext).trans (if_neg fun h => ?_)
  obtain ⟨hall, hallows⟩ := Bool.and_eq_true_iff.1 h
  rcases hunready with ⟨p, hp, hnot⟩ | hrefuses
  · exact hnot (portReadyCheck_iff.1 (List.all_eq_true.1 hall p (List.mem_range.2 hp)))
  · exact Bool.false_ne_true (hrefuses.symm.trans hallows)

end JointState

theorem jointStateChange_eq_nextOf {s : State} {g : Work → Work} (heq : jointState (jointRequest (workOf s)) = g (workOf s)) :
    exec .jointStateChange s = nextOf s g :=
  perform_eq_nextOf (f := fun w => jointState (jointRequest w)) rfl rfl heq

/-! ## Arrival sets (17 R445 to R447) -/

/-- The beats from a close boundary to the arrival of its set. -/
def arrivalLag (b : Blk) (k : Nat) : Nat := if collGet b k 2 == 2 then 3 else 2

theorem arrivalSet_due {k : Nat} {w : Work} (hformed : formed w.toBlk = true) (hactive : activeState w.toBlk = true)
    (hreceives : collReceives w.toBlk k = true) (hcons : collGet w.toBlk k 6 < 1024)
    (hadmitted : ctxGet w.toBlk (collGet w.toBlk k 6) 0x0B = 2)
    (hphase : w.time.beat % max 1 (ctxGet w.toBlk (collGet w.toBlk k 6) 3) =
      ctxGet w.toBlk (collGet w.toBlk k 6) 0x0F % max 1 (ctxGet w.toBlk (collGet w.toBlk k 6) 3))
    (hlag : arrivalLag w.toBlk k ≤ w.time.beat)
    (hnew : w.casc.done.contains (k, w.time.beat - arrivalLag w.toBlk k) = false) :
    ¬ (formed w.toBlk = false ∨ activeState w.toBlk = false ∨ collReceives w.toBlk k = false ∨ 1024 ≤ collGet w.toBlk k 6 ∨
      ctxGet w.toBlk (collGet w.toBlk k 6) 0x0B ≠ 2 ∨
      w.time.beat % max 1 (ctxGet w.toBlk (collGet w.toBlk k 6) 3) ≠
        ctxGet w.toBlk (collGet w.toBlk k 6) 0x0F % max 1 (ctxGet w.toBlk (collGet w.toBlk k 6) 3) ∨
      w.time.beat < arrivalLag w.toBlk k ∨ w.casc.done.contains (k, w.time.beat - arrivalLag w.toBlk k) = true) := by
  rintro (h | h | h | h | h | h | h | h)
  · exact ne_false_of_eq_true hformed h
  · exact ne_false_of_eq_true hactive h
  · exact ne_false_of_eq_true hreceives h
  · exact absurd hcons (Nat.not_lt.2 h)
  · exact h hadmitted
  · exact h hphase
  · exact absurd hlag (Nat.not_le.2 h)
  · exact Bool.false_ne_true (hnew.symm.trans h)

/-! ## Stretch (17 R449) -/

theorem jobStretch_off {w : Work} (hformed : formed w.toBlk = true) : jobStretch false w = { w with casc.stretchOut := 0 } :=
  (if_neg (ne_false_of_eq_true hformed)).trans (if_pos rfl)

theorem jobStretch_on {w : Work} (hformed : formed w.toBlk = true) (hsteps : (List.range (quadCount w.fuses)).any (fun q =>
      carriesJob w.toBlk q && clockOf w.toBlk q != wantClock w.toBlk q) = true) :
    jobStretch true w = { w with casc.stretchOut := stretchJobs w.toBlk } :=
  (if_neg (ne_false_of_eq_true hformed)).trans ((if_neg Bool.false_ne_true.symm).trans (if_pos hsteps))

/-! ## Lost members (17 R450) -/

theorem partnerLost_due {j : Nat} {w : Work} (hformed : formed w.toBlk = true) (hother : j ≠ casMe w.toBlk)
    (hmember : j < casSize w.toBlk) (hkept : (partnerAt w.toBlk j).lost = false)
    (hgoes : (partnerAt w.toBlk j).leave.isSome = true ∨ (partnerAt w.toBlk j).heard + 4 ≤ w.time.beat) :
    ¬ (formed w.toBlk = false ∨ j = casMe w.toBlk ∨ casSize w.toBlk ≤ j ∨ (partnerAt w.toBlk j).lost = true ∨
      ((partnerAt w.toBlk j).leave.isNone = true ∧ w.time.beat < (partnerAt w.toBlk j).heard + 4)) := by
  rintro (h | h | h | h | ⟨hstays, hheard⟩)
  · exact ne_false_of_eq_true hformed h
  · exact hother h
  · exact absurd hmember (Nat.not_lt.2 h)
  · exact Bool.false_ne_true (hkept.symm.trans h)
  · rcases hgoes with hleaves | hsilent
    · rw [Option.isNone_iff_eq_none.1 hstays] at hleaves
      exact Bool.false_ne_true hleaves
    · exact absurd hsilent (Nat.not_le.2 hheard)

theorem memberExpel_serves {w : Work} (hformed : formed w.toBlk = true) (hme : casMe w.toBlk = 0) :
    ¬ (formed w.toBlk = false ∨ casMe w.toBlk ≠ 0) := by simp [hformed, hme]

/-- Settles O43: a waiting request excludes a new one, and every other command turns on its guard alone. -/
theorem cascadeCommands : Obligations.CascadeCommands := by
  intro s k j code at_ outs mine hformed
  refine ⟨fun hrequest => ⟨fun hdue => ?_, fun hme hnext => ⟨fun hready hallows => ?_, fun hunready => ?_⟩⟩,
    fun hk hok hactive hreceives hcons hadmitted hphase hlag hnew => ?_, ?_, ?_, fun hsteps => ?_,
    fun hj hother hmember hkept hgoes => ?_, fun hme => ?_⟩
  · exact jointStateChange_eq_nextOf (jointState_of_due (w := workOf s) hrequest hdue)
  · exact jointStateChange_eq_nextOf (jointState_of_ready (w := workOf s) hrequest hme hnext hready hallows)
  · exact jointStateChange_eq_nextOf (jointState_of_unready (w := workOf s) hrequest hme hnext hunready)
  · exact perform_eq_nextOf hok rfl
      (if_neg (arrivalSet_due (w := workOf s) hformed hactive hreceives hcons hadmitted hphase hlag hnew))
  · exact perform_eq_nextOf (f := jobAbort) (ok := true) (there := true) rfl rfl rfl
  · exact perform_eq_nextOf rfl rfl (jobStretch_off (w := workOf s) hformed)
  · exact perform_eq_nextOf rfl rfl (jobStretch_on (w := workOf s) hformed hsteps)
  · exact perform_eq_nextOf (decide_eq_true hj) rfl (if_neg (partnerLost_due (w := workOf s) hformed hother hmember hkept hgoes))
  · exact perform_eq_nextOf rfl rfl (if_neg (memberExpel_serves (w := workOf s) hformed hme))

end Sys2Proof.Proofs
end
